-- ==== Sys2Proof/Word.lean ====
section
/-! DEFINITION. Bytes of the two ports, fixed-size tables, and the plainest arithmetic of the manual's
conventions (c00 "Conventions", c12): clamping, saturating counts, most significant byte first. -/

namespace Sys2Proof

/-- One byte on either port. -/
abbrev Byte := BitVec 8

/-- A two-byte field, most significant byte first on the wire (c12). -/
abbrev Half := BitVec 16

/-- A fixed number of like things, numbered from 0. -/
abbrev Tab (α : Type) (n : Nat) := Vector α n

namespace Tab

variable {α : Type} {n : Nat}

/-- The entry numbered `i`. -/
def at_ (v : Tab α n) (i : Fin n) : α := v[i]

/-- The table with entry `i` replaced. -/
def put (v : Tab α n) (i : Fin n) (x : α) : Tab α n := v.set i x

/-- The table whose entry `i` is `f i`. -/
def tab (f : Fin n → α) : Tab α n := Vector.ofFn f

/-- The table with one entry changed by `f`. -/
def upd (v : Tab α n) (i : Fin n) (f : α → α) : Tab α n := v.put i (f (v.at_ i))

@[simp] theorem at_tab (f : Fin n → α) (i : Fin n) : (tab f).at_ i = f i := by
  simp [at_, tab]

@[simp] theorem at_put_self (v : Tab α n) (i : Fin n) (x : α) : (v.put i x).at_ i = x := by
  simp [at_, put]

theorem at_put (v : Tab α n) (i j : Fin n) (x : α) :
    (v.put i x).at_ j = if j = i then x else v.at_ j := by
  by_cases h : j = i
  · simp [h]
  · have : (i : Nat) ≠ j := fun e => h (Fin.ext e.symm)
    simp [at_, put, h, Vector.getElem_set_ne, this]

@[simp] theorem at_put_ne (v : Tab α n) {i j : Fin n} (x : α) (h : j ≠ i) :
    (v.put i x).at_ j = v.at_ j := by
  simp [at_put, h]

@[simp] theorem at_upd_self (v : Tab α n) (i : Fin n) (f : α → α) :
    (v.upd i f).at_ i = f (v.at_ i) := by
  simp [upd]

@[simp] theorem at_upd_ne (v : Tab α n) {i j : Fin n} (f : α → α) (h : j ≠ i) :
    (v.upd i f).at_ j = v.at_ j := by
  simp [upd, h]

/-- Two tables with the same entries are the same table. -/
theorem ext_at {v w : Tab α n} (h : ∀ i, v.at_ i = w.at_ i) : v = w := by
  apply Vector.ext
  intro i hi
  simpa [at_] using h ⟨i, hi⟩

end Tab

/-- A value brought to the nearest end of `lo..hi` ("clamped", c00 Terms). -/
def clamp (lo hi x : Nat) : Nat := max lo (min hi x)

theorem clamp_bounds {lo hi x : Nat} (h : lo ≤ hi) : lo ≤ clamp lo hi x ∧ clamp lo hi x ≤ hi := by
  unfold clamp; omega

theorem clamp_of_mem {lo hi x : Nat} (h₁ : lo ≤ x) (h₂ : x ≤ hi) : clamp lo hi x = x := by
  unfold clamp; omega

/-- A count raised by one that stops at its upper bound ("saturating", c00 Terms). -/
def satSucc (bound n : Nat) : Nat := if n < bound then n + 1 else n

theorem satSucc_le {bound n : Nat} (h : n ≤ bound) : satSucc bound n ≤ bound := by
  unfold satSucc; split <;> omega

/-- One byte of a number, by its low eight bits. -/
def byteOf (n : Nat) : Byte := BitVec.ofNat 8 n

/-- Two bytes, most significant first (c12). -/
def be16 (n : Nat) : List Byte := [byteOf (n / 256), byteOf n]

/-- Four bytes, most significant first (c12). -/
def be32 (n : Nat) : List Byte := [byteOf (n / 16777216), byteOf (n / 65536), byteOf (n / 256), byteOf n]

/-- Bit `k` of a flag byte. -/
def bitAt (k : Nat) (b : Bool) : Nat := if b then 2 ^ k else 0

/-- A two-byte field read from two bytes, most significant first (c12). -/
def halfOf (hi lo : Byte) : Half := hi ++ lo

end Sys2Proof
end

