-- ==== Sys2Proof/Syntax.lean ====
section
/-! DEFINITION. The commands of the block: one constructor per row of spec/opcode_table.json, with the
operands the row's rule gives it. A byte of the wire is a `Byte`, a two-byte field a `Half`. -/

namespace Sys2Proof

/-- The moments of a read whose effects the spec places apart (R135): the command is taken, and a first
byte of its reply (for READ LOSS, of its next entry) is sent. -/
inductive ReadMoment
  | taken
  | firstByte
  deriving DecidableEq, Repr

/-- The same for a read with one argument byte (READ STATION, READ SUMMARY). -/
inductive ArgReadMoment
  | taken (arg : Byte)
  | firstByte
  deriving DecidableEq, Repr

/-- The two moments of a slot or pixel of a streamed reply (R116, R153): its first byte is sent, and its
last byte has been clocked out. -/
inductive SlotMoment
  | begins
  | ends
  deriving DecidableEq, Repr

/-- What a PITCH input's filter is given (R14): a pulse that qualifies, taken whole with the LOW that re-armed the
input before it; the input at a level, as it changes to it or as the end of hard reset finds it there; the level it is
at held for the 20 µs. -/
inductive PitchMoment
  | pulse
  | level (high : Bool)
  | held
  deriving DecidableEq, Repr

/-- What the filter of XSTOP or XALERT is given (R26, R177): a level taken whole, with its 20 µs; the input at a level,
as it changes to it or as the end of hard reset finds it there; the level it is at held for the 20 µs. -/
inductive LevelMoment
  | taken (high : Bool)
  | level (high : Bool)
  | held
  deriving DecidableEq, Repr

/-- What HARD_RESET gives (R178): RSTn LOW taken whole, with its 10 µs; the supply below its operating range; RSTn going
LOW; the LOW on RSTn held for the 10 µs. -/
inductive ResetInput
  | rstn
  | supplyFalls
  | rstnFalls
  | rstnHeld
  deriving DecidableEq, Repr

/-- The conditions of hard reset that END_OF_HARD_RESET ends (R178): both, the supply's, or RSTn's. -/
inductive ResetEnd
  | both
  | supply
  | rstn
  deriving DecidableEq, Repr

/-- A moment of the PITCH input of one zone (R14). -/
structure PitchEvent where
  zone : Fin 6
  moment : PitchMoment
  deriving DecidableEq, Repr

/-- An edge of one of the Line Port's two wires, with the level of the other at it (R122). -/
inductive LineEdge
  | sclRises (sda : Bool)
  | sclFalls
  | sdaFalls (scl : Bool)
  | sdaRises (scl : Bool)
  deriving DecidableEq, Repr

/-- What ADDRESS_BYTE gives: a whole address byte with its START, or one edge of the two wires, of the address byte or
of the bytes that follow it (R122, log 26). -/
inductive AddressInput
  | byte (b : Byte)
  | edge (e : LineEdge)
  deriving DecidableEq, Repr

/-- An edge of the Plant Port's SCK, with the level of MOSI where a bit is taken at it (R132). -/
inductive SckEdge
  | rises (mosi : Bool)
  | falls
  deriving DecidableEq, Repr

/-- What COMMAND_BYTE gives: a whole command byte, or one edge of SCK, of the command byte or of the bytes that follow
it (R132, log 26). -/
inductive CommandInput
  | byte (code : Byte)
  | edge (e : SckEdge)
  deriving DecidableEq, Repr

/-- A break entry of STAGE PLAN as sent: start, length (R181). -/
structure BreakArg where
  start : Half
  length : Half
  deriving DecidableEq, Repr

/-- The plant commands that R181's code table names. -/
inductive PlantCommand
  | readStatus | readStation | readCalls | readPace | readLoss | readSummary | readHistory | rewindHistory
  | stagePlan | commitPlan | discardPlan | shiftStart | shiftClose
  | ackCall | clearCall
  | writeLayoutZone | writeLayoutStation | writePolicy | writeLinkSettings
  | setWindow | setCursor | setAddressControl | setColourMode | setMask | setMark | returnToMark
  | writePixels | readPixels
  | writeRegion | setIntensity | restartTiles
  deriving DecidableEq, Repr

/-- The nine line frame types (R127). -/
inductive FrameType
  | pull | release | leaderAck | leaderReset | bufferSet | countAdjust | shiftStart | timeMark | keepalive
  deriving DecidableEq, Repr

/-- The commands, in the order of spec/opcode_table.json. -/
inductive Instr
  | hardReset (input : ResetInput := .rstn)
  | endOfHardReset (adr : BitVec 3) (tst : BitVec 2) (xtal : Bool) (gone : ResetEnd := .both)
  | step (input : PitchEvent)
  | xstopChange (m : LevelMoment)
  | xalertChange (m : LevelMoment)
  | stallMonitorSecond (zone : Fin 6)
  | runClockSecond
  | shiftTimerSecond
  | closeCompletion
  | callSecond (only : Option Nat)
  | lineLinkSecond
  | plantLinkSecond
  | scrollSecond
  | scrollStep
  | flashToggle
  | startTimerExpiry
  | rampExpiry
  | presenceReturn (tile : Fin 30) (present : Bool)
  | renderPassComplete (entry : Fin 8)
  | addressByte (input : AddressInput)
  | lineStatusRead
  | lineFrame (bytes : List Byte) (partialBits : Nat)
  | pull
  | release
  | leaderAck
  | leaderReset
  | bufferSet
  | countAdjust
  | lineShiftStart
  | timeMark
  | keepalive
  | csFalling
  | csRising (partialBytes : Nat) (partialBits : Nat)
  | unknownCommand (code : Byte)
  | readStatus (m : ReadMoment)
  | statusFlagByteSent
  | presenceExtension
  | readStation (m : ArgReadMoment)
  | readCalls
  | callRecordSlot
  | readPace (m : ReadMoment)
  | readLoss (m : ReadMoment)
  | readSummary (m : ArgReadMoment)
  | readHistory
  | historySlot (m : SlotMoment)
  | rewindHistory
  | stagePlan (length takt overtime : Half) (count : Byte) (breaks : Vector BreakArg 6)
  | commitPlan (mode : Byte)
  | discardPlan
  | plantShiftStart (number offset : Half)
  | shiftClose
  | ackCall (number : Half) (responder : Byte)
  | clearCall (number : Half) (responder : Byte)
  | writeLayoutZone (zone used first last pitch coast stall capacity : Byte)
  | writeLayoutStation (station flag length : Byte)
  | writePolicy (thresholds : Vector Half 15) (grace : Half)
  | writeLinkSettings (lineCode plantCode settings : Byte)
  | setWindow (x0 y0 x1 y1 : Byte)
  | setCursor (x y : Byte)
  | setAddressControl (order column row wrap : Byte)
  | setColourMode (mode : Byte)
  | setMask (flags : Byte)
  | setMark
  | returnToMark
  | writePixels (origin : Byte)
  | pixelGroup (bytes : List Byte)
  | readPixels
  | pixelRead (m : SlotMoment)
  | writeRegion (entry role x0 y0 x1 y1 flag header scroll : Byte)
  | setIntensity (target ramp flags : Byte)
  | restartTiles
  | commandByte (input : CommandInput)
  deriving DecidableEq, Repr

end Sys2Proof
end

