-- ==== Sys2Proof/Decode.lean ====
section
/-! DEFINITION. The code tables of the two ports (R179, R181), and decodeTableWord: no row of
spec/opcode_table.json is given bits, so no word spells a command of the table. -/

namespace Sys2Proof

/-- The command a word spells by the table's bits: none, since no row gives bits. -/
def decodeTableWord (_nbits _w : Nat) : Option Instr := none

/-- The line frame type of a type byte, `none` for a byte of no known type (R179). -/
def decodeFrameType (b : Byte) : Option FrameType :=
  match b.toNat with
  | 0x21 => some .pull
  | 0x22 => some .release
  | 0x23 => some .leaderAck
  | 0x24 => some .leaderReset
  | 0x31 => some .bufferSet
  | 0x32 => some .countAdjust
  | 0x41 => some .shiftStart
  | 0x42 => some .timeMark
  | 0x50 => some .keepalive
  | _ => none

/-- The whole length of a frame: type byte, payload and check byte (R179). -/
def FrameType.length : FrameType → Nat
  | .pull => 5
  | .release => 3
  | .leaderAck => 4
  | .leaderReset => 4
  | .bufferSet => 4
  | .countAdjust => 3
  | .shiftStart => 6
  | .timeMark => 6
  | .keepalive => 2

/-- The plant command of a command byte, `none` for an unknown code (R181). -/
def decodePlantCode (b : Byte) : Option PlantCommand :=
  match b.toNat with
  | 0x01 => some .readStatus
  | 0x02 => some .readStation
  | 0x03 => some .readCalls
  | 0x04 => some .readPace
  | 0x05 => some .readLoss
  | 0x06 => some .readSummary
  | 0x07 => some .readHistory
  | 0x08 => some .rewindHistory
  | 0x10 => some .stagePlan
  | 0x11 => some .commitPlan
  | 0x12 => some .discardPlan
  | 0x13 => some .shiftStart
  | 0x14 => some .shiftClose
  | 0x18 => some .ackCall
  | 0x19 => some .clearCall
  | 0x20 => some .writeLayoutZone
  | 0x21 => some .writeLayoutStation
  | 0x22 => some .writePolicy
  | 0x23 => some .writeLinkSettings
  | 0x30 => some .setWindow
  | 0x31 => some .setCursor
  | 0x32 => some .setAddressControl
  | 0x33 => some .setColourMode
  | 0x34 => some .setMask
  | 0x35 => some .setMark
  | 0x36 => some .returnToMark
  | 0x37 => some .writePixels
  | 0x38 => some .readPixels
  | 0x40 => some .writeRegion
  | 0x41 => some .setIntensity
  | 0x42 => some .restartTiles
  | _ => none

/-- The number of argument bytes a command has before it is taken, the origin alone for WRITE PIXELS
(R181). -/
def PlantCommand.argBytes : PlantCommand → Nat
  | .readStatus | .readCalls | .readPace | .readLoss | .readHistory | .rewindHistory => 0
  | .readStation | .readSummary => 1
  | .stagePlan => 31
  | .commitPlan => 1
  | .discardPlan | .shiftClose => 0
  | .shiftStart => 4
  | .ackCall | .clearCall => 3
  | .writeLayoutZone => 8
  | .writeLayoutStation => 3
  | .writePolicy => 32
  | .writeLinkSettings => 3
  | .setWindow => 4
  | .setCursor => 2
  | .setAddressControl => 4
  | .setColourMode => 1
  | .setMask => 1
  | .setMark | .returnToMark | .readPixels | .restartTiles => 0
  | .writePixels => 1
  | .writeRegion => 9
  | .setIntensity => 3

/-- Whether the command changes state, so that a cut before it is taken gives ABORTED (R133, R134). -/
def PlantCommand.changesState : PlantCommand → Bool
  | .readStatus | .readStation | .readCalls | .readPace | .readLoss | .readSummary | .readHistory
  | .readPixels => false
  | .rewindHistory | .stagePlan | .commitPlan | .discardPlan | .shiftStart | .shiftClose | .ackCall
  | .clearCall | .writeLayoutZone | .writeLayoutStation | .writePolicy | .writeLinkSettings | .setWindow
  | .setCursor | .setAddressControl | .setColourMode | .setMask | .setMark | .returnToMark | .writePixels
  | .writeRegion | .setIntensity | .restartTiles => true

end Sys2Proof
end

