-- ==== Sys2Proof/Config.lean ====
section
/-! DEFINITION. The constants the KD-4816 fixes: bounds, depths and the code tables that turn a stored
code into seconds or milliseconds. No value of the spec is left open, so there is no free value here. -/

namespace Sys2Proof.Config

/-- Depth of the Line Intake Queue (R126). -/
def queueDepth : Nat := 16

/-- Records the Stoppage History Log holds (R111). -/
def historyDepth : Nat := 128

/-- Bound of the 16-bit saturating second counts (R34, R96). -/
def secondsMax : Nat := 65535

/-- Bound of the run clock (R69). -/
def runClockMax : Nat := 4294967295

/-- Bound of the actual count (R91). -/
def actualMax : Nat := 9999

/-- Bound of the coast count (R27). -/
def coastMax : Nat := 255

/-- Bound of a station's calls this shift (R10). -/
def callsShiftMax : Nat := 255

/-- Bound of both link timers' counts (R130, R141). -/
def linkCountMax : Nat := 60

/-- Largest call number (R34). -/
def callNumberMax : Nat := 9999

/-- Columns and rows of the board face (R143). -/
def frameWidth : Nat := 160
def frameHeight : Nat := 48

/-- Own Line Port address for ADR 0 (R123). -/
def lineBase : Nat := 0x38

/-- Q, the silent seconds that set STALL, by the stall qualification index (R1). -/
def stallSeconds : Nat → Nat
  | 0 => 2
  | 1 => 3
  | 2 => 5
  | _ => 8

/-- Line timeout by code, `none` for off (R142). -/
def lineTimeout : Nat → Option Nat
  | 0 => none
  | 1 => some 1
  | 2 => some 2
  | _ => some 5

/-- Plant timeout by code, `none` for off (R142). -/
def plantTimeout : Nat → Option Nat
  | 0 => none
  | 1 => some 5
  | 2 => some 15
  | _ => some 60

/-- Tile start interval in milliseconds by TST code (R173). -/
def startInterval : Nat → Nat
  | 0 => 0
  | 1 => 100
  | 2 => 200
  | _ => 400

/-- Ramp interval in milliseconds by ramp code (R174). -/
def rampInterval : Nat → Nat
  | 0 => 0
  | 1 => 8
  | 2 => 16
  | 3 => 32
  | 4 => 64
  | _ => 128

end Sys2Proof.Config
end

