-- ==== Sys2Proof/Machine/State.lean ====
section
/-! DEFINITION. The whole state of the KD-4816 as plain data, block by block as c00's Block Overview lists
them, the reasons a step could stop, and the state after hard reset. -/

namespace Sys2Proof.Machine

/-! ### Line layout and station records (c01) -/

/-- The call kinds, in code order (R34, c12). -/
inductive Kind
  | quality | parts | equipment | safety | help
  deriving DecidableEq, Repr

/-- A zone record of the line layout (R1). -/
structure ZoneRecord where
  first : Nat
  last : Nat
  pitch : Nat
  coastAllowance : Nat
  stallIndex : Nat
  stallCheck : Bool
  capacity : Nat
  deriving DecidableEq, Repr

/-- A station entry of the line layout (R1). -/
structure StationEntry where
  flag : Bool
  length : Nat
  deriving DecidableEq, Repr

/-- The line layout: used-zone count Z, six zone records, 48 station entries (R1). -/
structure Layout where
  used : Nat
  zones : Tab ZoneRecord 6
  stations : Tab StationEntry 48
  deriving DecidableEq, Repr

/-- The stored part of a station record (R10); enabled, zone and length are the layout's. -/
structure StationRecord where
  openCall : Option Nat
  callsShift : Nat
  chargedLoss : Nat
  lastKind : Option Kind
  deriving DecidableEq, Repr

/-! ### Input filters (R14, R26, R177) -/

/-- The filter of an input: the level taken, true for HIGH on a PITCH input and for asserted on XSTOP and XALERT, and
whether the input is at the other level, the 20 µs running. On a PITCH input taken as LOW that is a pulse in
qualification. -/
structure PinFilter where
  taken : Bool
  timing : Bool
  deriving DecidableEq, Repr

/-! ### Conveyor Tracker (c02) -/

/-- A stop-reason set (section 2.4). -/
structure ReasonSet where
  hold : Bool
  plan : Bool
  xstop : Bool
  blocked : Bool
  starved : Bool
  deriving DecidableEq, Repr

/-- The Tracker's state of one zone (R33). -/
structure ZoneState where
  accumulator : Nat
  reasons : ReasonSet
  coast : Nat
  overrun : Bool
  miss : Nat
  stepped : Bool
  stall : Bool
  deriving DecidableEq, Repr

/-- One buffer: its count and slip flags (R17). -/
structure Buffer where
  count : Nat
  overSlip : Bool
  underSlip : Bool
  deriving DecidableEq, Repr

/-- The Conveyor Tracker; `xstop` is the filter of XSTOP (R26). -/
structure Tracker where
  zones : Tab ZoneState 6
  buffers : Tab Buffer 5
  xstop : PinFilter
  deriving DecidableEq, Repr

/-! ### Call List (c03) -/

/-- The call phases (R34). -/
inductive Phase
  | warn | hold
  deriving DecidableEq, Repr

/-- The master an acknowledgement came from (R34). -/
inductive AckSource
  | line | plant
  deriving DecidableEq, Repr

/-- The first acknowledgement of a call (R53, R54). -/
structure Ack where
  source : AckSource
  id : Nat
  time : Nat
  deriving DecidableEq, Repr

/-- An open call (R34). -/
structure Call where
  number : Nat
  station : Fin 48
  zone : Fin 6
  kinds : List Kind
  openedAt : Nat
  openedTag : Nat
  phase : Phase
  remaining : Nat
  level : Nat
  escalation : Nat
  grace : Nat
  ack : Option Ack
  holdTime : Nat
  everHeld : Bool
  deriving DecidableEq, Repr

/-- The thresholds of one kind for levels 1, 2 and 3; 0 is "never" (R56). -/
structure Thresholds where
  level1 : Nat
  level2 : Nat
  level3 : Nat
  deriving DecidableEq, Repr

/-- The escalation policy table (R56). -/
structure Policy where
  quality : Thresholds
  parts : Thresholds
  equipment : Thresholds
  safety : Thresholds
  help : Thresholds
  grace : Nat
  deriving DecidableEq, Repr

/-- The Call List: open calls oldest first, the allocator, the policy table (R35, R36). -/
structure CallList where
  calls : List Call
  allocator : Nat
  policy : Policy
  deriving DecidableEq, Repr

/-! ### Shift Timer (c04) -/

/-- A planned break (R63). -/
structure Break where
  start : Nat
  length : Nat
  deriving DecidableEq, Repr

/-- A plan record (R63). -/
structure Plan where
  length : Nat
  takt : Nat
  overtime : Nat
  breaks : List Break
  deriving DecidableEq, Repr

/-- The shift states (R68). -/
inductive ShiftState
  | noShift | production | inBreak | overtime | closing
  deriving DecidableEq, Repr

/-- The pending shift start (R71). -/
structure PendingStart where
  number : Nat
  offset : Nat
  deriving DecidableEq, Repr

/-- The Shift Timer: state, plan holders, the three clocks, correction, pending start (R63, R68, R69). -/
structure ShiftTimer where
  state : ShiftState
  number : Nat
  openedAt : Nat
  openingWc : Nat
  staged : Option Plan
  next : Option Plan
  active : Option Plan
  runClock : Nat
  clock : Nat
  wc : Nat
  correction : Int
  pendingStart : Option PendingStart
  deriving DecidableEq, Repr

/-! ### Pace Unit (c05) -/

/-- The stored figures, as last computed (R88); `shownActual` is the A of that computation. -/
structure Figures where
  rp : Nat
  em : Nat
  gm : Nat
  e : Nat
  g : Nat
  gap : Int
  pace : Option Nat
  shownActual : Nat
  deriving DecidableEq, Repr

/-- The Pace Unit: B, Wr, A, H and the stored figures (R82). -/
structure PaceUnit where
  base : Nat
  rebaseMark : Nat
  actual : Nat
  held : Nat
  figures : Figures
  deriving DecidableEq, Repr

/-! ### Loss Accounting and the Archive (c06) -/

/-- One zone's seconds by cause, in the cause order of R98. -/
structure ReasonSeconds where
  xstop : Nat
  hold : Nat
  stall : Nat
  blocked : Nat
  starved : Nat
  deriving DecidableEq, Repr

/-- One zone's HOLD seconds by call kind (R96). -/
structure KindSeconds where
  quality : Nat
  parts : Nat
  equipment : Nat
  safety : Nat
  help : Nat
  deriving DecidableEq, Repr

/-- One zone's rows of the Loss Table (R96). -/
structure ZoneLoss where
  reasons : ReasonSeconds
  kinds : KindSeconds
  deriving DecidableEq, Repr

/-- The Loss Table and the shift call tallies (R96, R103). -/
structure Loss where
  zones : Tab ZoneLoss 6
  lineLost : Nat
  opened : Nat
  closed : Nat
  longestHold : Nat
  deriving DecidableEq, Repr

/-- The reasons a close starts with (R80). -/
inductive CloseReason
  | targetMet | lengthEnd | overtimeLimit | command | newShift
  deriving DecidableEq, Repr

/-- A station row of a summary record (R108). -/
structure StationRow where
  calls : Nat
  loss : Nat
  deriving DecidableEq, Repr

/-- A summary record: the header and the snapshot of R105, the fields of R108. -/
structure Summary where
  number : Nat
  openedAt : Nat
  closedAt : Nat
  reason : CloseReason
  takt : Nat
  target : Nat
  expected : Nat
  actual : Nat
  productive : Nat
  used : Nat
  lineLost : Nat
  lineLostCars : Nat
  zones : Tab ZoneLoss 6
  opened : Nat
  closed : Nat
  carried : Nat
  longestHold : Nat
  rows : Tab StationRow 48
  deriving DecidableEq, Repr

/-- A slot of the Archive (R104); a WRITING slot holds the header and snapshot its body is written from. -/
inductive Slot
  | empty
  | writing (record : Summary)
  | complete (record : Summary)
  deriving DecidableEq, Repr

/-- The Shift Summary Archive (R104). -/
structure Archive where
  slots : Tab Slot 4
  newest : Option (Fin 4)
  deriving DecidableEq, Repr

/-! ### Stoppage History Log (c07) -/

/-- The way a call closed, with its id where there is one (R112). -/
inductive ClosedBy
  | station
  | leader (id : Nat)
  | plant (id : Nat)
  deriving DecidableEq, Repr

/-- A history record (R112). -/
structure HistoryRecord where
  number : Nat
  station : Fin 48
  zone : Fin 6
  kinds : List Kind
  openedAt : Nat
  openedTag : Nat
  closedAt : Nat
  closedTag : Nat
  holdTime : Nat
  everHeld : Bool
  maxLevel : Nat
  closedBy : ClosedBy
  ack : Option Ack
  droppedBefore : Bool
  deriving DecidableEq, Repr

/-! ### The two ports (c08) -/

/-- Link states (R130, R141). -/
inductive LinkState
  | never | up | lost
  deriving DecidableEq, Repr

/-- A port's link supervision: state, seconds since the last restart, timeout (R130, R141). -/
structure Link where
  state : LinkState
  count : Nat
  timeout : Option Nat
  deriving DecidableEq, Repr

/-- Line results (R128). -/
inductive LineResult
  | ok | check | short | unknown | range | state | duplicate | already
  deriving DecidableEq, Repr

/-- Plant results (R134). -/
inductive PlantResult
  | ok | busy | state | range | nocall | already | invalid | overlap | aborted
  deriving DecidableEq, Repr

/-- A good line frame with its payload as received (R127, R179). -/
inductive Frame
  | pull (station kind progress : Byte)
  | release (station : Byte)
  | leaderAck (station leader : Byte)
  | leaderReset (station leader : Byte)
  | bufferSet (buffer count : Byte)
  | countAdjust (delta : Byte)
  | shiftStart (number offset : Half)
  | timeMark (number seconds : Half)
  | keepalive
  deriving DecidableEq, Repr

/-- What the Line Port does with the transaction on the bus (R123, R124, R129). -/
inductive LinePhase
  | idle
  | receiving
  | ignoring
  | serving (block : List Byte)
  deriving DecidableEq, Repr

/-- The answer driven at an acknowledge bit (R122, R123). -/
inductive BusAnswer
  | ack | nack | unanswered
  deriving DecidableEq, Repr

/-- Where the clock of the two-wire bus stands (R122): no START since the last STOP, in an address byte, in a byte after
it. -/
inductive BusPlace
  | stopped
  | address
  | data
  deriving DecidableEq, Repr

/-- The transaction on the two wires, bit by bit (R122): where the clock stands; the bits of the byte under way, first
bit first, all eight of them until its acknowledge clock; the whole bytes received after the address byte; the count of
bytes served; SDA as the part drives it, true when released. -/
structure LineClock where
  place : BusPlace
  bits : List Bool
  bytes : List Byte
  sent : Nat
  sda : Bool
  deriving DecidableEq, Repr

/-- The Line Port (section 8.8). `answer` is the answer to the last address byte and `byteAnswers` those
to the bytes of the last frame received. -/
structure LinePort where
  phase : LinePhase
  answer : BusAnswer
  byteAnswers : List BusAnswer
  queue : List Frame
  lastResult : LineResult
  link : Link
  broadcastEnable : Bool
  broadcastMissed : Bool
  clock : LineClock
  deriving DecidableEq, Repr

/-- Colour modes (R149). -/
inductive ColourMode
  | c8 | c12 | c16
  deriving DecidableEq, Repr

/-- A pixel of the Frame Store (R143). -/
structure Pixel where
  r : BitVec 4
  g : BitVec 4
  b : BitVec 4
  deriving DecidableEq, Repr

/-- The captured reply of READ STATUS (R137): the 8 bytes, whether they show the collision flag set,
whether a collision was recorded since, and the presence extension once captured. -/
structure StatusReply where
  bytes : List Byte
  shownCollision : Bool
  collisionSince : Bool
  extension : Option (List Byte)
  deriving DecidableEq, Repr

/-- The reply of READ SUMMARY (R109): header and body as captured, the body empty but for a COMPLETE slot; `cut`
once a close took that slot. -/
structure SummaryReply where
  header : List Byte
  body : List Byte
  cut : Bool
  deriving DecidableEq, Repr

/-- The slot READ HISTORY has in flight (R116): the captured record, `none` in an end slot; `live` while
the record is still in the log, so that the cursor still designates it (R120). -/
structure HistorySlot where
  record : Option HistoryRecord
  live : Bool
  deriving DecidableEq, Repr

/-- The Plant Port's transaction (R132, R133, R135). -/
inductive Transaction
  | waiting
  | ready
  | arguments (command : PlantCommand)
  | ignoring
  | status (reply : Option StatusReply)
  | station (number : Byte) (record : Option (List Byte))
  | calls (noted : List Nat) (slot : List Byte)
  | pace (block : Option (List Byte))
  | loss (sent : Nat) (entry : List Byte)
  | summary (slot : Option (Fin 4)) (reply : Option SummaryReply)
  | history (slot : Option HistorySlot)
  | pixelsIn (mode : ColourMode)
  | pixelsRefused
  | pixelsOut (pixel : Option Pixel)
  deriving DecidableEq, Repr

/-- The transaction of the Plant Port, bit by bit (R132): the level of SCK; the bits of the byte under way, first bit
first; the whole bytes received of the arguments or the pixel group under way; the count of bytes served of the reply,
or of the slot, entry or pixel in flight where it is cut into these; the level MISO is driven to. -/
structure PlantClock where
  sck : Bool
  bits : List Bool
  bytes : List Byte
  sent : Nat
  miso : Bool
  deriving DecidableEq, Repr

/-- The Plant Port (section 8.8). `historyCursor` is the place in the log, from the oldest, of the record
the read cursor designates, `none` at end (R115). -/
structure PlantPort where
  transaction : Transaction
  lastResult : PlantResult
  link : Link
  collision : Bool
  historyCursor : Option Nat
  clock : PlantClock
  deriving DecidableEq, Repr

/-! ### Frame Store (c09) -/

/-- A rectangle, both ends included (R145, R156). -/
structure Rect where
  x0 : Nat
  y0 : Nat
  x1 : Nat
  y1 : Nat
  deriving DecidableEq, Repr

/-- A pixel position (R146). -/
structure Point where
  x : Nat
  y : Nat
  deriving DecidableEq, Repr

/-- Address control (R147). -/
structure AddressControl where
  rowFirst : Bool
  columnMinus : Bool
  rowMinus : Bool
  wrap : Bool
  deriving DecidableEq, Repr

/-- Channel block flags (R150). -/
structure ChannelMask where
  r : Bool
  g : Bool
  b : Bool
  deriving DecidableEq, Repr

/-- The 7,680 pixels of the Frame Store, address 160·y + x, as the list of those that are not black with
addresses strictly rising: the one canonical form (R143, log 18). -/
abbrev Memory := List (Nat × Pixel)

/-- The Frame Store: its pixels and the plant's addressing machine (R143 to R154). -/
structure FrameStore where
  pixels : Memory
  window : Rect
  cursor : Point
  mark : Point
  control : AddressControl
  colourMode : ColourMode
  mask : ChannelMask
  deriving DecidableEq, Repr

/-! ### Composition Engine (c10) -/

/-- Region roles, in code order (R156). -/
inductive Role
  | pace | stations | ticker | clock | banner | message
  deriving DecidableEq, Repr

/-- The engine's colours (R163). -/
inductive Colour
  | black | white | dimWhite | red | yellow | magenta | blue | green
  deriving DecidableEq, Repr

/-- A lamp as captured (R164). -/
structure Lamp where
  colour : Colour
  flashing : Bool
  deriving DecidableEq, Repr

/-- A call line of the ticker as captured (R166). -/
structure TickerLine where
  station : Nat
  kinds : List Kind
  minutes : Nat
  level : Nat
  colour : Colour
  deriving DecidableEq, Repr

/-- The banner's messages (R170). -/
inductive BannerMessage
  | safetyStop | lineLink | stopElsewhere | plantLink | inBreak | overtime
  deriving DecidableEq, Repr

/-- What a render pass captured at its start, by role (R160, R164 to R170). -/
inductive Capture
  | pace (target expected actual : Nat) (gap : Int) (pace : Option Nat) (lostCars : Nat)
  | stations (lamps : List Lamp) (flashOn : Bool)
  | ticker (openCount holdCount : Nat) (lines : List TickerLine) (offset : Nat)
  | clock (shown : Option Nat)
  | banner (message : Option BannerMessage) (flashOn : Bool)
  deriving DecidableEq, Repr

/-- Render state (R159): IDLE, or a pass in flight with its capture, the pixels it has written, and
whether a request is pending. -/
inductive Render
  | idle
  | busy (capture : Capture) (written : Nat) (again : Bool)
  deriving DecidableEq, Repr

/-- An entry of the Layout Table with its render state (R156, R159). -/
structure Region where
  role : Role
  rect : Rect
  enabled : Bool
  headerRows : Nat
  scrollInterval : Nat
  render : Render
  deriving DecidableEq, Repr

/-- Render requests raised within the command being taken, by role (R161, log 9). -/
structure Requests where
  pace : Bool
  stations : Bool
  ticker : Bool
  clock : Bool
  banner : Bool
  deriving DecidableEq, Repr

/-- The Composition Engine (c10). -/
structure Engine where
  regions : Tab Region 8
  scrollOffset : Nat
  scrollCount : Nat
  flashOn : Bool
  overflow : Bool
  requests : Requests
  deriving DecidableEq, Repr

/-! ### Tile Driver and Alert Logic (c11) -/

/-- One tile's presence (R172). -/
structure TilePresence where
  absent : Bool
  miss : Nat
  deriving DecidableEq, Repr

/-- Drive levels of one pixel on the tile chain (R171). -/
structure Drive where
  r : Nat
  g : Nat
  b : Nat
  deriving DecidableEq, Repr

/-- The portion being sent (R171): its tile; the intensity, the enable and the tile's pixels taken at its
beginning, the enable lost at a RESTART TILES that disables the group; the count of pixels sent so far and the drive
levels sent last. -/
structure Portion where
  tile : Fin 30
  intensity : Nat
  lit : Bool
  pixels : Memory
  sent : Nat
  levels : Drive
  deriving DecidableEq, Repr

/-- The Tile Driver (R171 to R175). -/
structure TileDriver where
  tiles : Tab TilePresence 30
  startCount : Nat
  target : Nat
  actual : Nat
  rampCode : Nat
  asymmetric : Bool
  override : Bool
  decreaseCount : Nat
  portion : Portion
  deriving DecidableEq, Repr

/-- The alert causes, as a set or as a mask of enables (R176). -/
structure Causes where
  level3 : Bool
  overrun : Bool
  stall : Bool
  deriving DecidableEq, Repr

/-- The Alert Logic; `xalert` is the filter of XALERT (R176, R177). -/
structure AlertLogic where
  causes : Causes
  mask : Causes
  xalert : PinFilter
  deriving DecidableEq, Repr

/-- The straps as last sampled (R178). -/
structure Straps where
  adr : BitVec 3
  tst : BitVec 2
  xtal : Bool
  deriving DecidableEq, Repr

/-- The two conditions of hard reset (R178): the supply below its operating range, and RSTn LOW taken after its 10 µs;
`rstnTimed` is a LOW on RSTn whose 10 µs are running. -/
structure ResetConditions where
  supplyLow : Bool
  rstnLow : Bool
  rstnTimed : Bool
  deriving DecidableEq, Repr

/-! ### The whole part -/

/-- The state of the KD-4816 and the queue of waiting commands; `pitch` holds the filters of the six PITCH inputs (R14,
R33). -/
structure State where
  conditions : ResetConditions
  straps : Straps
  pitch : Tab PinFilter 6
  layout : Layout
  stations : Tab StationRecord 48
  tracker : Tracker
  callList : CallList
  timer : ShiftTimer
  pace : PaceUnit
  loss : Loss
  archive : Archive
  history : List HistoryRecord
  line : LinePort
  plant : PlantPort
  frame : FrameStore
  engine : Engine
  tiles : TileDriver
  alert : AlertLogic
  pending : List Instr
  deriving DecidableEq, Repr

/-- Hard reset is in force while either condition holds (R178). -/
def State.inReset (s : State) : Bool := s.conditions.supplyLow || s.conditions.rstnLow

/-- Why the part could stop. No rule of the spec stops it, so there is no reason: nothing raises a fault. -/
inductive Fault
  deriving DecidableEq, Repr

/-- Why a command could be refused by the model. -/
inductive Refusal
  /-- Raised by exec's arm of a command without a meaning, by name; safe. No arm raises it now. -/
  | notModelled (mnemonic : String)
  deriving DecidableEq, Repr

/-- The outcome of a command or a step. -/
abbrev Result := Host.Outcome State Fault Refusal

/-! ### Values after hard reset -/

/-- No request raised. -/
def Requests.none : Requests := ⟨false, false, false, false, false⟩

/-- The black pixel (R143). -/
def Pixel.black : Pixel := ⟨0, 0, 0⟩

/-- The empty reason set. -/
def ReasonSet.empty : ReasonSet := ⟨false, false, false, false, false⟩

/-- A filter after hard reset: a PITCH input taken as LOW, XSTOP and XALERT as deasserted, and no level timed (R14, R26,
R33, R177). -/
def PinFilter.reset : PinFilter := ⟨false, false⟩

/-- A zone's tracker state after hard reset (R33), and when it comes into or goes out of service (R8, which is
silent on the stepped mark: cleared with the rest, DESIGN CHOICE, log 30). -/
def ZoneState.cleared : ZoneState :=
  { accumulator := 0, reasons := .empty, coast := 0, overrun := false, miss := 0, stepped := false, stall := false }

/-- A buffer after hard reset (R33), and when it comes into or goes out of service (R8). -/
def Buffer.cleared : Buffer := ⟨0, false, false⟩

/-- The hard-reset layout (R3). -/
def Layout.reset : Layout :=
  let zone (last : Nat) : ZoneRecord :=
    { first := 0, last := last, pitch := 32, coastAllowance := 4, stallIndex := 1, stallCheck := true, capacity := 0 }
  { used := 1
    zones := .tab fun k => zone (if k.val = 0 then 15 else 0)
    stations := .tab fun s => { flag := s.val < 16, length := 16 } }

/-- A station record after hard reset (R10, R13). -/
def StationRecord.reset : StationRecord :=
  { openCall := none, callsShift := 0, chargedLoss := 0, lastKind := none }

/-- The hard-reset policy table (R56). -/
def Policy.reset : Policy :=
  { quality := ⟨180, 420, 900⟩
    parts := ⟨120, 300, 600⟩
    equipment := ⟨300, 600, 1200⟩
    safety := ⟨10, 60, 180⟩
    help := ⟨240, 600, 0⟩
    grace := 120 }

/-- The Shift Timer after hard reset (R63, R68, R69, R72). -/
def ShiftTimer.reset : ShiftTimer :=
  { state := .noShift, number := 0, openedAt := 0, openingWc := 0, staged := none, next := none, active := none
    runClock := 0, clock := 0, wc := 0, correction := 0, pendingStart := none }

/-- The Pace Unit after hard reset (R82). -/
def PaceUnit.reset : PaceUnit :=
  { base := 0, rebaseMark := 0, actual := 0, held := 0
    figures := { rp := 0, em := 0, gm := 0, e := 0, g := 0, gap := 0, pace := none, shownActual := 0 } }

/-- A zone's cleared rows of the Loss Table (R96). -/
def ZoneLoss.zero : ZoneLoss := { reasons := ⟨0, 0, 0, 0, 0⟩, kinds := ⟨0, 0, 0, 0, 0⟩ }

/-- The Loss Table and tallies cleared, by hard reset and by each shift open (R96, R103). -/
def Loss.zero : Loss :=
  { zones := .tab fun _ => .zero, lineLost := 0, opened := 0, closed := 0, longestHold := 0 }

/-- No transaction on the two wires, SDA released (R122, R178). -/
def LineClock.stopped : LineClock := ⟨.stopped, [], [], 0, true⟩

/-- Nothing clocked yet: SCK LOW, and MISO at the first bit of a command byte's 0xFF (R132). -/
def PlantClock.start : PlantClock := ⟨false, [], [], 0, true⟩

/-- The Line Port after hard reset (section 8.8). -/
def LinePort.reset : LinePort :=
  { phase := .idle, answer := .unanswered, byteAnswers := [], queue := [], lastResult := .ok
    link := ⟨.never, 0, some 2⟩, broadcastEnable := true, broadcastMissed := false
    clock := .stopped }

/-- The Plant Port after hard reset (section 8.8). -/
def PlantPort.reset : PlantPort :=
  { transaction := .waiting, lastResult := .ok, link := ⟨.never, 0, some 15⟩, collision := false
    historyCursor := none, clock := .start }

/-- The Frame Store after hard reset (R155). -/
def FrameStore.reset : FrameStore :=
  { pixels := [], window := ⟨0, 0, 159, 47⟩, cursor := ⟨0, 0⟩, mark := ⟨0, 0⟩
    control := ⟨false, false, false, true⟩, colourMode := .c12, mask := ⟨false, false, false⟩ }

/-- An entry of the hard-reset Layout Table (R156). -/
def Region.initial (role : Role) (rect : Rect) (enabled : Bool) : Region :=
  { role := role, rect := rect, enabled := enabled, headerRows := 0, scrollInterval := 4, render := .idle }

/-- The hard-reset Layout Table (R156). -/
def resetRegions : Tab Region 8 :=
  #v[.initial .banner ⟨0, 0, 159, 7⟩ true, .initial .pace ⟨0, 8, 159, 23⟩ true,
     .initial .stations ⟨0, 24, 159, 31⟩ true, .initial .ticker ⟨0, 32, 119, 47⟩ true,
     .initial .clock ⟨120, 32, 159, 47⟩ true, .initial .message ⟨0, 0, 0, 0⟩ false,
     .initial .message ⟨0, 0, 0, 0⟩ false, .initial .message ⟨0, 0, 0, 0⟩ false]

/-- The Composition Engine in hard reset (R156, R159, R162, R165, R167). -/
def Engine.reset : Engine :=
  { regions := resetRegions, scrollOffset := 0, scrollCount := 0, flashOn := true, overflow := false
    requests := .none }

/-- The portion the chain begins with: tile 0, nothing sent. -/
def Portion.initial (lit : Bool) : Portion :=
  { tile := 0, intensity := 0, lit := lit, pixels := [], sent := 0, levels := ⟨0, 0, 0⟩ }

/-- The Tile Driver in hard reset (R172 to R175). -/
def TileDriver.reset : TileDriver :=
  { tiles := .tab fun _ => ⟨false, 0⟩, startCount := 0, target := 32, actual := 0, rampCode := 2
    asymmetric := false, override := true, decreaseCount := 0, portion := .initial false }

/-- The Alert Logic after hard reset (R176, R177). -/
def AlertLogic.reset : AlertLogic :=
  { causes := ⟨false, false, false⟩, mask := ⟨true, true, false⟩, xalert := .reset }

/-- Every item at its hard-reset value (R178), `conditions`, `straps` and `pending` as given. -/
def State.held (conditions : ResetConditions) (straps : Straps) (pending : List Instr) : State :=
  { conditions := conditions
    straps := straps
    pitch := .tab fun _ => .reset
    layout := .reset
    stations := .tab fun _ => .reset
    tracker := { zones := .tab fun _ => .cleared, buffers := .tab fun _ => .cleared, xstop := .reset }
    callList := { calls := [], allocator := 1, policy := .reset }
    timer := .reset
    pace := .reset
    loss := .zero
    archive := { slots := .tab fun _ => .empty, newest := none }
    history := []
    line := .reset
    plant := .reset
    frame := .reset
    engine := .reset
    tiles := .reset
    alert := .reset
    pending := pending }

/-- The Layout Table right after the end of hard reset: the five engine regions have each begun a pass
over the black frame (R159), with what each shows in the hard-reset state (R164 to R170). -/
def startedRegions : Tab Region 8 :=
  let busy (r : Region) (c : Capture) : Region := { r with render := .busy c 0 false }
  #v[busy (.initial .banner ⟨0, 0, 159, 7⟩ true) (.banner (some .lineLink) true),
     busy (.initial .pace ⟨0, 8, 159, 23⟩ true) (.pace 0 0 0 0 none 0),
     busy (.initial .stations ⟨0, 24, 159, 31⟩ true) (.stations (List.replicate 16 ⟨.white, false⟩) true),
     busy (.initial .ticker ⟨0, 32, 119, 47⟩ true) (.ticker 0 0 [] 0),
     busy (.initial .clock ⟨120, 32, 159, 47⟩ true) (.clock none),
     .initial .message ⟨0, 0, 0, 0⟩ false, .initial .message ⟨0, 0, 0, 0⟩ false,
     .initial .message ⟨0, 0, 0, 0⟩ false]

/-- The machine right after reset: hard reset has ended with every strap sampled LOW (DESIGN CHOICE,
unsafe: log 2), so ADR and XTAL are 0, and TST 0 makes the start interval 0 ms and enables every tile
group at once (R173). -/
def State.reset : State :=
  { State.held ⟨false, false, false⟩ ⟨0, 0, false⟩ [] with
    engine := { Engine.reset with regions := startedRegions }
    tiles := { TileDriver.reset with startCount := 10, portion := .initial true } }

end Sys2Proof.Machine
end

