-- ==== Sys2Proof/Machine/Ops.lean ====
section
/-! DEFINITION. The named operations the meanings share: the layout's derivations, the pixels of the Frame
Store as memory, render requests, and the updates of one record of a block. -/

namespace Sys2Proof.Machine

/-! ### The line layout (R1, R2) -/

/-- Zone `k` is used (R1). -/
def Layout.zoneUsed (l : Layout) (k : Fin 6) : Bool := k.val < l.used

/-- Buffer `k`, between zones k and k+1, is used while k < Z−1 (R1). -/
def Layout.bufferUsed (l : Layout) (k : Fin 5) : Bool := k.val + 1 < l.used

/-- The zone a buffer takes its cars from. -/
def upstreamZone (k : Fin 5) : Fin 6 := k.castSucc

/-- The zone a buffer gives its cars to. -/
def downstreamZone (k : Fin 5) : Fin 6 := k.succ

/-- The capacity of buffer `k`, kept in zone record `k` (R1). -/
def Layout.capacity (l : Layout) (k : Fin 5) : Nat := (l.zones.at_ (upstreamZone k)).capacity

/-- Station `s` lies in the range of used zone `k` (R2). -/
def Layout.zoneHolds (l : Layout) (s : Fin 48) (k : Fin 6) : Bool :=
  l.zoneUsed k && (l.zones.at_ k).first ≤ s.val && s.val ≤ (l.zones.at_ k).last

/-- The zone a station belongs to (R2). -/
def Layout.stationZone (l : Layout) (s : Fin 48) : Option (Fin 6) :=
  (List.finRange 6).find? (l.zoneHolds s)

/-- A station is enabled while its flag is on and it belongs to a zone (R2). -/
def Layout.enabled (l : Layout) (s : Fin 48) : Bool := (l.stations.at_ s).flag && (l.stationZone s).isSome

/-- The enabled stations, ascending. -/
def Layout.enabledStations (l : Layout) : List (Fin 48) := (List.finRange 48).filter l.enabled

/-- The number a byte or field names, where it is below `n`. -/
def index (n v : Nat) : Option (Fin n) := if h : v < n then some ⟨v, h⟩ else none

/-! ### The shift (R68) -/

/-- A shift is open in PRODUCTION, BREAK and OVERTIME (R68). -/
def ShiftState.isOpen : ShiftState → Bool
  | .production | .inBreak | .overtime => true
  | .noShift | .closing => false

/-- The states from which an advance is productive (R76). -/
def ShiftState.isProductive : ShiftState → Bool
  | .production | .overtime => true
  | .noShift | .inBreak | .closing => false

/-- The plan fields read while no plan is active: 0 throughout (R181, READ PACE). -/
def Plan.empty : Plan := { length := 0, takt := 0, overtime := 0, breaks := [] }

/-- The active plan's fields. -/
def ShiftTimer.plan (t : ShiftTimer) : Plan := t.active.getD .empty

/-- The shift-clock second at which a break ends (R63). -/
def Break.stop (b : Break) : Nat := b.start + b.length

/-- The clock lies inside a break (R63). -/
def Plan.insideBreak (p : Plan) (c : Nat) : Bool := p.breaks.any fun b => b.start ≤ c && c < b.stop

/-- The clock is the start of a break. -/
def Plan.startsBreak (p : Plan) (c : Nat) : Bool := p.breaks.any fun b => b.start = c

/-- The clock is the end of a break. -/
def Plan.endsBreak (p : Plan) (c : Nat) : Bool := p.breaks.any fun b => b.stop = c

/-- Break seconds before second `c`: whole breaks that have ended, and the part of one `c` falls inside
(R70). -/
def Plan.breakBefore (p : Plan) (c : Nat) : Nat :=
  (p.breaks.map fun b => min b.stop c - b.start).sum

/-- Break seconds in the span from `c` up to, not including, L (R84). -/
def Plan.breakAhead (p : Plan) (c : Nat) : Nat :=
  (p.breaks.map fun b => min b.stop p.length - max b.start c).sum

/-- The shift tag: the shift's number while a shift is open, else 0 (R37). -/
def State.shiftTag (s : State) : Nat := if s.timer.state.isOpen then s.timer.number else 0

/-! ### The Call List -/

/-- The open call at a station (R35). -/
def CallList.atStation (c : CallList) (st : Fin 48) : Option Call := c.calls.find? fun x => x.station = st

/-- The open call with a number. -/
def CallList.numbered (c : CallList) (n : Nat) : Option Call := c.calls.find? fun x => x.number = n

/-- The list with every call of number `n` changed by `f`. -/
def CallList.update (c : CallList) (n : Nat) (f : Call → Call) : CallList :=
  { c with calls := c.calls.map fun x => if x.number = n then f x else x }

/-- The count of open calls in HOLD (R35). -/
def CallList.holdCount (c : CallList) : Nat := (c.calls.filter fun x => x.phase = .hold).length

/-! ### Pixels as memory (R143) -/

/-- The address of a pixel position. -/
def pixelAddress (x y : Nat) : Nat := 160 * y + x

/-- The pixel at an address; an unlisted address reads black. -/
def Memory.read (m : Memory) (a : Nat) : Pixel :=
  match m with
  | [] => .black
  | (b, p) :: rest => if a = b then p else Memory.read rest a

/-- One pixel written, keeping the canonical form. -/
def Memory.write (m : Memory) (a : Nat) (p : Pixel) : Memory :=
  match m with
  | [] => if p = .black then [] else [(a, p)]
  | (b, q) :: rest =>
    if a < b then (if p = .black then (b, q) :: rest else (a, p) :: (b, q) :: rest)
    else if a = b then (if p = .black then rest else (a, p) :: rest)
    else (b, q) :: Memory.write rest a p

/-- Addresses from `lo` on, strictly rising, inside the frame, no black pixel listed. -/
def Memory.wfFrom (lo : Nat) : Memory → Bool
  | [] => true
  | (a, p) :: rest => lo ≤ a && a < 7680 && p ≠ .black && Memory.wfFrom (a + 1) rest

/-- The canonical form of the pixels. -/
def Memory.wf (m : Memory) : Bool := Memory.wfFrom 0 m

/-- The pixels with every address chosen by `f` set to black. -/
def Memory.blacken (m : Memory) (f : Nat → Bool) : Memory := m.filter fun c => !f c.1

/-- A position lies inside a rectangle. -/
def Rect.holds (r : Rect) (x y : Nat) : Bool := r.x0 ≤ x && x ≤ r.x1 && r.y0 ≤ y && y ≤ r.y1

/-- An address lies inside a rectangle. -/
def Rect.holdsAddress (r : Rect) (a : Nat) : Bool := r.holds (a % 160) (a / 160)

def Rect.width (r : Rect) : Nat := r.x1 + 1 - r.x0
def Rect.height (r : Rect) : Nat := r.y1 + 1 - r.y0

/-- Two rectangles share a pixel (R157). -/
def Rect.meets (r q : Rect) : Bool := r.x0 ≤ q.x1 && q.x0 ≤ r.x1 && r.y0 ≤ q.y1 && q.y0 ≤ r.y1

/-- Four coordinates clamped to the frame with each pair ordered (R145, R157). -/
def Rect.ofCorners (x0 y0 x1 y1 : Nat) : Rect :=
  let a := min x0 159; let b := min x1 159; let c := min y0 47; let d := min y1 47
  { x0 := min a b, y0 := min c d, x1 := max a b, y1 := max c d }

/-! ### Regions (R156, R159) -/

/-- The five engine roles (R156). -/
def Role.isEngine : Role → Bool
  | .message => false
  | .pace | .stations | .ticker | .clock | .banner => true

/-- A region in force with an engine role owns its pixels for the engine (R144). -/
def Region.owns (r : Region) : Bool := r.enabled && r.role.isEngine

/-- A pixel position is engine-owned (R144). -/
def Engine.ownsPixel (e : Engine) (x y : Nat) : Bool :=
  (List.finRange 8).any fun i => (e.regions.at_ i).owns && (e.regions.at_ i).rect.holds x y

/-- The region in force with a role. -/
def Engine.inForce (e : Engine) (role : Role) : Option Region :=
  ((List.finRange 8).map e.regions.at_).find? fun r => r.enabled && r.role = role

/-- A request is latched for a role. -/
def Requests.has (q : Requests) : Role → Bool
  | .pace => q.pace
  | .stations => q.stations
  | .ticker => q.ticker
  | .clock => q.clock
  | .banner => q.banner
  | .message => false

/-- The requests with one more role. -/
def Requests.add (q : Requests) : Role → Requests
  | .pace => { q with pace := true }
  | .stations => { q with stations := true }
  | .ticker => { q with ticker := true }
  | .clock => { q with clock := true }
  | .banner => { q with banner := true }
  | .message => q

/-- A render request addressed to a role, raised within the event being taken (R161, log 9). -/
def State.raise (role : Role) (s : State) : State :=
  { s with engine := { s.engine with requests := s.engine.requests.add role } }

/-- A render request raised where a condition holds. -/
def State.raiseIf (b : Bool) (role : Role) (s : State) : State := if b then s.raise role else s

/-! ### Input filters (R14, R26, R177) -/

/-- The input at a level: one other than the level taken is timed, from its beginning. -/
def PinFilter.given (level : Bool) (f : PinFilter) : PinFilter := { f with timing := level != f.taken }

/-- The 20 µs met: the level that is timed is taken. -/
def PinFilter.settled (f : PinFilter) : PinFilter := if f.timing then ⟨!f.taken, false⟩ else f

/-- The filter of an input asserted at `active`, given a moment: a shorter excursion leaves the level taken. -/
def PinFilter.afterLevel (active : Bool) (m : LevelMoment) (f : PinFilter) : PinFilter :=
  match m with
  | .taken high => ⟨high == active, false⟩
  | .level high => f.given (high == active)
  | .held => f.settled

/-! ### One record of a block -/

/-- One zone's tracker state changed. -/
def State.onZone (k : Fin 6) (f : ZoneState → ZoneState) (s : State) : State :=
  { s with tracker := { s.tracker with zones := s.tracker.zones.upd k f } }

/-- One buffer changed. -/
def State.onBuffer (k : Fin 5) (f : Buffer → Buffer) (s : State) : State :=
  { s with tracker := { s.tracker with buffers := s.tracker.buffers.upd k f } }

/-- One PITCH filter changed. -/
def State.onPitch (k : Fin 6) (f : PinFilter → PinFilter) (s : State) : State :=
  { s with pitch := s.pitch.upd k f }

/-- One station record changed. -/
def State.onStation (st : Fin 48) (f : StationRecord → StationRecord) (s : State) : State :=
  { s with stations := s.stations.upd st f }

/-- The Call List changed. -/
def State.onCalls (f : CallList → CallList) (s : State) : State := { s with callList := f s.callList }

/-- The Shift Timer changed. -/
def State.onTimer (f : ShiftTimer → ShiftTimer) (s : State) : State := { s with timer := f s.timer }

/-- The Pace Unit changed. -/
def State.onPace (f : PaceUnit → PaceUnit) (s : State) : State := { s with pace := f s.pace }

/-- Loss Accounting changed. -/
def State.onLoss (f : Loss → Loss) (s : State) : State := { s with loss := f s.loss }

/-- The Archive changed. -/
def State.onArchive (f : Archive → Archive) (s : State) : State := { s with archive := f s.archive }

/-- The Line Port changed. -/
def State.onLine (f : LinePort → LinePort) (s : State) : State := { s with line := f s.line }

/-- The Plant Port changed. -/
def State.onPlant (f : PlantPort → PlantPort) (s : State) : State := { s with plant := f s.plant }

/-- The Frame Store changed. -/
def State.onFrame (f : FrameStore → FrameStore) (s : State) : State := { s with frame := f s.frame }

/-- The Composition Engine changed. -/
def State.onEngine (f : Engine → Engine) (s : State) : State := { s with engine := f s.engine }

/-- The Tile Driver changed. -/
def State.onTiles (f : TileDriver → TileDriver) (s : State) : State := { s with tiles := f s.tiles }

/-- The Alert Logic changed. -/
def State.onAlert (f : AlertLogic → AlertLogic) (s : State) : State := { s with alert := f s.alert }

end Sys2Proof.Machine
end

