-- ==== Sys2Proof/Machine/Flags.lean ====
section
/-! DEFINITION. Everything the part decides anew from its state: the stop-reason sets, ZSTOP, stall
qualification, the alert causes, ALERT, the effective intensity target and the status flags. -/

namespace Sys2Proof.Machine

/-! ### Stop-reason sets (R21 to R25) -/

/-- No reason in the set. -/
def ReasonSet.isEmpty (r : ReasonSet) : Bool := !(r.hold || r.plan || r.xstop || r.blocked || r.starved)

/-- A base reason is in the set (section 2.4). -/
def ReasonSet.hasBase (r : ReasonSet) : Bool := r.hold || r.plan || r.xstop

/-- The stop request of a zone: asserted exactly while its set is non-empty (R25). -/
def State.zstop (s : State) (k : Fin 6) : Bool := !(s.tracker.zones.at_ k).reasons.isEmpty

/-- An open call of the zone is in HOLD (R21). -/
def State.zoneHeld (s : State) (k : Fin 6) : Bool :=
  s.callList.calls.any fun c => c.zone = k && c.phase = .hold

/-- The base reasons of a zone, none for an unused zone (R21). -/
def State.baseReasons (s : State) (k : Fin 6) : ReasonSet :=
  if s.layout.zoneUsed k then
    { hold := s.zoneHeld k, plan := s.timer.state = .inBreak, xstop := s.tracker.xstop.taken
      blocked := false, starved := false }
  else .empty

/-- Used buffer `k` is at its capacity (R22). -/
def State.bufferFull (s : State) (k : Fin 5) : Bool :=
  s.layout.bufferUsed k && s.layout.capacity k ≤ (s.tracker.buffers.at_ k).count

/-- Used buffer `k` is at 0 (R22). -/
def State.bufferEmpty (s : State) (k : Fin 5) : Bool :=
  s.layout.bufferUsed k && (s.tracker.buffers.at_ k).count = 0

/-- A base reason is in zone `k`'s set, by number. -/
def State.baseAt (s : State) (k : Nat) : Bool :=
  match index 6 k with
  | some z => (s.baseReasons z).hasBase
  | none => false

/-- Buffer `k` is full, by number. -/
def State.fullAt (s : State) (k : Nat) : Bool :=
  match index 5 k with
  | some b => s.bufferFull b
  | none => false

/-- Buffer `k` is empty, by number. -/
def State.emptyAt (s : State) (k : Nat) : Bool :=
  match index 5 k with
  | some b => s.bufferEmpty b
  | none => false

/-- The BLOCKED pass, from the last zone down (R22): BLOCKED of the zone `above` places below zone 5,
decided from the buffer ahead of it and from what the zone beyond holds other than STARVED. -/
def State.blockedPass (s : State) : (above : Nat) → Bool
  | 0 => false
  | n + 1 => s.fullAt (4 - n) && (s.baseAt (5 - n) || s.blockedPass n)

/-- The STARVED pass, from zone 1 up (R22): STARVED of zone `k`, decided from the buffer behind it and from
what the zone before holds other than BLOCKED. -/
def State.starvedPass (s : State) : (k : Nat) → Bool
  | 0 => false
  | k + 1 => s.emptyAt k && (s.baseAt k || s.starvedPass k)

/-- The derived set of a zone, after the three passes (R22). -/
def State.derivedReasons (s : State) (k : Fin 6) : ReasonSet :=
  { s.baseReasons k with blocked := s.blockedPass (5 - k.val), starved := s.starvedPass k.val }

/-- Every stored set is the derived one (R22). -/
def State.setsDerived (s : State) : Bool :=
  (List.finRange 6).all fun k => (s.tracker.zones.at_ k).reasons = s.derivedReasons k

/-! ### Stall qualification (R29) -/

/-- Zone `k` qualifies for stall checking (R29). -/
def State.qualifies (s : State) (k : Fin 6) : Bool :=
  s.layout.zoneUsed k && (s.layout.zones.at_ k).stallCheck && !s.zstop k && s.timer.state.isProductive

/-! ### Alert and intensity (R174, R176) -/

/-- The causes present (R176). -/
def State.presentCauses (s : State) : Causes :=
  { level3 := s.callList.calls.any fun c => 3 ≤ c.level
    overrun := (List.finRange 6).any fun k => s.layout.zoneUsed k && (s.tracker.zones.at_ k).overrun
    stall := (List.finRange 6).any fun k => s.layout.zoneUsed k && (s.tracker.zones.at_ k).stall }

/-- ALERT is asserted while an enabled cause is in the cause set (R176). -/
def AlertLogic.asserted (a : AlertLogic) : Bool :=
  (a.causes.level3 && a.mask.level3) || (a.causes.overrun && a.mask.overrun) || (a.causes.stall && a.mask.stall)

/-- The effective intensity target (R174). -/
def State.effectiveTarget (s : State) : Nat :=
  if s.tiles.override && s.alert.asserted then 63 else s.tiles.target

/-! ### Status flags -/

/-- At least one tile is ABSENT (R172). -/
def TileDriver.fault (t : TileDriver) : Bool := (List.finRange 30).any fun i => (t.tiles.at_ i).absent

/-- The group of a tile is enabled (R171, R173). -/
def TileDriver.tileEnabled (t : TileDriver) (i : Fin 30) : Bool := i.val / 3 < t.startCount

/-- The free slots of the Line Intake Queue (R126). -/
def LinePort.freeSlots (l : LinePort) : Nat := Config.queueDepth - l.queue.length

/-- The board's own Line Port address (R123). -/
def State.ownAddress (s : State) : Nat := Config.lineBase + s.straps.adr.toNat

/-- Lost cars of some lost seconds at the active takt, 0 with no active plan (R102). -/
def State.lostCars (s : State) (seconds : Nat) : Nat :=
  match s.timer.active with
  | some p => seconds * 10 / p.takt
  | none => 0

/-- Line lost cars (R102). -/
def State.lineLostCars (s : State) : Nat := s.lostCars s.loss.lineLost

end Sys2Proof.Machine
end

