-- ==== Sys2Proof/Machine/Capture.lean ====
section
/-! DEFINITION. What a render pass captures at its start, role by role (R160, R164 to R170). -/

namespace Sys2Proof.Machine

/-- The line link is not UP (R131). -/
def State.lineDown (s : State) : Bool := s.line.link.state ≠ .up

/-- The lamp of an enabled station: the first row of R164's table that applies. -/
def State.lamp (s : State) (st : Fin 48) : Lamp :=
  if s.lineDown then ⟨.white, false⟩
  else
    match s.callList.atStation st with
    | some c => ⟨if c.phase = .hold then .red else .yellow, 2 ≤ c.level⟩
    | none =>
      match s.layout.stationZone st with
      | some k =>
        let z := s.tracker.zones.at_ k
        if z.stall then ⟨.magenta, true⟩
        else if z.reasons.plan then ⟨.dimWhite, false⟩
        else if !z.reasons.isEmpty then ⟨.blue, false⟩
        else ⟨.green, false⟩
      | none => ⟨.green, false⟩

/-- The lamps of the enabled stations, ascending (R164, R165). -/
def State.lamps (s : State) : List Lamp := s.layout.enabledStations.map s.lamp

/-- The elapsed minutes of a call, capped at 99 (R166). -/
def Call.elapsedMinutes (c : Call) (runClock : Nat) : Nat := min 99 ((runClock - c.openedAt) / 60)

/-- A call's line in the ticker (R166). -/
def State.tickerLine (s : State) (c : Call) : TickerLine :=
  { station := c.station.val
    kinds := c.kinds
    minutes := c.elapsedMinutes s.timer.runClock
    level := c.level
    colour := if s.lineDown then .white else if c.phase = .hold then .red else .yellow }

/-- The calls in ticker order: those in HOLD, then those in WARN, each in list order (R166). -/
def CallList.tickerOrder (c : CallList) : List Call :=
  (c.calls.filter fun x => x.phase = .hold) ++ (c.calls.filter fun x => x.phase = .warn)

/-- The first banner message whose condition holds (R170). -/
def State.bannerMessage (s : State) : Option BannerMessage :=
  if s.tracker.xstop.taken then some .safetyStop
  else if s.lineDown then some .lineLink
  else if s.alert.xalert.taken then some .stopElsewhere
  else if s.plant.link.state = .lost then some .plantLink
  else if s.timer.state = .inBreak then some .inBreak
  else if s.timer.state = .overtime then some .overtime
  else none

/-- The displayed gap: the exact gap clamped to −999..+999 (R89). -/
def displayedGap (gap : Int) : Int := max (-999) (min 999 gap)

/-- What a pass of a role captures (R160); the engine draws nothing for MESSAGE. -/
def State.captureFor (s : State) : Role → Option Capture
  | .pace =>
    let f := s.pace.figures
    some (.pace f.g f.e s.pace.actual (displayedGap f.gap) f.pace s.lineLostCars)
  | .stations => some (.stations s.lamps s.engine.flashOn)
  | .ticker =>
    some (.ticker s.callList.calls.length s.callList.holdCount (s.callList.tickerOrder.map s.tickerLine)
      s.engine.scrollOffset)
  | .clock => some (.clock (if s.timer.state = .noShift then none else some s.timer.clock))
  | .banner => some (.banner s.bannerMessage s.engine.flashOn)
  | .message => none

/-- The render state of a region whose pass starts now (R160). -/
def State.startedPass (s : State) (r : Region) : Render :=
  match s.captureFor r.role with
  | some c => .busy c 0 false
  | none => .idle

/-! ### Cells and lines a region has room for (R165, R166) -/

/-- The lamp cell width: w div n, raised to 2 (R165). -/
def cellWidth (w n : Nat) : Nat := max 2 (w / n)

/-- The lamps a STATIONS region of width `w` draws of `n` (R165). -/
def lampsDrawn (w n : Nat) : Nat := min n (w / cellWidth w n)

/-- The header lines in effect: the entry's header rows, reduced to the region's lines (R166). -/
def Region.headerLines (r : Region) : Nat := min r.headerRows (r.rect.height / 8)

/-- The scrolling lines of a TICKER region (R166). -/
def Region.scrollLines (r : Region) : Nat := r.rect.height / 8 - r.headerLines

end Sys2Proof.Machine
end

