-- ==== Sys2Proof/Machine/Picture.lean ====
section
/-! DEFINITION. Drawing: the font, the colours and the picture of each role, pixel by pixel, from what the
pass captured (R163, R165, R166, R168 to R170). -/

namespace Sys2Proof.Machine

/-- The glyph set (R163). -/
inductive Glyph
  | d0 | d1 | d2 | d3 | d4 | d5 | d6 | d7 | d8 | d9
  | gA | gB | gC | gD | gE | gF | gG | gH | gI | gJ | gK | gL | gM
  | gN | gO | gP | gQ | gR | gS | gT | gU | gV | gW | gX | gY | gZ
  | space | minus | plus | colon | percent
  deriving DecidableEq, Repr

/-- The seven rows of a glyph from the top; bit 4 is the leftmost column (R163). -/
def Glyph.rows : Glyph → List Nat
  | .d0 => [0x0E, 0x11, 0x13, 0x15, 0x19, 0x11, 0x0E]
  | .d1 => [0x04, 0x0C, 0x04, 0x04, 0x04, 0x04, 0x0E]
  | .d2 => [0x0E, 0x11, 0x01, 0x02, 0x04, 0x08, 0x1F]
  | .d3 => [0x1F, 0x02, 0x04, 0x02, 0x01, 0x11, 0x0E]
  | .d4 => [0x02, 0x06, 0x0A, 0x12, 0x1F, 0x02, 0x02]
  | .d5 => [0x1F, 0x10, 0x1E, 0x01, 0x01, 0x11, 0x0E]
  | .d6 => [0x06, 0x08, 0x10, 0x1E, 0x11, 0x11, 0x0E]
  | .d7 => [0x1F, 0x01, 0x02, 0x04, 0x08, 0x08, 0x08]
  | .d8 => [0x0E, 0x11, 0x11, 0x0E, 0x11, 0x11, 0x0E]
  | .d9 => [0x0E, 0x11, 0x11, 0x0F, 0x01, 0x02, 0x0C]
  | .gA => [0x0E, 0x11, 0x11, 0x11, 0x1F, 0x11, 0x11]
  | .gB => [0x1E, 0x11, 0x11, 0x1E, 0x11, 0x11, 0x1E]
  | .gC => [0x0E, 0x11, 0x10, 0x10, 0x10, 0x11, 0x0E]
  | .gD => [0x1C, 0x12, 0x11, 0x11, 0x11, 0x12, 0x1C]
  | .gE => [0x1F, 0x10, 0x10, 0x1E, 0x10, 0x10, 0x1F]
  | .gF => [0x1F, 0x10, 0x10, 0x1E, 0x10, 0x10, 0x10]
  | .gG => [0x0E, 0x11, 0x10, 0x17, 0x11, 0x11, 0x0F]
  | .gH => [0x11, 0x11, 0x11, 0x1F, 0x11, 0x11, 0x11]
  | .gI => [0x0E, 0x04, 0x04, 0x04, 0x04, 0x04, 0x0E]
  | .gJ => [0x07, 0x02, 0x02, 0x02, 0x02, 0x12, 0x0C]
  | .gK => [0x11, 0x12, 0x14, 0x18, 0x14, 0x12, 0x11]
  | .gL => [0x10, 0x10, 0x10, 0x10, 0x10, 0x10, 0x1F]
  | .gM => [0x11, 0x1B, 0x15, 0x15, 0x11, 0x11, 0x11]
  | .gN => [0x11, 0x11, 0x19, 0x15, 0x13, 0x11, 0x11]
  | .gO => [0x0E, 0x11, 0x11, 0x11, 0x11, 0x11, 0x0E]
  | .gP => [0x1E, 0x11, 0x11, 0x1E, 0x10, 0x10, 0x10]
  | .gQ => [0x0E, 0x11, 0x11, 0x11, 0x15, 0x12, 0x0D]
  | .gR => [0x1E, 0x11, 0x11, 0x1E, 0x14, 0x12, 0x11]
  | .gS => [0x0F, 0x10, 0x10, 0x0E, 0x01, 0x01, 0x1E]
  | .gT => [0x1F, 0x04, 0x04, 0x04, 0x04, 0x04, 0x04]
  | .gU => [0x11, 0x11, 0x11, 0x11, 0x11, 0x11, 0x0E]
  | .gV => [0x11, 0x11, 0x11, 0x11, 0x11, 0x0A, 0x04]
  | .gW => [0x11, 0x11, 0x11, 0x15, 0x15, 0x15, 0x0A]
  | .gX => [0x11, 0x11, 0x0A, 0x04, 0x0A, 0x11, 0x11]
  | .gY => [0x11, 0x11, 0x11, 0x0A, 0x04, 0x04, 0x04]
  | .gZ => [0x1F, 0x01, 0x02, 0x04, 0x08, 0x10, 0x1F]
  | .space => [0x00, 0x00, 0x00, 0x00, 0x00, 0x00, 0x00]
  | .minus => [0x00, 0x00, 0x00, 0x1F, 0x00, 0x00, 0x00]
  | .plus => [0x00, 0x04, 0x04, 0x1F, 0x04, 0x04, 0x00]
  | .colon => [0x00, 0x0C, 0x0C, 0x00, 0x0C, 0x0C, 0x00]
  | .percent => [0x18, 0x19, 0x02, 0x04, 0x08, 0x13, 0x03]

/-- A bit of a glyph: row from the top, column from the left (R163). -/
def Glyph.bit (g : Glyph) (row col : Nat) : Bool := (g.rows.getD row 0).testBit (4 - col)

/-- The engine's colours (R163). -/
def Colour.pixel : Colour → Pixel
  | .black => ⟨0, 0, 0⟩
  | .white => ⟨15, 15, 15⟩
  | .dimWhite => ⟨4, 4, 4⟩
  | .red => ⟨15, 0, 0⟩
  | .yellow => ⟨15, 12, 0⟩
  | .magenta => ⟨15, 0, 15⟩
  | .blue => ⟨0, 4, 15⟩
  | .green => ⟨0, 15, 0⟩

/-! ### Figures as text -/

/-- A decimal digit. -/
def digitGlyph : Nat → Glyph
  | 0 => .d0
  | 1 => .d1
  | 2 => .d2
  | 3 => .d3
  | 4 => .d4
  | 5 => .d5
  | 6 => .d6
  | 7 => .d7
  | 8 => .d8
  | _ => .d9

/-- Decimal digits put before `tail`, at most `fuel` of them. -/
def decimalOnto (fuel n : Nat) (tail : List Glyph) : List Glyph :=
  match fuel with
  | 0 => tail
  | f + 1 => if n < 10 then digitGlyph n :: tail else decimalOnto f (n / 10) (digitGlyph (n % 10) :: tail)

/-- A figure in decimal without leading zeros; no figure of the board has more than ten digits. -/
def decimal (n : Nat) : List Glyph := decimalOnto 10 n []

/-- Two digits (R166, R169). -/
def twoDigits (n : Nat) : List Glyph := [digitGlyph (n / 10 % 10), digitGlyph (n % 10)]

/-- The letter of a call kind (R166). -/
def Kind.letter : Kind → Glyph
  | .quality => .gQ
  | .parts => .gP
  | .equipment => .gE
  | .safety => .gS
  | .help => .gH

/-! ### Text lines -/

/-- A text line in a region: its top row and first column, from the region's corner, and its characters. -/
structure TextLine where
  top : Nat
  left : Nat
  cells : List (Glyph × Colour)

/-- A text in one colour. -/
def inColour (c : Colour) (t : List Glyph) : List (Glyph × Colour) := t.map fun g => (g, c)

/-- The lit pixel of one text line at column `x`, row `y` of a region `w` by `h`, where there is one: the
line fits wholly in the rows and the character wholly in the columns, 5 columns of 6 (R163). -/
def TextLine.pixel (t : TextLine) (w h x y : Nat) : Option Pixel :=
  if t.top + 8 ≤ h ∧ t.top ≤ y ∧ y < t.top + 7 ∧ t.left ≤ x then
    let j := (x - t.left) / 6
    let col := (x - t.left) % 6
    if col < 5 ∧ t.left + 6 * j + 5 ≤ w then
      match t.cells[j]? with
      | some (g, c) => if g.bit (y - t.top) col then some c.pixel else none
      | none => none
    else none
  else none

/-- The pixel of a picture of text lines over black (R163). -/
def textPixel (ls : List TextLine) (w h x y : Nat) : Pixel :=
  (ls.findSome? fun t => t.pixel w h x y).getD .black

/-! ### The pictures -/

/-- The displayed gap with its sign (R168). -/
def gapText (gap : Int) : List Glyph :=
  if gap < 0 then .minus :: decimal gap.natAbs
  else if 0 < gap then .plus :: decimal gap.natAbs
  else decimal 0

/-- The two lines of the PACE region (R168). -/
def paceLines (target expected actual : Nat) (gap : Int) (pace : Option Nat) (lostCars : Nat) : List TextLine :=
  let white := inColour .white
  let paceText : List Glyph :=
    match pace with
    | some p => [.gP, .gA, .gC, .gE, .space] ++ decimal p ++ [.percent]
    | none => [.gP, .gA, .gC, .gE]
  [ { top := 0, left := 0
      cells := white ([.gG, .space] ++ decimal target ++ [.space, .gE, .space] ++ decimal expected
        ++ [.space, .gA, .space] ++ decimal actual) },
    { top := 8, left := 0
      cells := white [.gG, .gA, .gP, .space] ++ inColour (if gap < 0 then .red else .green) (gapText gap)
        ++ white ([.space] ++ paceText ++ [.space, .gL, .gO, .gS, .gT, .space] ++ decimal lostCars) } ]

/-- A call's line: station, kind letters, elapsed minutes, level (R166). -/
def TickerLine.text (t : TickerLine) : List Glyph :=
  twoDigits t.station ++ [.space] ++ t.kinds.map Kind.letter ++ [.space] ++ twoDigits t.minutes
    ++ [.space, .gL, digitGlyph t.level]

/-- Text lines one under another from line `n` on. -/
def stackLines (n : Nat) : List (List (Glyph × Colour)) → List TextLine
  | [] => []
  | t :: rest => { top := 8 * n, left := 0, cells := t } :: stackLines (n + 1) rest

/-- The header lines of the ticker (R166). -/
def headerTexts (openCount holdCount : Nat) : List (List (Glyph × Colour)) :=
  [ inColour .white ([.gC, .gA, .gL, .gL, .gS, .space] ++ decimal openCount),
    inColour .white ([.gH, .gO, .gL, .gD, .space] ++ decimal holdCount) ]

/-- The lines of the TICKER region: headers, then the ordered calls from the scroll offset (R166). -/
def Region.tickerLines (r : Region) (openCount holdCount : Nat) (lines : List TickerLine) (offset : Nat) :
    List TextLine :=
  stackLines 0 ((headerTexts openCount holdCount).take r.headerLines
    ++ (((lines.drop offset).take r.scrollLines).map fun t => inColour t.colour t.text))

/-- The clock's characters (R169). -/
def clockText : Option Nat → List Glyph
  | none => [.minus, .minus, .colon, .minus, .minus]
  | some c => twoDigits (c / 3600) ++ [.colon] ++ twoDigits (c % 3600 / 60)

/-- A banner message's characters (R170). -/
def BannerMessage.text : BannerMessage → List Glyph
  | .safetyStop => [.gS, .gA, .gF, .gE, .gT, .gY, .space, .gS, .gT, .gO, .gP]
  | .lineLink => [.gL, .gI, .gN, .gE, .space, .gL, .gI, .gN, .gK]
  | .stopElsewhere => [.gS, .gT, .gO, .gP, .space, .gE, .gL, .gS, .gE, .gW, .gH, .gE, .gR, .gE]
  | .plantLink => [.gP, .gL, .gA, .gN, .gT, .space, .gL, .gI, .gN, .gK]
  | .inBreak => [.gB, .gR, .gE, .gA, .gK]
  | .overtime => [.gO, .gV, .gE, .gR, .gT, .gI, .gM, .gE]

/-- A banner message's colour; SAFETY STOP flashes (R162, R170). -/
def BannerMessage.colour (m : BannerMessage) (flashOn : Bool) : Colour :=
  match m with
  | .safetyStop => if flashOn then .red else .black
  | .lineLink => .white
  | .stopElsewhere => .red
  | .plantLink => .yellow
  | .inBreak => .dimWhite
  | .overtime => .blue

/-- A lamp's colour under the captured flash phase (R162). -/
def Lamp.shown (l : Lamp) (flashOn : Bool) : Colour := if l.flashing && !flashOn then .black else l.colour

/-- The pixel of the STATIONS region in column `x` (R165). -/
def lampPixel (lamps : List Lamp) (flashOn : Bool) (w x : Nat) : Pixel :=
  let c := cellWidth w lamps.length
  match lamps[x / c]? with
  | some l => if (x / c + 1) * c ≤ w ∧ ¬(3 ≤ c ∧ x % c = c - 1) then (l.shown flashOn).pixel else .black
  | none => .black

/-- The pixel a pass draws at column `x`, row `y` of its region (R163 to R170). -/
def Region.pictureAt (r : Region) (cap : Capture) (x y : Nat) : Pixel :=
  let w := r.rect.width
  let h := r.rect.height
  match cap with
  | .pace g e a gap p lost => textPixel (paceLines g e a gap p lost) w h x y
  | .stations lamps flashOn => lampPixel lamps flashOn w x
  | .ticker n held lines offset => textPixel (r.tickerLines n held lines offset) w h x y
  | .clock shown =>
    textPixel [{ top := (h - 7) / 2, left := (w - 29) / 2, cells := inColour .white (clockText shown) }] w h x y
  | .banner (some m) flashOn =>
    textPixel [{ top := 0, left := 0, cells := inColour (m.colour flashOn) m.text }] w h x y
  | .banner none _ => .black

/-! ### Writing a region (R160) -/

/-- The pixels of a region's rectangle. -/
def Region.area (r : Region) : Nat := r.rect.width * r.rect.height

/-- The address of the region's pixel number `i`, in rows from the top, each row from the left. -/
def Region.address (r : Region) (i : Nat) : Nat :=
  pixelAddress (r.rect.x0 + i % r.rect.width) (r.rect.y0 + i / r.rect.width)

/-- One pixel of the pass written (R160). -/
def Region.drawPixel (r : Region) (cap : Capture) (i : Nat) (m : Memory) : Memory :=
  m.write (r.address i) (r.pictureAt cap (i % r.rect.width) (i / r.rect.width))

/-- `n` pixels of the pass written, from number `i` on (R160). -/
def Region.drawFrom (r : Region) (cap : Capture) (i n : Nat) (m : Memory) : Memory :=
  match n with
  | 0 => m
  | k + 1 => r.drawFrom cap (i + 1) k (r.drawPixel cap i m)

/-- A STATIONS picture that could not draw every lamp (R165). -/
def Region.overflows (r : Region) : Capture → Option Bool
  | .stations lamps _ => some (lampsDrawn r.rect.width lamps.length < lamps.length)
  | .pace _ _ _ _ _ _ | .ticker _ _ _ _ | .clock _ | .banner _ _ => none

end Sys2Proof.Machine
end

