-- ==== Sys2Proof/Machine/Events.lean ====
section
/-! DEFINITION. How an event of the part is taken whole: the derivations its changes call for, the alert
decision, and the render requests it raised, served at its end (R24, R29, R68, R88, R159, R176). -/

namespace Sys2Proof.Machine

/-! ### Render requests served (R159) -/

/-- A request reaches a region: a pass starts, or a request is left pending (R159). -/
def State.requested (s : State) (r : Region) : Render :=
  match r.render with
  | .idle => s.startedPass r
  | .busy c n _ => .busy c n true

/-- The requests latched in the event are served by the regions in force, and the latch is empty again. -/
def serve (s : State) : State :=
  s.onEngine fun e =>
    { e with
      requests := .none
      regions := .tab fun i =>
        let r := e.regions.at_ i
        if r.enabled && e.requests.has r.role then { r with render := s.requested r } else r }

/-! ### Alert decision (R174 to R176) -/

/-- The cause set and ALERT decided again after an event that began in `old`. With ramp code 0 the actual
intensity takes an effective target that changed (R175). -/
def decideAlert (old s : State) : State :=
  let s := s.onAlert fun a => { a with causes := s.presentCauses }
  if s.tiles.rampCode = 0 ∧ s.effectiveTarget ≠ old.effectiveTarget then
    s.onTiles fun t => { t with actual := s.effectiveTarget }
  else s

/-! ### Stop-reason derivation and stall qualification (R24, R29) -/

/-- A zone's state under its newly derived set: a withdrawn stop request clears coast and OVERRUN (R24). -/
def ZoneState.withReasons (z : ZoneState) (r : ReasonSet) : ZoneState :=
  if r.isEmpty && !z.reasons.isEmpty then { z with reasons := r, coast := 0, overrun := false }
  else { z with reasons := r }

/-- The sets derived again; a change is handed on (R24). -/
def rederive (s : State) : State :=
  if s.setsDerived then s
  else
    ({ s with
        tracker := { s.tracker with
          zones := .tab fun k => (s.tracker.zones.at_ k).withReasons (s.derivedReasons k) } }
      |>.raise .stations |>.raise .ticker)

/-- A zone's state when its qualification is decided again (R29). -/
def ZoneState.requalified (z : ZoneState) (before now : Bool) : ZoneState :=
  match before, now with
  | true, false => { z with stall := false, miss := 0 }
  | false, true => { z with miss := 0, stepped := true }
  | true, true | false, false => z

/-- Some zone's STALL is set in `old` and clear in `s`. -/
def stallCleared (old s : State) : Bool :=
  (List.finRange 6).any fun k => (old.tracker.zones.at_ k).stall && !(s.tracker.zones.at_ k).stall

/-- Each zone's stall qualification decided again, against what it was in `old` (R29, R31). -/
def requalify (old s : State) : State :=
  let t : State :=
    { s with
      tracker := { s.tracker with
        zones := .tab fun k => (s.tracker.zones.at_ k).requalified (old.qualifies k) (s.qualifies k) } }
  t.raiseIf (stallCleared s t) .stations

/-- The Tracker's part of an event that changed an input of the sets (R24). -/
def settleTracker (old s : State) : State := requalify old (rederive s)

/-- A change of shift state handed on, as the one change between `old` and `s` (R68). -/
def handOn (old s : State) : State :=
  if s.timer.state = old.timer.state then s
  else settleTracker old ((s.raise .banner).raise .clock)

/-! ### An event taken (R178) -/

/-- An event acts unless hard reset is in force: then no input is sampled and no timebase runs (R178). -/
def running (f : State → State) (s : State) : Result := .next (if s.inReset then s else f s)

/-- A further change of the state a command leaves. -/
def onNext (f : State → State) (r : Result) : Result :=
  match r with
  | .next t => .next (f t)
  | .fault e => .fault e
  | .refused e => .refused e

/-- An event whose requests are served at its end. -/
def event (f : State → State) (s : State) : Result := running (fun s => serve (f s)) s

/-- An event that may change a source of the alert causes (R176). -/
def centreEvent (f : State → State) (s : State) : Result := event (fun s => decideAlert s (f s)) s

end Sys2Proof.Machine
end

