-- ==== Sys2Proof/Machine/Pace.lean ====
section
/-! DEFINITION. The Pace Unit: remaining productive seconds, expected, target, gap, pace, rebasing and the
actual count (c05). -/

namespace Sys2Proof.Machine

/-- Remaining productive seconds of a plan at clock `c` in PRODUCTION or BREAK (R84). -/
def Plan.remaining (p : Plan) (c : Nat) : Nat := if c < p.length then p.length - c - p.breakAhead c else 0

/-- Milli-cars of some productive seconds at takt `t` (R85). -/
def milliCars (seconds takt : Nat) : Nat := seconds * 10000 / takt

/-- The pace: A as a percentage of E, capped at 999, absent while E is 0 (R89). -/
def paceOf (actual expected : Nat) : Option Nat :=
  if expected = 0 then none else some (min 999 (actual * 100 / expected))

/-- Figures from Rp, Em and Gm and the actual count (R85, R86, R89). -/
def figuresOf (rp em gm actual : Nat) : Figures :=
  { rp := rp, em := em, gm := gm, e := em / 1000, g := gm / 1000
    gap := (actual : Int) - ((em / 1000 : Nat) : Int), pace := paceOf actual (em / 1000), shownActual := actual }

/-- A computation of the figures from the state as it stands (R84 to R89). -/
def State.computeFigures (s : State) : Figures :=
  let u := s.pace
  let p := s.timer.plan
  let since := s.timer.wc - u.rebaseMark
  if s.timer.state = .overtime then figuresOf 0 u.held u.held u.actual
  else
    let rp := p.remaining s.timer.clock
    figuresOf rp (u.base + milliCars since p.takt) (u.base + milliCars (since + rp) p.takt) u.actual

/-- Two computations show the same: E, G, A, the displayed gap and pace (R88). -/
def Figures.sameShown (a b : Figures) : Bool :=
  a.e = b.e && a.g = b.g && a.shownActual = b.shownActual && displayedGap a.gap = displayedGap b.gap
    && a.pace = b.pace

/-- The stored figures replaced by a computation, with a PACE request when a shown one changes (R88). -/
def recompute (s : State) : State :=
  (s.onPace fun u => { u with figures := s.computeFigures }).raiseIf
    (!s.pace.figures.sameShown s.computeFigures) .pace

/-- A PACE request where line lost cars changed since `old` (R161). -/
def raiseLostCars (old s : State) : State := s.raiseIf (s.lineLostCars ≠ old.lineLostCars) .pace

/-- The Pace Unit's state at a shift open, before the computation (R83). -/
def PaceUnit.opened (u : PaceUnit) (wc : Nat) : PaceUnit := { u with base := 0, rebaseMark := wc, actual := 0 }

/-- The rebase of a COMMIT NOW, with the plan that is still active (R90). -/
def rebase (s : State) : State :=
  s.onPace fun u =>
    { u with
      base := if s.timer.state = .overtime then u.held
        else u.base + milliCars (s.timer.wc - u.rebaseMark) s.timer.plan.takt
      rebaseMark := s.timer.wc }

end Sys2Proof.Machine
end

