-- ==== Sys2Proof/Machine/Loss.lean ====
section
/-! DEFINITION. Loss Accounting: the charge of a productive second (R97 to R101) and the shift call tallies
(R103). -/

namespace Sys2Proof.Machine

/-- The causes of loss, in the order of R98. -/
inductive Cause
  | xstop | hold | stall | blocked | starved
  deriving DecidableEq, Repr

/-- A second's count raised, saturating (R96). -/
def addSecond (n : Nat) : Nat := satSucc Config.secondsMax n

/-- One cause's seconds raised. -/
def ReasonSeconds.charge (r : ReasonSeconds) : Cause → ReasonSeconds
  | .xstop => { r with xstop := addSecond r.xstop }
  | .hold => { r with hold := addSecond r.hold }
  | .stall => { r with stall := addSecond r.stall }
  | .blocked => { r with blocked := addSecond r.blocked }
  | .starved => { r with starved := addSecond r.starved }

/-- One kind's seconds raised. -/
def KindSeconds.charge (r : KindSeconds) : Kind → KindSeconds
  | .quality => { r with quality := addSecond r.quality }
  | .parts => { r with parts := addSecond r.parts }
  | .equipment => { r with equipment := addSecond r.equipment }
  | .safety => { r with safety := addSecond r.safety }
  | .help => { r with help := addSecond r.help }

/-- The cause a zone's second is charged to, `none` where the zone does not lose it: the order of R98, and
at an advance that finds PLAN in the set XSTOP or HOLD alone (R99). -/
def ZoneState.lossCause (z : ZoneState) : Option Cause :=
  if z.reasons.xstop then some .xstop
  else if z.reasons.hold then some .hold
  else if z.reasons.plan then none
  else if z.stall then some .stall
  else if z.reasons.blocked then some .blocked
  else if z.reasons.starved then some .starved
  else none

/-- The cause a zone is charged to at this advance; an unused zone is not examined (R97). -/
def State.lossCause (s : State) (k : Fin 6) : Option Cause :=
  if s.layout.zoneUsed k then (s.tracker.zones.at_ k).lossCause else none

/-- The oldest open HOLD call of a zone (R100). -/
def State.oldestHold (s : State) (k : Fin 6) : Option Call :=
  s.callList.calls.find? fun c => c.zone = k && c.phase = .hold

/-- The call a zone's second is charged to, where the cause is HOLD (R100). -/
def State.chargedCall (s : State) (k : Fin 6) : Option Call :=
  if s.lossCause k = some .hold then s.oldestHold k else none

/-- A zone's rows of the Loss Table after the charge of one second (R98, R100). -/
def State.chargedZone (s : State) (k : Fin 6) : ZoneLoss :=
  let z := s.loss.zones.at_ k
  match s.lossCause k with
  | none => z
  | some c =>
    { reasons := z.reasons.charge c
      kinds :=
        match s.chargedCall k with
        | some call =>
          match call.kinds with
          | first :: _ => z.kinds.charge first
          | [] => z.kinds
        | none => z.kinds }

/-- The last used zone lost the second (R101). -/
def State.endOfLineLost (s : State) : Bool :=
  (List.finRange 6).any fun k => k.val + 1 = s.layout.used && (s.lossCause k).isSome

/-- A station is charged the second: its call is the oldest HOLD call of a zone charged to HOLD (R12). -/
def State.stationCharged (s : State) (st : Fin 48) : Bool :=
  (List.finRange 6).any fun k =>
    match s.chargedCall k with
    | some c => c.station = st
    | none => false

/-- The charge of one productive second, with the sets, STALL and calls as they stand (R97). -/
def chargeSecond (s : State) : State :=
  { s with
    loss := { s.loss with
      zones := .tab s.chargedZone
      lineLost := if s.endOfLineLost then addSecond s.loss.lineLost else s.loss.lineLost }
    stations := .tab fun st =>
      let r := s.stations.at_ st
      if s.stationCharged st then { r with chargedLoss := addSecond r.chargedLoss } else r }

/-- The tallies at a call opened with shift tag `tag` (R103). -/
def Loss.callOpened (l : Loss) (tag : Nat) : Loss :=
  if tag = 0 then l else { l with opened := satSucc Config.secondsMax l.opened }

/-- The tallies at a call closed with shift tag `tag` after `hold` seconds in HOLD (R103). -/
def Loss.callClosed (l : Loss) (tag hold : Nat) : Loss :=
  if tag = 0 then l
  else { l with closed := satSucc Config.secondsMax l.closed, longestHold := max l.longestHold hold }

end Sys2Proof.Machine
end

