-- ==== Sys2Proof/Machine/Archive.lean ====
section
/-! DEFINITION. The Shift Summary Archive: the start of a close with its snapshot, and its completion
(R80, R104, R105, R107). -/

namespace Sys2Proof.Machine

/-- The slot after the newest, slot 0 where there is none (R104). -/
def Archive.following (a : Archive) : Fin 4 :=
  match a.newest with
  | some k => k + 1
  | none => 0

/-- The slot of an age behind the newest (R104): with fewer closes since hard reset, an EMPTY one. -/
def Archive.aged (a : Archive) (age : Nat) : Option (Fin 4) :=
  match a.newest, index 4 age with
  | some k, some d => some (k - d)
  | _, _ => none

/-- The header and snapshot a close takes (R105, R108). -/
def State.snapshot (s : State) (reason : CloseReason) : Summary :=
  { number := s.timer.number
    openedAt := s.timer.openedAt
    closedAt := s.timer.runClock
    reason := reason
    takt := s.timer.plan.takt
    target := s.pace.figures.g
    expected := s.pace.figures.e
    actual := s.pace.actual
    productive := s.timer.wc - s.timer.openingWc
    used := s.layout.used
    lineLost := s.loss.lineLost
    lineLostCars := s.lineLostCars
    zones := s.loss.zones
    opened := s.loss.opened
    closed := s.loss.closed
    carried := s.callList.calls.length
    longestHold := s.loss.longestHold
    rows := .tab fun st => ⟨(s.stations.at_ st).callsShift, (s.stations.at_ st).chargedLoss⟩ }

/-- A reply of READ SUMMARY from a COMPLETE slot that a close takes is cut: every further byte reads 0xFF. A reply
without a body is one of an EMPTY or WRITING slot, and its header goes on as taken (R109). -/
def Transaction.slotTaken (t : Transaction) (k : Fin 4) : Transaction :=
  match t with
  | .summary (some j) (some r) =>
    if j = k ∧ r.body ≠ [] then .summary (some j) (some { r with cut := true }) else t
  | t => t

/-- The start of a close: the state becomes CLOSING, the Archive takes its slot and snapshot (R80, R105).
The change of state is handed on by the event that makes it. -/
def startClose (reason : CloseReason) (s : State) : State :=
  let k := s.archive.following
  { s with
    timer := { s.timer with state := .closing }
    archive := { slots := s.archive.slots.put k (.writing (s.snapshot reason)), newest := some k }
    plant := { s.plant with transaction := s.plant.transaction.slotTaken k } }

/-- A WRITING slot becomes COMPLETE (R107). -/
def Slot.completed : Slot → Slot
  | .writing r => .complete r
  | .empty => .empty
  | .complete r => .complete r

/-- The slot being written becomes COMPLETE (R107). -/
def Archive.completed (a : Archive) : Archive :=
  match a.newest with
  | some k => { a with slots := a.slots.upd k Slot.completed }
  | none => a

end Sys2Proof.Machine
end

