-- ==== Sys2Proof/Machine/ShiftTimer.lean ====
section
/-! DEFINITION. The Shift Timer: plans, shift starts, time marks, advances, the end tests, the close's start
and completion, and the actual count's changes that the end tests follow (c04, R91, R92). -/

namespace Sys2Proof.Machine

/-! ### The end of the shift (R78, R79, R87) -/

/-- Entry into OVERTIME: H takes Gm as last computed, and the figures are computed (R87, R88). -/
def enterOvertime (s : State) : State :=
  recompute { s with
    timer := { s.timer with state := .overtime }
    pace := { s.pace with held := s.pace.figures.gm } }

/-- The end-of-shift test on A and G (R78). -/
def endOfShiftTest (s : State) : State :=
  if s.pace.figures.g ≤ s.pace.actual then startClose .targetMet s
  else if s.timer.plan.overtime = 0 then startClose .lengthEnd s
  else enterOvertime s

/-- The overtime-limit test (R79). -/
def overLimit (s : State) : Bool := s.timer.plan.length + s.timer.plan.overtime ≤ s.timer.clock

/-- The end test of an advance (R76 step 3). -/
def advanceEndTest (s : State) : State :=
  if s.timer.state = .production ∧ s.timer.clock = s.timer.plan.length then endOfShiftTest s
  else if s.timer.state = .overtime ∧ overLimit s then startClose .overtimeLimit s
  else s

/-- The target test that follows a change of A in OVERTIME (R79). -/
def targetTest (s : State) : State :=
  if s.timer.state = .overtime ∧ s.pace.figures.g ≤ s.pace.actual then startClose .targetMet s else s

/-- The actual count takes a value; a change computes the figures and, in OVERTIME, is followed by the
target test (R88, R91, R92). -/
def changeActual (a : Nat) (s : State) : State :=
  if a = s.pace.actual then s
  else handOn s (targetTest (recompute (s.onPace fun u => { u with actual := a })))

/-- One end-of-line car, counted while a shift is open (R20, R91). -/
def endOfLineCar (s : State) : State :=
  if s.timer.state.isOpen then changeActual (satSucc Config.actualMax s.pace.actual) s else s

/-- COUNT ADJUST's new A: the signed delta added and clamped to 0..9999 (R92). -/
def adjustedActual (a : Nat) (delta : Int) : Nat := min Config.actualMax ((a : Int) + delta).toNat

/-! ### Advances (R75, R76) -/

/-- The state after step 1 of an advance that brings the clock to `c` (R76). -/
def ShiftTimer.stateAt (t : ShiftTimer) (c : Nat) : ShiftState :=
  if t.state = .production ∧ t.plan.startsBreak c then .inBreak
  else if t.state = .inBreak ∧ t.plan.endsBreak c ∧ ¬t.plan.startsBreak c then .production
  else t.state

/-- Step 1 of an advance: the clock and the breaks, with the CLOCK request (R76, R161). A change of state is
handed on by the advance. -/
def advanceClock (s : State) : State :=
  let c := s.timer.clock + 1
  (s.onTimer fun t => { t with clock := c, state := t.stateAt c }).raiseIf (c / 60 ≠ s.timer.clock / 60) .clock

/-- Step 2 of a productive advance: Wc, the loss charge and the figures (R76). -/
def productiveSecond (s : State) : State :=
  let charged := chargeSecond (s.onTimer fun t => { t with wc := t.wc + 1 })
  raiseLostCars s (recompute charged)

/-- One advance of the shift clock (R76). A productive one charges with the sets as step 1 leaves them. One that
leaves a break and comes to its end test hands on the one change that results (R68, log 28). -/
def advance (s : State) : State :=
  if s.timer.state.isProductive then
    let two := productiveSecond (handOn s (advanceClock s))
    handOn two (advanceEndTest two)
  else handOn s (advanceEndTest (advanceClock s))

/-- The second advance of a double advance, handed on by itself (log 28); it is not made where the first started
the close (R75). -/
def advanceIfOpen (s : State) : State := if s.timer.state.isOpen then advance s else s

/-- The time correction set. -/
def setCorrection (c : Int) (s : State) : State := s.onTimer fun t => { t with correction := c }

/-- A Shift Timer second (R75). -/
def shiftSecond (s : State) : State :=
  if s.timer.state.isOpen then
    if 0 < s.timer.correction then
      setCorrection (s.timer.correction - 1) (advanceIfOpen (advance s))
    else if s.timer.correction < 0 then setCorrection (s.timer.correction + 1) s
    else advance s
  else s

/-! ### Shift starts and time marks (R70 to R73, R77) -/

/-- What judging a start or a mark gives, before it becomes a port's result. -/
inductive Verdict
  | ok | range | state
  deriving DecidableEq, Repr

def Verdict.line : Verdict → LineResult
  | .ok => .ok
  | .range => .range
  | .state => .state

def Verdict.plant : Verdict → PlantResult
  | .ok => .ok
  | .range => .range
  | .state => .state

/-- The plan a shift open makes active: the next plan, else the active one (R70). -/
def ShiftTimer.opening (t : ShiftTimer) : Option Plan := t.next.orElse fun _ => t.active

/-- The Shift Timer at the open of shift `number` under plan `p` (R70). -/
def ShiftTimer.opened (t : ShiftTimer) (p : Plan) (number offset : Nat) : ShiftTimer :=
  let c := min offset (p.length - 1)
  let wc := c - p.breakBefore c
  { t with
    state := if p.insideBreak c then .inBreak else .production
    number := number
    openedAt := t.runClock
    openingWc := wc
    next := none
    active := some p
    clock := c
    wc := wc
    correction := 0 }

/-- A station record at a shift open (R13). -/
def StationRecord.opened (r : StationRecord) : StationRecord := { r with callsShift := 0, chargedLoss := 0 }

/-- A shift opens under plan `p` (R70). The change of state is handed on by the event. -/
def openShift (p : Plan) (number offset : Nat) (s : State) : State :=
  let t := s.timer.opened p number offset
  (recompute { s with
    timer := t
    stations := .tab fun st => (s.stations.at_ st).opened
    loss := .zero
    pace := s.pace.opened t.wc }).raise .pace |>.raise .clock

/-- A TIME MARK applied (R77). -/
def applyTimeMark (number seconds : Nat) (s : State) : State × Verdict :=
  if ¬s.timer.state.isOpen ∨ number ≠ s.timer.number then (s, .state)
  else if 60 < ((seconds : Int) - s.timer.clock).natAbs then (s, .range)
  else (setCorrection ((seconds : Int) - s.timer.clock) s, .ok)

/-- A shift start held pending (R71). -/
def holdStart (number offset : Nat) (s : State) : State :=
  s.onTimer fun t => { t with pendingStart := some ⟨number, offset⟩ }

/-- A SHIFT START from either port (R70, R71). -/
def applyShiftStart (number offset : Nat) (s : State) : State × Verdict :=
  if number = 0 then (s, .range)
  else
    match s.timer.state with
    | .noShift =>
      match s.timer.opening with
      | none => (s, .state)
      | some p => (handOn s (openShift p number offset s), .ok)
    | .closing => (holdStart number offset s, .ok)
    | .production | .inBreak | .overtime =>
      if number = s.timer.number then applyTimeMark number offset s
      else (handOn s (startClose .newShift (holdStart number offset s)), .ok)

/-- The pending start opened at the completion of the close (R72). -/
def takePending (s : State) : State :=
  match s.timer.pendingStart, s.timer.opening with
  | some q, some p => openShift p q.number q.offset (s.onTimer fun t => { t with pendingStart := none })
  | _, _ => s

/-- The completion of a close (R107). -/
def completeClose (s : State) : State :=
  if s.timer.state = .closing then
    handOn s (takePending { s with
      archive := s.archive.completed
      timer := { s.timer with state := .noShift } })
  else s

/-! ### Plans (R64 to R67) -/

/-- A break entry's values with the length clamped (R64 step 2). -/
def BreakArg.clamped (b : BreakArg) : Break := { start := b.start.toNat, length := clamp 60 3600 b.length.toNat }

/-- Each break starts later than the one before it, and not before that one ends (R64 step 3). -/
def breaksOrdered : List Break → Bool
  | [] => true
  | [_] => true
  | a :: b :: rest => a.start < b.start && a.stop ≤ b.start && breaksOrdered (b :: rest)

/-- A break cut to end at L (R65). -/
def Break.cutAt (l : Nat) (b : Break) : Break := { b with length := min b.length (l - b.start) }

/-- The break list fitted to L (R65). -/
def fitBreaks (l : Nat) (bs : List Break) : List Break := (bs.filter fun b => b.start < l).map (Break.cutAt l)

/-- STAGE PLAN judged: the fitted plan, or the result that refuses it (R64). -/
def judgePlan (length takt overtime count : Nat) (args : List BreakArg) : Except PlantResult Plan :=
  if 6 < count then .error .range
  else
    let l := clamp 1800 43200 length
    let bs := (args.take count).map BreakArg.clamped
    if breaksOrdered bs then
      .ok { length := l, takt := clamp 300 6000 takt, overtime := min 7200 overtime, breaks := fitBreaks l bs }
    else .error .invalid

/-- The state decided again from the clock under a newly committed plan (R67 step 3). -/
def ShiftTimer.redecided (t : ShiftTimer) : ShiftState :=
  if t.state = .overtime ∧ t.plan.length ≤ t.clock then .overtime
  else if t.plan.insideBreak t.clock then .inBreak
  else .production

/-- The held target at a COMMIT NOW that finds and leaves OVERTIME (R90). -/
def holdAtCommit (s : State) : State :=
  if s.timer.state = .overtime then s.onPace fun u => { u with held := u.base } else s

/-- Step 4 of a COMMIT NOW: the end-of-shift test (R67). -/
def commitEndTest (s : State) : State :=
  if s.timer.state = .production ∧ s.timer.plan.length ≤ s.timer.clock then endOfShiftTest s else s

/-- Step 4 of a COMMIT NOW: the overtime tests, the limit before the target (R67, log 12). -/
def commitOvertimeTests (s : State) : State :=
  if s.timer.state = .overtime then
    if overLimit s then startClose .overtimeLimit s else targetTest s
  else s

/-- COMMIT PLAN NOW in an open shift with plan `p` staged (R67, R90). -/
def commitNow (p : Plan) (s : State) : State :=
  let replaced := (rebase s).onTimer fun t => { t with active := some p, staged := none }
  let decided := replaced.onTimer fun t => { t with state := t.redecided }
  let computed := recompute (holdAtCommit decided)
  handOn s (raiseLostCars s (commitOvertimeTests (commitEndTest computed)))

/-- COMMIT PLAN judged and applied (R66). -/
def applyCommit (mode : Nat) (s : State) : State × PlantResult :=
  if 1 < mode then (s, .range)
  else
    match s.timer.staged with
    | none => (s, .state)
    | some p =>
      if mode = 1 ∧ s.timer.state = .closing then (s, .busy)
      else if mode = 1 ∧ s.timer.state.isOpen then (commitNow p s, .ok)
      else (s.onTimer fun t => { t with next := some p, staged := none }, .ok)

/-! ### Meanings -/

/-- SHIFT_TIMER_SECOND (R75). -/
def execShiftTimerSecond (s : State) : Result := centreEvent shiftSecond s

/-- CLOSE_COMPLETION (R107); with no close in flight there is no completion. -/
def execCloseCompletion (s : State) : Result := centreEvent completeClose s

/-- The run clock's next value (R69). -/
def nextRunClock (n : Nat) : Nat := satSucc Config.runClockMax n

/-- An open call's elapsed minutes differ between two run-clock values (R161, log 22). -/
def minutesChange (calls : List Call) (old new : Nat) : Bool :=
  calls.any fun c => c.elapsedMinutes old ≠ c.elapsedMinutes new

/-- RUN_CLOCK_SECOND (R69, R161). -/
def execRunClockSecond (s : State) : Result :=
  event (fun s =>
    (s.onTimer fun t => { t with runClock := nextRunClock t.runClock }).raiseIf
      (minutesChange s.callList.calls s.timer.runClock (nextRunClock s.timer.runClock)) .ticker) s

end Sys2Proof.Machine
end

