-- ==== Sys2Proof/Machine/History.lean ====
section
/-! DEFINITION. The Stoppage History Log and its read cursor (R111 to R120). -/

namespace Sys2Proof.Machine

/-- The record after the removed one carries DROPPED-BEFORE (R114). -/
def flagHead : List HistoryRecord → List HistoryRecord
  | [] => []
  | r :: rest => { r with droppedBefore := true } :: rest

/-- The log after its oldest record is removed with the cursor at `cursor` (R114). -/
def historyAfterRemoval (log : List HistoryRecord) (cursor : Option Nat) : List HistoryRecord :=
  if cursor = some 0 then flagHead log.tail else log.tail

/-- The cursor after a removal: on the removed record it moves to the new oldest (R114). -/
def cursorAfterRemoval : Option Nat → Option Nat
  | none => none
  | some 0 => some 0
  | some (n + 1) => some n

/-- The slot in flight after the removal of the cursor's record: its record is out of the log (R120). -/
def Transaction.afterRemoval (t : Transaction) (cursor : Option Nat) : Transaction :=
  match t with
  | .history (some sl) => if cursor = some 0 then .history (some { sl with live := false }) else t
  | t => t

/-- The oldest record removed (R114). -/
def removeOldest (s : State) : State :=
  { s with
    history := historyAfterRemoval s.history s.plant.historyCursor
    plant := { s.plant with
      transaction := s.plant.transaction.afterRemoval s.plant.historyCursor
      historyCursor := cursorAfterRemoval s.plant.historyCursor } }

/-- A record appended at the tail; a cursor at end designates it from then on (R113, R115). -/
def appendRecord (r : HistoryRecord) (s : State) : State :=
  { s with
    history := s.history ++ [r]
    plant := { s.plant with historyCursor := some (s.plant.historyCursor.getD s.history.length) } }

/-- A record stored at a closing: at 128 records the oldest is removed first (R113). -/
def storeRecord (r : HistoryRecord) (s : State) : State :=
  if s.history.length < Config.historyDepth then appendRecord r s else appendRecord r (removeOldest s)

/-- The oldest record's place, or end where the log is empty (R119). -/
def rewound (log : List HistoryRecord) : Option Nat := if log.isEmpty then none else some 0

/-- The cursor moved past the record it designates (R115). -/
def cursorPast (log : List HistoryRecord) (n : Nat) : Option Nat := if n + 1 < log.length then some (n + 1) else none

end Sys2Proof.Machine
end

