-- ==== Sys2Proof/Machine/Calls.lean ====
section
/-! DEFINITION. The Call List: opening, growing, closing, acknowledging and escalating calls (c03). -/

namespace Sys2Proof.Machine

/-- The call kind of a kind code (R34, c12). -/
def Kind.ofCode : Nat → Option Kind
  | 0 => some .quality
  | 1 => some .parts
  | 2 => some .equipment
  | 3 => some .safety
  | 4 => some .help
  | _ => none

/-! ### Allocator (R39) -/

/-- The next call number, from 9999 to 1. -/
def nextNumber (n : Nat) : Nat := if n < Config.callNumberMax then n + 1 else 1

/-- The allocator moved past held numbers, at most `fuel` of them (R39). -/
def passHeld (held : List Nat) (fuel n : Nat) : Nat :=
  match fuel with
  | 0 => n
  | f + 1 => if held.contains n then passHeld held f (nextNumber n) else n

/-- The allocator after a call took number `n`; it settles within 49 moves (R39). -/
def advanceAllocator (held : List Nat) (n : Nat) : Nat := passHeld held 49 (nextNumber n)

/-! ### The ticker's scroll (R167) -/

/-- When the count of calls changes: an offset past the last window, or calls that fit, return to 0. -/
def fitScroll (s : State) : State :=
  match s.engine.inForce .ticker with
  | none => s
  | some r =>
    let n := s.callList.calls.length
    if n ≤ r.scrollLines ∨ n - r.scrollLines < s.engine.scrollOffset then
      s.onEngine fun e => { e with scrollOffset := 0, scrollCount := 0 }
    else s

/-- The requests of a change in the Call List (R161). -/
def raiseCallChange (s : State) : State := (s.raise .stations).raise .ticker

/-! ### Opening and growing (R38 to R42) -/

/-- The pitch remaining of a WARN call at a station of length `len` (R40). -/
def initialRemaining (len progress : Nat) : Nat := len - min progress (len - 1)

/-- The record of a call that opens (R39, R40). -/
def State.newCall (s : State) (st : Fin 48) (zone : Fin 6) (k : Kind) (progress : Nat) : Call :=
  { number := s.callList.allocator
    station := st
    zone := zone
    kinds := [k]
    openedAt := s.timer.runClock
    openedTag := s.shiftTag
    phase := if k = .safety then .hold else .warn
    remaining := if k = .safety then 0 else initialRemaining (s.layout.stations.at_ st).length progress
    level := 0
    escalation := 0
    grace := 0
    ack := none
    holdTime := 0
    everHeld := k = .safety }

/-- A station record when a call opens at it (R11). -/
def StationRecord.callOpened (r : StationRecord) (number : Nat) (k : Kind) (counted : Bool) : StationRecord :=
  { r with
    openCall := some number
    lastKind := some k
    callsShift := if counted then satSucc Config.callsShiftMax r.callsShift else r.callsShift }

/-- A call opens at station `st` of zone `zone` (R39). -/
def openCall (st : Fin 48) (zone : Fin 6) (k : Kind) (progress : Nat) (s : State) : State :=
  let c := s.newCall st zone k progress
  let opened : State :=
    { s with
      callList := { s.callList with
        calls := s.callList.calls ++ [c]
        allocator := advanceAllocator ((s.callList.calls ++ [c]).map Call.number) c.number }
      stations := s.stations.upd st fun r => r.callOpened c.number k s.timer.state.isOpen
      loss := s.loss.callOpened s.shiftTag }
  settleTracker s (raiseCallChange (fitScroll opened))

/-- A call grown by a kind; SAFETY puts it in HOLD (R41, R42). -/
def Call.grown (c : Call) (k : Kind) : Call :=
  if k = .safety then { c with kinds := c.kinds ++ [k], phase := .hold, remaining := 0, everHeld := true }
  else { c with kinds := c.kinds ++ [k] }

/-- A PULL grows the open call `c` (R41). -/
def growCall (c : Call) (k : Kind) (s : State) : State :=
  settleTracker s (raiseCallChange (s.onCalls fun l => l.update c.number fun x => x.grown k))

/-- A PULL judged and applied (R38). -/
def applyPull (station kind progress : Nat) (s : State) : State × LineResult :=
  match index 48 station with
  | none => (s, .range)
  | some st =>
    if s.layout.enabled st then
      match Kind.ofCode kind, s.layout.stationZone st with
      | some k, some zone =>
        match s.callList.atStation st with
        | some c => if c.kinds.contains k then (s, .duplicate) else (growCall c k s, .ok)
        | none => (openCall st zone k progress s, .ok)
      | _, _ => (s, .range)
    else (s, .range)

/-! ### Closing (R47 to R52, R61) -/

/-- The record a closing hands to the History Log (R61). -/
def State.historyRecord (s : State) (c : Call) (by_ : ClosedBy) : HistoryRecord :=
  { number := c.number, station := c.station, zone := c.zone, kinds := c.kinds
    openedAt := c.openedAt, openedTag := c.openedTag
    closedAt := s.timer.runClock, closedTag := s.shiftTag
    holdTime := c.holdTime, everHeld := c.everHeld, maxLevel := c.level
    closedBy := by_, ack := c.ack, droppedBefore := false }

/-- A call noted by READ CALLS that closes before its turn is not served (R139). -/
def Transaction.callClosed (t : Transaction) (number : Nat) : Transaction :=
  match t with
  | .calls noted slot => .calls (noted.filter fun n => n ≠ number) slot
  | t => t

/-- A call's closing (R51). -/
def closeCall (c : Call) (by_ : ClosedBy) (s : State) : State :=
  let left : State :=
    { s with
      callList := { s.callList with calls := s.callList.calls.filter fun x => x.number ≠ c.number }
      stations := s.stations.upd c.station fun r => { r with openCall := none }
      loss := s.loss.callClosed s.shiftTag c.holdTime
      plant := { s.plant with transaction := s.plant.transaction.callClosed c.number } }
  settleTracker s (raiseCallChange (fitScroll (storeRecord (s.historyRecord c by_) left)))

/-- The open call a line frame names by its station (R47, R48, R53). -/
def State.lineCall (s : State) (station : Nat) : Except LineResult Call :=
  match index 48 station with
  | none => .error .range
  | some st =>
    match s.callList.atStation st with
    | none => .error .state
    | some c => .ok c

/-- A RELEASE applied (R47). -/
def applyRelease (station : Nat) (s : State) : State × LineResult :=
  match s.lineCall station with
  | .error r => (s, r)
  | .ok c => (closeCall c .station s, .ok)

/-- A LEADER RESET applied (R48). -/
def applyLeaderReset (station leader : Nat) (s : State) : State × LineResult :=
  if leader = 0 then (s, .range)
  else
    match s.lineCall station with
    | .error r => (s, r)
    | .ok c => (closeCall c (.leader leader) s, .ok)

/-- A CLEAR CALL applied (R49). -/
def applyClearCall (number responder : Nat) (s : State) : State × PlantResult :=
  if responder = 0 then (s, .range)
  else
    match s.callList.numbered number with
    | none => (s, .nocall)
    | some c => (closeCall c (.plant responder) s, .ok)

/-! ### Acknowledgement (R53 to R55) -/

/-- The acknowledgement stored on call `c` and its grace started (R55). -/
def acknowledge (c : Call) (source : AckSource) (id : Nat) (s : State) : State :=
  s.onCalls fun l =>
    l.update c.number fun x => { x with ack := some ⟨source, id, s.timer.runClock⟩, grace := l.policy.grace }

/-- A LEADER ACK applied (R53). -/
def applyLeaderAck (station leader : Nat) (s : State) : State × LineResult :=
  if leader = 0 then (s, .range)
  else
    match s.lineCall station with
    | .error r => (s, r)
    | .ok c => if c.ack.isSome then (s, .already) else (acknowledge c .line leader s, .ok)

/-- An ACK CALL applied (R54). -/
def applyAckCall (number responder : Nat) (s : State) : State × PlantResult :=
  if responder = 0 then (s, .range)
  else
    match s.callList.numbered number with
    | none => (s, .nocall)
    | some c => if c.ack.isSome then (s, .already) else (acknowledge c .plant responder s, .ok)

/-! ### Policy and escalation (R56 to R60) -/

/-- The thresholds of a kind. -/
def Policy.of (p : Policy) : Kind → Thresholds
  | .quality => p.quality
  | .parts => p.parts
  | .equipment => p.equipment
  | .safety => p.safety
  | .help => p.help

/-- The threshold for a level; none is given for a level outside 1..3. -/
def Thresholds.at_ (t : Thresholds) : Nat → Nat
  | 1 => t.level1
  | 2 => t.level2
  | 3 => t.level3
  | _ => 0

/-- The smaller of two thresholds, where 0 is "never" (R59). -/
def minNonzero (a b : Nat) : Nat := if a = 0 then b else if b = 0 then a else min a b

/-- The effective threshold for a level among the kinds of a call (R59). -/
def Policy.effective (p : Policy) (kinds : List Kind) (level : Nat) : Nat :=
  kinds.foldr (fun k acc => minNonzero ((p.of k).at_ level) acc) 0

/-- The level test of a call's second (R59). -/
def Call.levelTest (c : Call) (p : Policy) : Call :=
  let t := p.effective c.kinds (c.level + 1)
  if c.level < 3 ∧ t ≠ 0 ∧ t ≤ c.escalation then { c with level := c.level + 1 } else c

/-- A call's second (R58). -/
def Call.second (c : Call) (p : Policy) (state : ShiftState) : Call :=
  let c := if c.phase = .hold then { c with holdTime := addSecond c.holdTime } else c
  if state = .inBreak then c
  else
    let c := if 0 < c.grace then { c with grace := c.grace - 1 } else { c with escalation := addSecond c.escalation }
    c.levelTest p

/-- Whether this second is one of a call's: every open call's, or that of the call named (log 14). -/
def secondOf (only : Option Nat) (c : Call) : Bool :=
  match only with
  | none => true
  | some n => c.number = n

/-- The seconds of the open calls taken (R58, R60). -/
def callSeconds (only : Option Nat) (s : State) : State :=
  let after (c : Call) : Call := if secondOf only c then c.second s.callList.policy s.timer.state else c
  let t := s.onCalls fun l => { l with calls := l.calls.map after }
  let rose := s.callList.calls.any fun c => c.level < (after c).level
  (t.raiseIf rose .stations).raiseIf rose .ticker

/-- A threshold as clamped (R57 step 1). -/
def clampThreshold (n : Nat) : Nat := min 3600 n

/-- One kind's thresholds clamped and ordered: each nonzero one raised to the highest nonzero threshold of an
earlier level of that kind (R57 steps 1 and 2). -/
def storedThresholds (a b c : Nat) : Thresholds :=
  let a := clampThreshold a; let b := clampThreshold b; let c := clampThreshold c
  let b' := if b = 0 then 0 else max b a
  { level1 := a, level2 := b', level3 := if c = 0 then 0 else max c (max a b') }

/-- The policy table a WRITE POLICY stores (R57). -/
def storedPolicy (t : Vector Half 15) (grace : Half) : Policy :=
  let kind (i : Fin 5) : Thresholds :=
    storedThresholds (t[3 * i.val]'(by omega)).toNat (t[3 * i.val + 1]'(by omega)).toNat
      (t[3 * i.val + 2]'(by omega)).toNat
  { quality := kind 0, parts := kind 1, equipment := kind 2, safety := kind 3, help := kind 4
    grace := min 600 grace.toNat }

/-! ### Meaning -/

/-- CALL_SECOND (R58). -/
def execCallSecond (only : Option Nat) (s : State) : Result := centreEvent (callSeconds only) s

end Sys2Proof.Machine
end

