-- ==== Sys2Proof/Machine/Conveyor.lean ====
section
/-! DEFINITION. The Conveyor Tracker: PITCH filters, steps, car completions, buffers, the safety stop, the stall monitors
and BUFFER SET (c02). -/

namespace Sys2Proof.Machine

/-! ### The PITCH filters (R14) -/

/-- A filter given a moment of its input: a level other than the one taken is timed, from its beginning, and taken
once it has been held for the 20 µs; a shorter one leaves the level taken (R14). -/
def PinFilter.afterPitch (m : PitchMoment) (f : PinFilter) : PinFilter :=
  match m with
  | .pulse => ⟨true, false⟩
  | .level high => f.given high
  | .held => f.settled

/-- The moment qualifies a pulse: the 20 µs of a HIGH level are met (R14). -/
def PinFilter.qualifies (m : PitchMoment) (f : PinFilter) : Bool :=
  match m with
  | .pulse => true
  | .level _ => false
  | .held => f.timing && !f.taken

/-! ### Steps (R14 to R18, R27, R28, R43, R44) -/

/-- A step's effect on one call of its zone: a WARN countdown lowered, and HOLD where it reaches 0 (R43,
R44). -/
def Call.stepped (c : Call) (k : Fin 6) : Call :=
  if c.zone = k ∧ c.phase = .warn then
    if c.remaining ≤ 1 then { c with remaining := 0, phase := .hold, everHeld := true }
    else { c with remaining := c.remaining - 1 }
  else c

/-- A step of zone `k` ends this call's countdown (R44). -/
def Call.entersHold (c : Call) (k : Fin 6) : Bool := c.zone = k && c.phase = .warn && c.remaining ≤ 1

/-- The step completes a car of a zone with accumulator `acc` and pitch `p` (R16). -/
def completesCar (acc p : Nat) : Bool := p ≤ acc + 1

/-- A zone's state after one of its steps; `stopped` is its ZSTOP when the step arrived (R15, R27, R28). -/
def ZoneState.afterStep (z : ZoneState) (r : ZoneRecord) (stopped : Bool) : ZoneState :=
  let coast := if stopped then satSucc Config.coastMax z.coast else z.coast
  { z with
    accumulator := if completesCar z.accumulator r.pitch then 0 else z.accumulator + 1
    coast := coast
    overrun := z.overrun || (stopped && r.coastAllowance < coast)
    miss := 0
    stepped := true
    stall := false }

/-- A delivery into buffer `k` (R17). -/
def Buffer.deliver (b : Buffer) (capacity : Nat) : Buffer :=
  if b.count < capacity then { b with count := b.count + 1 } else { b with overSlip := true }

/-- A draw from a buffer (R17). -/
def Buffer.draw (b : Buffer) : Buffer :=
  if b.count = 0 then { b with underSlip := true } else { b with count := b.count - 1 }

/-- A car of zone `k` delivered into buffer `k` where that is used (R16). -/
def deliverFrom (k : Fin 6) (s : State) : State :=
  match index 5 k.val with
  | some b => if s.layout.bufferUsed b then s.onBuffer b fun x => x.deliver (s.layout.capacity b) else s
  | none => s

/-- A car drawn by zone `k` from buffer k−1 where that is used (R16). -/
def drawInto (k : Fin 6) (s : State) : State :=
  if k.val = 0 then s
  else
    match index 5 (k.val - 1) with
    | some b => if s.layout.bufferUsed b then s.onBuffer b Buffer.draw else s
    | none => s

/-- A car completion of zone `k`: delivery, draw, end of line (R16). -/
def completeCar (k : Fin 6) (s : State) : State :=
  let moved := drawInto k (deliverFrom k s)
  if k.val + 1 = s.layout.used then endOfLineCar moved else moved

/-- The calls after a step of zone `k`, with the requests of entries into HOLD (R43 to R45). -/
def stepCalls (k : Fin 6) (s : State) : State :=
  let t := s.onCalls fun l => { l with calls := l.calls.map fun c => c.stepped k }
  if s.callList.calls.any fun c => c.entersHold k then raiseCallChange t else t

/-- One step of used zone `k` (R15). -/
def stepZone (k : Fin 6) (s : State) : State :=
  let z := s.tracker.zones.at_ k
  let r := s.layout.zones.at_ k
  let moved := (s.onZone k fun z => z.afterStep r (s.zstop k)).raiseIf z.stall .stations
  let called := stepCalls k moved
  settleTracker s (if completesCar z.accumulator r.pitch then completeCar k called else called)

/-- A moment of PITCH input `k`: its filter, and a step of the zone for a pulse that qualifies while the zone is used
(R14). -/
def givePitch (k : Fin 6) (m : PitchMoment) (s : State) : State :=
  let t := s.onPitch k (PinFilter.afterPitch m)
  if (s.pitch.at_ k).qualifies m && s.layout.zoneUsed k then stepZone k t else t

/-! ### Other events of the Tracker -/

/-- A moment of XSTOP, asserted HIGH: its filter, and a taken change of the filtered level (R26). -/
def giveXstop (m : LevelMoment) (s : State) : State :=
  let f := s.tracker.xstop.afterLevel true m
  let t : State := { s with tracker := { s.tracker with xstop := f } }
  if f.taken = s.tracker.xstop.taken then t else settleTracker s (t.raise .banner)

/-- A stall monitor's second (R30). -/
def ZoneState.monitorSecond (z : ZoneState) (qualifies : Bool) (q : Nat) : ZoneState :=
  if qualifies then
    if z.stepped then { z with miss := 0, stepped := false }
    else
      let m := min q (z.miss + 1)
      { z with miss := m, stall := z.stall || q ≤ m, stepped := false }
  else { z with miss := 0, stepped := false }

/-- The second of used zone `k`'s stall monitor (R30). -/
def monitorSecond (k : Fin 6) (s : State) : State :=
  let q := Config.stallSeconds (s.layout.zones.at_ k).stallIndex
  let t := s.onZone k fun z => z.monitorSecond (s.qualifies k) q
  t.raiseIf ((t.tracker.zones.at_ k).stall && !(s.tracker.zones.at_ k).stall) .stations

/-- A BUFFER SET applied (R19). -/
def applyBufferSet (buffer count : Nat) (s : State) : State × LineResult :=
  match index 5 buffer with
  | none => (s, .range)
  | some b =>
    if s.layout.bufferUsed b then
      (settleTracker s (s.onBuffer b fun _ => ⟨min count (s.layout.capacity b), false, false⟩), .ok)
    else (s, .range)

/-! ### Meanings -/

/-- STEP (R14, R15): a qualified pulse on the input of an unused zone is ignored. The moment of the input's filter is
the model's operand (log 20). -/
def execStep (e : PitchEvent) (s : State) : Result := centreEvent (givePitch e.zone e.moment) s

/-- XSTOP_CHANGE (R26). The moment of the input's filter is the model's operand (log 20). -/
def execXstopChange (m : LevelMoment) (s : State) : Result := centreEvent (giveXstop m) s

/-- STALL_MONITOR_SECOND (R30): each used zone has a monitor. -/
def execStallMonitorSecond (k : Fin 6) (s : State) : Result :=
  centreEvent (fun s => if s.layout.zoneUsed k then monitorSecond k s else s) s

end Sys2Proof.Machine
end

