-- ==== Sys2Proof/Machine/LayoutWrites.lean ====
section
/-! DEFINITION. WRITE LAYOUT ZONE and WRITE LAYOUT STATION (R4 to R9). -/

namespace Sys2Proof.Machine

/-- The clamped fields of a WRITE LAYOUT ZONE: Z′ and the zone record (R5). -/
def clampedZone (used first last pitch coast stall capacity : Nat) : Nat × ZoneRecord :=
  (clamp 1 6 used,
    { first := min 47 first
      last := min 47 last
      pitch := clamp 8 255 pitch
      coastAllowance := min 31 coast
      stallIndex := stall % 4
      stallCheck := stall.testBit 7
      capacity := min 15 capacity })

/-- The layout with zone record `k` and Z replaced (R8). -/
def Layout.withZone (l : Layout) (k : Fin 6) (used : Nat) (r : ZoneRecord) : Layout :=
  { l with used := used, zones := l.zones.put k r }

/-- The lower-neighbour test (R6). -/
def Layout.lowerMeets (l : Layout) (k : Fin 6) (first : Nat) : Bool :=
  match index 6 (k.val - 1) with
  | some j => if k.val = 0 then first = 0 else first = (l.zones.at_ j).last + 1
  | none => false

/-- The upper-neighbour test, made where Z′ > k+1 (R6). -/
def Layout.upperMeets (l : Layout) (k : Fin 6) (used last : Nat) : Bool :=
  match index 6 (k.val + 1) with
  | some j => used ≤ k.val + 1 || (l.zones.at_ j).first = last + 1
  | none => true

/-- The contiguity tests of R6 on the clamped fields. -/
def Layout.contiguous (l : Layout) (k : Fin 6) (used : Nat) (r : ZoneRecord) : Bool :=
  k.val < used && k.val ≤ l.used && l.lowerMeets k r.first && r.first ≤ r.last
    && (used ≤ l.used || used = k.val + 1) && l.upperMeets k used r.last

/-- The write would strand an open call (R7). -/
def State.strands (s : State) (new : Layout) : Bool :=
  (new.used ≠ s.layout.used && !s.callList.calls.isEmpty)
    || s.callList.calls.any fun c => new.stationZone c.station ≠ s.layout.stationZone c.station

/-- A zone's tracker state under a layout write: cleared on a change of service, and, for the written zone
`k`, the accumulator and OVERRUN of R8's table. The table is silent on the stepped mark, which a change of service
clears with the rest (DESIGN CHOICE, log 30). -/
def ZoneState.afterWrite (z : ZoneState) (j k : Fin 6) (old new : Layout) : ZoneState :=
  let z := if old.zoneUsed j = new.zoneUsed j then z else ZoneState.cleared
  if j = k then
    let r := new.zones.at_ k
    { z with
      accumulator := if r.pitch ≤ z.accumulator then r.pitch - 1 else z.accumulator
      overrun := z.overrun || r.coastAllowance < z.coast }
  else z

/-- A PITCH filter under a layout write: a pulse in qualification on the input of a zone brought out of service gives
no step (R14). That the input stays taken as LOW is the model's reading (log 33). -/
def PinFilter.afterWrite (f : PinFilter) (j : Fin 6) (old new : Layout) : PinFilter :=
  if old.zoneUsed j && !new.zoneUsed j then { f with timing := f.timing && f.taken } else f

/-- A buffer under a layout write (R8): cleared on a change of service, held to a lowered capacity. -/
def Buffer.afterWrite (b : Buffer) (i : Fin 5) (old new : Layout) : Buffer :=
  if old.bufferUsed i = new.bufferUsed i then
    if new.bufferUsed i then { b with count := min b.count (new.capacity i) } else b
  else Buffer.cleared

/-- The requests of a layout write (R8, R9, R161). -/
def raiseLayout (s : State) : State := (s.raise .stations).raise .ticker

/-- A WRITE LAYOUT ZONE that passed its tests (R8). -/
def storeZone (k : Fin 6) (new : Layout) (s : State) : State :=
  let old := s.layout
  settleTracker s (raiseLayout
    { s with
      layout := new
      pitch := .tab fun j => (s.pitch.at_ j).afterWrite j old new
      tracker := { s.tracker with
        zones := .tab fun j => (s.tracker.zones.at_ j).afterWrite j k old new
        buffers := .tab fun i => (s.tracker.buffers.at_ i).afterWrite i old new } })

/-- A WRITE LAYOUT ZONE judged and applied, in the order of R4. -/
def applyLayoutZone (zone used first last pitch coast stall capacity : Nat) (s : State) : State × PlantResult :=
  if s.timer.state ≠ .noShift then (s, .state)
  else
    match index 6 zone with
    | none => (s, .range)
    | some k =>
      let c := clampedZone used first last pitch coast stall capacity
      let new := s.layout.withZone k c.1 c.2
      if !s.layout.contiguous k c.1 c.2 then (s, .invalid)
      else if s.strands new then (s, .state)
      else (storeZone k new s, .ok)

/-- A WRITE LAYOUT STATION judged and applied (R4, R9). -/
def applyLayoutStation (station : Nat) (flag : Bool) (length : Nat) (s : State) : State × PlantResult :=
  if s.timer.state ≠ .noShift then (s, .state)
  else
    match index 48 station with
    | none => (s, .range)
    | some st =>
      let len := clamp 4 64 length
      if (s.callList.atStation st).isSome && (!flag || len ≠ (s.layout.stations.at_ st).length) then (s, .state)
      else
        (settleTracker s (raiseLayout
          { s with layout := { s.layout with stations := s.layout.stations.put st ⟨flag, len⟩ } }), .ok)

end Sys2Proof.Machine
end

