-- ==== Sys2Proof/Machine/Operands.lean ====
section
/-! DEFINITION. Operand forms of the wire: line frames judged and parsed, flag bytes, pixel groups
(R125, R149, R179, R181). -/

namespace Sys2Proof.Machine

/-- A flag byte is on where nonzero (R181). -/
def flagOn (b : Byte) : Bool := b ≠ 0

/-- The sum of some bytes modulo 256 (R125). -/
def byteSum (bs : List Byte) : Byte := bs.foldl (· + ·) 0

/-- The frame of a type with its payload bytes, where there are as many as the type has (R179). -/
def frameOf : FrameType → List Byte → Option Frame
  | .pull, [st, kind, progress] => some (.pull st kind progress)
  | .release, [st] => some (.release st)
  | .leaderAck, [st, leader] => some (.leaderAck st leader)
  | .leaderReset, [st, leader] => some (.leaderReset st leader)
  | .bufferSet, [b, n] => some (.bufferSet b n)
  | .countAdjust, [d] => some (.countAdjust d)
  | .shiftStart, [n1, n0, o1, o0] => some (.shiftStart (halfOf n1 n0) (halfOf o1 o0))
  | .timeMark, [n1, n0, t1, t0] => some (.timeMark (halfOf n1 n0) (halfOf t1 t0))
  | .keepalive, [] => some .keepalive
  | _, _ => none

/-- The frame a write transaction holds, judged in the order of R125: the good frame, or its outcome. Bytes
beyond the frame length are not kept (R124). -/
def judgeFrame (bytes : List Byte) : Except LineResult Frame :=
  match bytes with
  | [] => .error .short
  | type :: rest =>
    match decodeFrameType type with
    | none => .error .unknown
    | some t =>
      if bytes.length < t.length then .error .short
      else if byteSum (bytes.take t.length) ≠ 0 then .error .check
      else
        match frameOf t (rest.take (t.length - 2)) with
        | some f => .ok f
        | none => .error .short

/-- The answers to the bytes of a taken write transaction: ACK up to the frame length, NACK beyond it; after
a type byte of no known type every following byte is NACKed (R124). -/
def frameAnswers (bytes : List Byte) : List BusAnswer :=
  match bytes with
  | [] => []
  | type :: _ =>
    let kept := match decodeFrameType type with
      | some t => t.length
      | none => 1
    (List.range bytes.length).map fun i => if i < kept then .ack else .nack

/-- The 7-bit address of an address byte (R122). -/
def addressOf (b : Byte) : Nat := b.toNat / 2

/-- The direction bit of an address byte: 1 is a read (R122). -/
def isRead (b : Byte) : Bool := b.toNat % 2 = 1

/-- The byte of eight bits, most significant bit first (R122, R132). -/
def byteOfBits (bits : List Bool) : Byte := byteOf (bits.foldl (fun n b => 2 * n + b.toNat) 0)

/-- Byte `i` of the argument bytes of a plant command, and the two-byte field that begins there (R181). -/
def byteAt (args : List Byte) (i : Nat) : Byte := args.getD i 0
def halfAt (args : List Byte) (i : Nat) : Half := halfOf (byteAt args i) (byteAt args (i + 1))

/-! ### Pixel groups (R149, R181) -/

/-- The bytes of one pixel group (R149). -/
def ColourMode.groupBytes : ColourMode → Nat
  | .c8 => 1
  | .c12 => 3
  | .c16 => 2

/-- C8's pixel: 3-bit channels widened by repeating the top bit, the 2-bit channel repeated (R149). -/
def pixelC8 (b : Byte) : Pixel :=
  let widen (v : Nat) : BitVec 4 := BitVec.ofNat 4 (v * 2 + v / 4)
  ⟨widen (b.toNat / 32), widen (b.toNat / 4 % 8), BitVec.ofNat 4 (b.toNat % 4 * 5)⟩

/-- C16's pixel: the top four bits of each channel (R149). -/
def pixelC16 (hi lo : Byte) : Pixel :=
  let w := hi.toNat * 256 + lo.toNat
  ⟨BitVec.ofNat 4 (w / 2048 / 2), BitVec.ofNat 4 (w / 32 % 64 / 4), BitVec.ofNat 4 (w % 32 / 2)⟩

/-- The high and low nibbles of a byte. -/
def highNibble (b : Byte) : BitVec 4 := BitVec.ofNat 4 (b.toNat / 16)
def lowNibble (b : Byte) : BitVec 4 := BitVec.ofNat 4 (b.toNat % 16)

/-- The pixels of a complete pixel group, in sending order; no pixel for bytes that are no complete group of
the mode (R149). -/
def groupPixels : ColourMode → List Byte → List Pixel
  | .c8, [b] => [pixelC8 b]
  | .c12, [b0, b1, b2] =>
    [⟨highNibble b0, lowNibble b0, highNibble b1⟩, ⟨lowNibble b1, highNibble b2, lowNibble b2⟩]
  | .c16, [hi, lo] => [pixelC16 hi lo]
  | _, _ => []

end Sys2Proof.Machine
end

