-- ==== Sys2Proof/Machine/Records.lean ====
section
/-! DEFINITION. The bytes the two ports serve: code values, the line status block and the replies of the
plant reads (c12, R180 to R182). -/

namespace Sys2Proof.Machine

/-! ### Code values (c12, section 12.1) -/

def ShiftState.code : ShiftState → Nat
  | .noShift => 0
  | .production => 1
  | .inBreak => 2
  | .overtime => 3
  | .closing => 4

def Kind.code : Kind → Nat
  | .quality => 0
  | .parts => 1
  | .equipment => 2
  | .safety => 3
  | .help => 4

def LineResult.code : LineResult → Nat
  | .ok => 0
  | .check => 1
  | .short => 2
  | .unknown => 3
  | .range => 4
  | .state => 5
  | .duplicate => 6
  | .already => 7

def PlantResult.code : PlantResult → Nat
  | .ok => 0
  | .busy => 1
  | .state => 2
  | .range => 3
  | .nocall => 4
  | .already => 5
  | .invalid => 6
  | .overlap => 7
  | .aborted => 8

def CloseReason.code : CloseReason → Nat
  | .targetMet => 1
  | .lengthEnd => 2
  | .overtimeLimit => 3
  | .command => 4
  | .newShift => 5

def AckSource.code : AckSource → Nat
  | .line => 1
  | .plant => 2

/-- The reason bits of a zone byte. -/
def ReasonSet.bits (r : ReasonSet) : Nat :=
  bitAt 0 r.hold + bitAt 1 r.plan + bitAt 2 r.xstop + bitAt 3 r.blocked + bitAt 4 r.starved

/-- A two-byte signed field. -/
def signed16 (i : Int) : List Byte := be16 (BitVec.ofInt 16 i).toNat

/-- The bits of some flags, the first at bit `k`. -/
def flagBits (k : Nat) : List Bool → Nat
  | [] => 0
  | b :: rest => bitAt k b + flagBits (k + 1) rest

/-! ### The line status block (R129, R180) -/

/-- A zone's byte: reason bits and OVERRUN; 0 for an unused zone. -/
def State.zoneByte (s : State) (k : Fin 6) : Byte :=
  let z := s.tracker.zones.at_ k
  if s.layout.zoneUsed k then byteOf (z.reasons.bits + bitAt 7 z.overrun) else 0

/-- A buffer's byte: count and slip flags; 0 for an unused buffer. -/
def State.bufferByte (s : State) (k : Fin 5) : Byte :=
  let b := s.tracker.buffers.at_ k
  if s.layout.bufferUsed k then byteOf (b.count % 16 + bitAt 4 b.overSlip + bitAt 5 b.underSlip) else 0

/-- The first 15 bytes of the block. -/
def State.lineBytes (s : State) : List Byte :=
  (List.finRange 6).map s.zoneByte ++ (List.finRange 5).map s.bufferByte ++
    [ byteOf (s.timer.state.code + 16 * s.line.lastResult.code),
      byteOf (s.callList.calls.length % 64 + bitAt 6 (s.plant.link.state = .lost) + bitAt 7 s.alert.xalert.taken),
      byteOf (s.callList.holdCount % 64 + bitAt 6 s.line.broadcastMissed + bitAt 7 s.tiles.fault),
      byteOf (s.line.freeSlots % 32) ]

/-- The 16 bytes of the block; they sum to 0 modulo 256. -/
def State.lineBlock (s : State) : List Byte := s.lineBytes ++ [0 - byteSum s.lineBytes]

/-! ### READ STATUS (R137) -/

/-- The flag byte (c12, READ STATUS). -/
def State.flagByte (s : State) : Byte :=
  byteOf (flagBits 0
    [ s.plant.collision, s.lineDown, s.plant.link.state ≠ .up, s.alert.xalert.taken, s.alert.asserted,
      s.timer.state = .closing, s.engine.overflow, s.tiles.fault ])

/-- The 8-byte status. -/
def State.statusBytes (s : State) : List Byte :=
  [byteOf s.timer.state.code, s.flagByte, byteOf s.plant.lastResult.code, byteOf s.callList.calls.length]
    ++ be32 s.timer.runClock

/-- A byte of the presence extension: one bit per ABSENT tile of tiles 8i to 8i + 7. -/
def TileDriver.presenceByte (t : TileDriver) (i : Nat) : Byte :=
  byteOf (flagBits 0 ((List.range 8).map fun j =>
    match index 30 (8 * i + j) with
    | some k => (t.tiles.at_ k).absent
    | none => false))

/-- The presence extension. -/
def TileDriver.presenceBytes (t : TileDriver) : List Byte := (List.range 4).map t.presenceByte

/-! ### READ STATION (R138) -/

/-- The record of a station. Where the station has no zone its presence bit is clear, and the zone bits are sent as 0
(DESIGN CHOICE, log 35). -/
def State.stationBytes (s : State) (st : Fin 48) : List Byte :=
  let r := s.stations.at_ st
  [ byteOf (bitAt 7 (s.layout.enabled st) +
      match s.layout.stationZone st with
      | some k => 64 + k.val
      | none => 0),
    byteOf (s.layout.stations.at_ st).length ]
  ++ be16 (r.openCall.getD 0)
  ++ [byteOf r.callsShift]
  ++ be16 r.chargedLoss
  ++ [match r.lastKind with
      | some k => byteOf k.code
      | none => 0xFF]

/-! ### READ PACE (R140) -/

/-- The pace block. -/
def State.paceBlock (s : State) : List Byte :=
  let t := s.timer
  let f := s.pace.figures
  be16 t.number ++ be16 t.clock ++ be16 t.wc ++ [BitVec.ofInt 8 t.correction]
    ++ be16 t.plan.length ++ be16 t.plan.takt ++ be16 t.plan.overtime
    ++ [byteOf (bitAt 0 t.staged.isSome + bitAt 1 t.next.isSome)]
    ++ be32 s.pace.base ++ be16 s.pace.rebaseMark ++ be16 s.pace.actual
    ++ be16 f.rp ++ be32 f.em ++ be32 f.gm ++ be16 f.e ++ be16 f.g
    ++ signed16 f.gap ++ be16 (f.pace.getD 0xFFFF)

/-! ### READ LOSS (R32, R110, R140) -/

/-- The five reason seconds, in the cause order of R98. -/
def ReasonSeconds.toList (r : ReasonSeconds) : List Nat := [r.xstop, r.hold, r.stall, r.blocked, r.starved]

/-- The five kind seconds, in kind order. -/
def KindSeconds.toList (r : KindSeconds) : List Nat := [r.quality, r.parts, r.equipment, r.safety, r.help]

/-- A zone's byte of READ LOSS: reason bits, STALL and OVERRUN. -/
def ZoneState.lossByte (z : ZoneState) : Byte := byteOf (z.reasons.bits + bitAt 5 z.stall + bitAt 7 z.overrun)

/-- A buffer's byte of READ LOSS. -/
def Buffer.lossByte (b : Buffer) : Byte := byteOf (b.count % 16 + bitAt 4 b.overSlip + bitAt 5 b.underSlip)

/-- The reason seconds of six zones, 2 bytes each. -/
def reasonFields (zones : Tab ZoneLoss 6) : List (List Byte) :=
  (List.finRange 6).flatMap fun k => (zones.at_ k).reasons.toList.map be16

/-- The kind seconds of six zones, 2 bytes each. -/
def kindFields (zones : Tab ZoneLoss 6) : List (List Byte) :=
  (List.finRange 6).flatMap fun k => (zones.at_ k).kinds.toList.map be16

/-- The entries of READ LOSS, in order. -/
def State.lossEntries (s : State) : List (List Byte) :=
  (List.finRange 6).map (fun k => [(s.tracker.zones.at_ k).lossByte])
    ++ (List.finRange 5).map (fun k => [(s.tracker.buffers.at_ k).lossByte])
    ++ reasonFields s.loss.zones ++ kindFields s.loss.zones
    ++ (List.finRange 6).map (fun k => be16 (s.lostCars (s.loss.zones.at_ k).reasons.toList.sum))
    ++ [be16 s.loss.lineLost, be16 s.lineLostCars, be16 s.loss.opened, be16 s.loss.closed,
        be16 s.loss.longestHold]

/-! ### READ SUMMARY (R108, R109) -/

/-- The header of a record behind a slot state. -/
def Summary.header (r : Summary) (state : Nat) : List Byte :=
  [byteOf state] ++ be16 r.number ++ be32 r.openedAt ++ [byteOf r.reason.code]

/-- The header of a slot; 0 after the state byte for EMPTY. -/
def Slot.header : Slot → List Byte
  | .empty => List.replicate 8 0
  | .writing r => r.header 1
  | .complete r => r.header 2

/-- The body of a COMPLETE record, with the completion marker. -/
def Summary.body (r : Summary) : List Byte :=
  be32 r.closedAt ++ be16 r.takt ++ be16 r.target ++ be16 r.expected ++ be16 r.actual ++ be16 r.productive
    ++ [byteOf r.used] ++ be16 r.lineLost ++ be16 r.lineLostCars
    ++ (reasonFields r.zones).flatten ++ (kindFields r.zones).flatten
    ++ be16 r.opened ++ be16 r.closed ++ [byteOf r.carried] ++ be16 r.longestHold
    ++ (List.finRange 48).flatMap (fun st => [byteOf (r.rows.at_ st).calls] ++ be16 (r.rows.at_ st).loss)
    ++ [0xA5]

/-- The body a slot serves: a COMPLETE one alone has one. -/
def Slot.body : Slot → List Byte
  | .complete r => r.body
  | .empty => []
  | .writing _ => []

/-- The slot READ SUMMARY serves; with no slot selected it is as EMPTY (R109). -/
def Archive.selected (a : Archive) (slot : Option (Fin 4)) : Slot :=
  match slot with
  | some k => a.slots.at_ k
  | none => .empty

/-! ### Call and history records (R182) -/

/-- The acknowledgement of a record: source, then id and time where there is one. -/
def ackBytes : Option Ack → List Byte
  | none => [0]
  | some a => [byteOf a.source.code, byteOf a.id] ++ be32 a.time

/-- The kinds count and the kinds. -/
def kindBytes (ks : List Kind) : List Byte := byteOf ks.length :: ks.map fun k => byteOf k.code

/-- A length byte, counting itself, before the bytes of a record. -/
def withLength (bs : List Byte) : List Byte := byteOf (bs.length + 1) :: bs

/-- A call record of READ CALLS. -/
def Call.bytes (c : Call) : List Byte :=
  withLength (be16 c.number ++ [byteOf c.station.val, byteOf c.zone.val,
      byteOf (bitAt 7 (c.phase = .hold) + bitAt 6 c.everHeld + c.level % 4), byteOf c.remaining]
    ++ be32 c.openedAt ++ be16 c.openedTag
    ++ be16 c.escalation ++ be16 c.grace ++ be16 c.holdTime
    ++ kindBytes c.kinds ++ ackBytes c.ack)

/-- The way of closing, with its id where there is one. -/
def ClosedBy.bytes : ClosedBy → List Byte
  | .station => [1]
  | .leader id => [2, byteOf id]
  | .plant id => [3, byteOf id]

/-- A history record of READ HISTORY. -/
def HistoryRecord.bytes (r : HistoryRecord) : List Byte :=
  withLength (be16 r.number ++ [byteOf r.station.val, byteOf r.zone.val] ++ kindBytes r.kinds
    ++ be32 r.openedAt ++ be16 r.openedTag ++ be32 r.closedAt ++ be16 r.closedTag ++ be16 r.holdTime
    ++ [byteOf (bitAt 7 r.everHeld + bitAt 6 r.droppedBefore + r.maxLevel % 4)]
    ++ r.closedBy.bytes ++ ackBytes r.ack)

end Sys2Proof.Machine
end

