-- ==== Sys2Proof/Machine/LinePort.lean ====
section
/-! DEFINITION. The Line Port: address bytes, the line status read, frames judged into the Line Intake Queue,
frames taken from its head, and the line link (R122 to R131). -/

namespace Sys2Proof.Machine

/-! ### Link supervision, the same table for both ports (R130, R141) -/

/-- A link at a restart (R130). -/
def Link.restarted (l : Link) : Link := { l with state := .up, count := 0 }

/-- The count at or above the timeout, where one is set (R130). -/
def Link.expired (timeout : Option Nat) (count : Nat) : Bool :=
  match timeout with
  | some n => n ≤ count
  | none => false

/-- A link at a link second (R130): the count rises, saturating at 60; UP becomes LOST at the timeout. -/
def Link.second (l : Link) : Link :=
  let c := satSucc Config.linkCountMax l.count
  { l with count := c, state := if l.state = .up ∧ Link.expired l.timeout c then .lost else l.state }

/-- The requests of a change of line link state since `old` (R131). -/
def raiseLineLink (old s : State) : State :=
  if s.line.link.state = old.line.link.state then s
  else s.raise .stations |>.raise .ticker |>.raise .banner

/-- The line link timer restarted (R130). -/
def restartLineLink (s : State) : State :=
  raiseLineLink s (s.onLine fun l => { l with link := l.link.restarted })

/-- A line link second (R130). -/
def lineLinkSecond (s : State) : State := raiseLineLink s (s.onLine fun l => { l with link := l.link.second })

/-! ### Address bytes and the status read (R123, R129) -/

/-- The Line Port's answer to an address byte and what it does with the transaction; the bytes after it follow. -/
def LinePort.addressed (l : LinePort) (answer : BusAnswer) (phase : LinePhase) : LinePort :=
  { l with answer := answer, phase := phase, byteAnswers := [], clock := { LineClock.stopped with place := .data } }

/-- The status read: the block is captured, then the broadcast-missed flag cleared, and the link timer
restarted (R129). -/
def statusRead (s : State) : State :=
  restartLineLink (s.onLine fun l =>
    { l.addressed .ack (.serving s.lineBlock) with broadcastMissed := false })

/-- The Line Intake Queue has a free slot (R126). -/
def LinePort.hasSlot (l : LinePort) : Bool := l.queue.length < Config.queueDepth

/-- A write to the own address (R123). -/
def LinePort.ownWrite (l : LinePort) : LinePort :=
  if l.hasSlot then l.addressed .ack .receiving else l.addressed .nack .ignoring

/-- A broadcast write (R123). -/
def LinePort.broadcastWrite (l : LinePort) : LinePort :=
  if l.broadcastEnable then
    if l.hasSlot then l.addressed .ack .receiving
    else { l.addressed .unanswered .ignoring with broadcastMissed := true }
  else l.addressed .unanswered .ignoring

/-- An address byte, by the table of R123. -/
def takeAddress (b : Byte) (s : State) : State :=
  if addressOf b = s.ownAddress then
    if isRead b then statusRead s else s.onLine LinePort.ownWrite
  else if addressOf b = 0 ∧ isRead b = false then s.onLine LinePort.broadcastWrite
  else s.onLine fun l => l.addressed .unanswered .ignoring

/-! ### Frames into the queue (R124, R125) -/

/-- The end of a taken write transaction: its frame judged (R125). A good frame joins the queue and restarts
the link timer; a discarded one leaves its outcome. -/
def judged (bytes : List Byte) (s : State) : State :=
  let s := s.onLine fun l => { l with phase := .idle, byteAnswers := frameAnswers bytes, clock := .stopped }
  match judgeFrame bytes with
  | .error r => s.onLine fun l => { l with lastResult := r }
  | .ok f => restartLineLink (s.onLine fun l => { l with queue := l.queue ++ [f] })

/-- The end of a write transaction with the bytes received after the address byte; the bits of a byte cut
short are discarded (R124). A transaction that was not taken leaves nothing to judge (R123). -/
def endTransaction (bytes : List Byte) (s : State) : State :=
  if s.line.phase = .receiving then judged bytes s
  else s.onLine fun l => { l with phase := .idle, clock := .stopped }

/-! ### Frames out of the queue (R126 to R128) -/

/-- What a block does with a frame of its type: its new state and the result. -/
abbrev FrameRule := Frame → Option (State → State × LineResult)

/-- The oldest frame leaves the queue and is applied whole; its result becomes the last line result (R126).
Where no frame waits, or the oldest is of another type, no frame leaves (log 4). -/
def takeFrame (rule : FrameRule) (s : State) : State :=
  match s.line.queue with
  | [] => s
  | f :: rest =>
    match rule f with
    | none => s
    | some apply =>
      let r := apply (s.onLine fun l => { l with queue := rest })
      r.1.onLine fun l => { l with lastResult := r.2 }

/-- COUNT ADJUST judged and applied (R92). -/
def applyCountAdjust (delta : Int) (s : State) : State × LineResult :=
  if s.timer.state.isOpen then (changeActual (adjustedActual s.pace.actual delta) s, .ok) else (s, .state)

/-- A result of the Shift Timer as the Line Port's. -/
def lineVerdict (r : State × Verdict) : State × LineResult := (r.1, r.2.line)

def pullRule : FrameRule
  | .pull st kind progress => some (applyPull st.toNat kind.toNat progress.toNat)
  | _ => none

def releaseRule : FrameRule
  | .release st => some (applyRelease st.toNat)
  | _ => none

def leaderAckRule : FrameRule
  | .leaderAck st leader => some (applyLeaderAck st.toNat leader.toNat)
  | _ => none

def leaderResetRule : FrameRule
  | .leaderReset st leader => some (applyLeaderReset st.toNat leader.toNat)
  | _ => none

def bufferSetRule : FrameRule
  | .bufferSet b n => some (applyBufferSet b.toNat n.toNat)
  | _ => none

def countAdjustRule : FrameRule
  | .countAdjust d => some (applyCountAdjust d.toInt)
  | _ => none

def shiftStartRule : FrameRule
  | .shiftStart n o => some fun s => lineVerdict (applyShiftStart n.toNat o.toNat s)
  | _ => none

def timeMarkRule : FrameRule
  | .timeMark n t => some fun s => lineVerdict (applyTimeMark n.toNat t.toNat s)
  | _ => none

def keepaliveRule : FrameRule
  | .keepalive => some fun s => (s, .ok)
  | _ => none

/-- The bytes the Line Port serves on a read: the captured block, 0xFF past its 16th byte (R129). -/
def LinePort.served (l : LinePort) (i : Nat) : Byte :=
  match l.phase with
  | .serving block => block.getD i 0xFF
  | .idle | .receiving | .ignoring => 0xFF

/-! ### Meanings -/

/-- LINE_LINK_SECOND (R130). -/
def execLineLinkSecond (s : State) : Result := event lineLinkSecond s

/-- LINE_STATUS_READ: the address byte of a read at the own address (R129). -/
def execLineStatusRead (s : State) : Result := event statusRead s

/-- LINE_FRAME (R124, R125). -/
def execLineFrame (bytes : List Byte) (_partialBits : Nat) (s : State) : Result := event (endTransaction bytes) s

/-- PULL (R38). -/
def execPull (s : State) : Result := centreEvent (takeFrame pullRule) s

/-- RELEASE (R47). -/
def execRelease (s : State) : Result := centreEvent (takeFrame releaseRule) s

/-- LEADER_ACK (R53). -/
def execLeaderAck (s : State) : Result := event (takeFrame leaderAckRule) s

/-- LEADER_RESET (R48). -/
def execLeaderReset (s : State) : Result := centreEvent (takeFrame leaderResetRule) s

/-- BUFFER_SET (R19). -/
def execBufferSet (s : State) : Result := centreEvent (takeFrame bufferSetRule) s

/-- COUNT_ADJUST (R92). -/
def execCountAdjust (s : State) : Result := centreEvent (takeFrame countAdjustRule) s

/-- LINE_SHIFT_START (R70, R71). -/
def execLineShiftStart (s : State) : Result := centreEvent (takeFrame shiftStartRule) s

/-- TIME_MARK (R77). -/
def execTimeMark (s : State) : Result := event (takeFrame timeMarkRule) s

/-- KEEPALIVE (R127). -/
def execKeepalive (s : State) : Result := event (takeFrame keepaliveRule) s

end Sys2Proof.Machine
end

