-- ==== Sys2Proof/Machine/LineWires.lean ====
section
/-! DEFINITION. The two wires of the Line Port: START, STOP, the bits of each byte, and what the part drives onto SDA
(R122). -/

namespace Sys2Proof.Machine

/-! ### What SDA is driven to (R122 to R124) -/

/-- SDA at the acknowledge bit, true when released: LOW to ACK a byte received. -/
def LinePort.acknowledgeLevel (l : LinePort) : Bool :=
  match l.clock.place, l.phase with
  | .address, _ => l.answer != .ack
  | .data, .receiving => l.byteAnswers.getLast? != some .ack
  | .data, .idle | .data, .ignoring | .data, .serving _ | .stopped, _ => true

/-- SDA at the next data bit, true when released: the next bit of the byte served, in a read. -/
def LinePort.dataLevel (l : LinePort) : Bool :=
  match l.clock.place, l.phase with
  | .data, .serving _ => (l.served l.clock.sent).getMsbD l.clock.bits.length
  | .data, .idle | .data, .ignoring | .data, .receiving | .stopped, _ | .address, _ => true

/-- SCL falls: the part drives the level of the bit that comes. -/
def LinePort.driven (l : LinePort) : LinePort :=
  { l with clock := { l.clock with
    sda := if l.clock.bits.length < 8 then l.dataLevel else l.acknowledgeLevel } }

/-- SDA as the part drives it, true when released; in hard reset the Line Port does not answer (R178). -/
def State.sdaReleased (s : State) : Bool := s.inReset || s.line.clock.sda

/-! ### The bits of a byte (R122) -/

/-- A bit of a byte taken. -/
def LineClock.shifted (c : LineClock) (sda : Bool) : LineClock := { c with bits := c.bits ++ [sda] }

/-- The last bit of a byte after the address byte: the byte joins the frame, or has been served. -/
def LinePort.dataByte (l : LinePort) (sda : Bool) : LinePort :=
  let c := l.clock.shifted sda
  match l.phase with
  | .receiving =>
    let bytes := c.bytes ++ [byteOfBits c.bits]
    { l with byteAnswers := frameAnswers bytes, clock := { c with bytes := bytes } }
  | .serving _ => { l with clock := { c with sent := c.sent + 1 } }
  | .idle | .ignoring => { l with clock := c }

/-- The acknowledge bit of a byte: the controller's NACK ends a read. -/
def LinePort.acknowledged (l : LinePort) (sda : Bool) : LinePort :=
  let c : LineClock := { l.clock with place := .data, bits := [] }
  match l.clock.place, l.phase with
  | .data, .serving _ => { l with phase := if sda then .ignoring else l.phase, clock := c }
  | .data, .idle | .data, .ignoring | .data, .receiving | .stopped, _ | .address, _ => { l with clock := c }

/-- The last bit of an address byte: the byte acts as R123 says, its acknowledge bit still to come. -/
def addressByteClocked (sda : Bool) (s : State) : State :=
  let c := s.line.clock.shifted sda
  (takeAddress (byteOfBits c.bits) s).onLine fun l => { l with clock := c }

/-- SCL rises: a bit is taken from SDA (R122). The eighth completes its byte (log 34). -/
def sclRises (sda : Bool) (s : State) : State :=
  let c := s.line.clock
  if c.place = .stopped then s
  else if c.bits.length < 7 then s.onLine fun l => { l with clock := c.shifted sda }
  else if 7 < c.bits.length then s.onLine fun l => l.acknowledged sda
  else if c.place = .address then addressByteClocked sda s
  else s.onLine fun l => l.dataByte sda

/-! ### START and STOP (R122, R124) -/

/-- A STOP: the transaction ends with the bytes received; the bits of a byte cut short are discarded (R124). -/
def stopTaken (s : State) : State := endTransaction s.line.clock.bytes s

/-- A START; a repeated one ends the transaction before it (R124). -/
def startTaken (s : State) : State :=
  (stopTaken s).onLine fun l => { l with clock := { LineClock.stopped with place := .address } }

/-- An edge of the two wires. SDA's are a START or a STOP while SCL is HIGH, and no condition while it is LOW. -/
def lineEdge (e : LineEdge) (s : State) : State :=
  match e with
  | .sclRises sda => sclRises sda s
  | .sclFalls => s.onLine LinePort.driven
  | .sdaFalls scl => if scl then startTaken s else s
  | .sdaRises scl => if scl then stopTaken s else s

/-! ### Meaning -/

/-- ADDRESS_BYTE (R122, R123): whole, or edge by edge with the bytes that follow it. -/
def execAddressByte (input : AddressInput) (s : State) : Result :=
  event (match input with
    | .byte b => takeAddress b
    | .edge e => lineEdge e) s

end Sys2Proof.Machine
end

