-- ==== Sys2Proof/Machine/PlantPort.lean ====
section
/-! DEFINITION. The Plant Port: framing, results, the plant link, the streamed reads, and the commands of the
Shift Timer, the Call List, the layout, the policy and the links (R132 to R142, R116 to R119). -/

namespace Sys2Proof.Machine

/-! ### The plant link (R141) -/

/-- The plant link takes a value; entry into LOST and exit from it request the BANNER (R141). -/
def setPlantLink (l : Link) (s : State) : State :=
  (s.onPlant fun p => { p with link := l }).raiseIf
    (decide (l.state = .lost) != decide (s.plant.link.state = .lost)) .banner

/-- The plant link timer restarted (R141). -/
def restartPlantLink (s : State) : State := setPlantLink s.plant.link.restarted s

/-- A plant link second (R141). -/
def plantLinkSecond (s : State) : State := setPlantLink s.plant.link.second s

/-! ### Framing (R132, R133) -/

/-- The transaction takes a form. -/
def setTransaction (t : Transaction) (s : State) : State := s.onPlant fun p => { p with transaction := t }

/-- The last plant result takes a value (R134). -/
def setPlantResult (r : PlantResult) (s : State) : State := s.onPlant fun p => { p with lastResult := r }

/-- The command byte of command `c`: the link restarts (R141). For a command with arguments this is an event
before the one that takes it. -/
def commandByteTaken (c : PlantCommand) (s : State) : State :=
  if c.argBytes = 0 then restartPlantLink s else serve (restartPlantLink s)

/-- The state in which command `c` is taken, where the decoder is in one: ready for it, or with its command
byte already taken. Otherwise its bytes are ignored (R132, log 6). -/
def State.decoded (s : State) (c : PlantCommand) : Option State :=
  match s.plant.transaction with
  | .ready => some (commandByteTaken c s)
  | .arguments d => if d = c then some s else none
  | .waiting | .ignoring | .status _ | .station _ _ | .calls _ _ | .pace _ | .loss _ _ | .summary _ _
  | .history _ | .pixelsIn _ | .pixelsRefused | .pixelsOut _ => none

/-- What an owning block does with a command: its new state and the result. -/
abbrev CommandRule := State → State × PlantResult

/-- A command that changes state, taken and applied as one event; its result becomes the last plant result
and later bytes are ignored until CS rises (R133, R134). -/
def takeCommand (c : PlantCommand) (rule : CommandRule) (s : State) : State :=
  match s.decoded c with
  | none => s
  | some t =>
    let r := rule t
    setTransaction .ignoring (setPlantResult r.2 r.1)

/-- A read taken: the transaction takes the form that serves its reply (R133). -/
def takeRead (c : PlantCommand) (reply : State → Transaction) (s : State) : State :=
  match s.decoded c with
  | none => s
  | some t => setTransaction (reply t) t

/-- The last plant result at CS rising (R133, R151). -/
def resultAtCsRising (t : Transaction) (partialBytes : Nat) (r : PlantResult) : PlantResult :=
  match t with
  | .arguments c => if c.changesState then .aborted else r
  | .pixelsIn _ => if 0 < partialBytes then .aborted else .ok
  | .waiting | .ready | .ignoring | .status _ | .station _ _ | .calls _ _ | .pace _ | .loss _ _
  | .summary _ _ | .history _ | .pixelsRefused | .pixelsOut _ => r

/-- CS falling begins a transaction (R132): with CS already LOW there is no falling edge. -/
def csFalls (s : State) : State :=
  if s.plant.transaction = .waiting then s.onPlant fun p => { p with transaction := .ready, clock := .start } else s

/-- CS rising ends the transaction (R132, R133). The bytes of an incomplete group are those given with it and those
clocked bit by bit. -/
def csRises (partialBytes : Nat) (s : State) : State :=
  s.onPlant fun p =>
    { p with
      transaction := .waiting
      lastResult := resultAtCsRising p.transaction (partialBytes + p.clock.bytes.length) p.lastResult
      clock := .start }

/-- A command byte of an unknown code, taken while the decoder is ready for one (R132). -/
def unknownCode (code : Byte) (s : State) : State :=
  if s.plant.transaction = .ready ∧ decodePlantCode code = none then setTransaction .ignoring s else s

/-- A command byte of a recognised command that takes arguments (R141); the byte of another command is taken
by that command's own row. -/
def argumentsFollow (code : Byte) (s : State) : State :=
  match decodePlantCode code with
  | none => s
  | some c =>
    if s.plant.transaction = .ready ∧ 0 < c.argBytes then setTransaction (.arguments c) (restartPlantLink s)
    else s

/-! ### Replies (R135 to R140, R109, R116) -/

/-- READ STATUS captured at its first reply byte (R137). -/
def captureStatus (s : State) : State :=
  match s.plant.transaction with
  | .status none =>
    setTransaction (.status (some
      { bytes := s.statusBytes, shownCollision := s.plant.collision, collisionSince := false
        extension := none })) s
  | _ => s

/-- The flag byte's last bit has been clocked out (R137). -/
def flagByteSent (s : State) : State :=
  match s.plant.transaction with
  | .status (some r) =>
    if r.shownCollision ∧ r.collisionSince = false then s.onPlant fun p => { p with collision := false } else s
  | _ => s

/-- The presence extension captured at its first byte (R137). -/
def capturePresence (s : State) : State :=
  match s.plant.transaction with
  | .status (some r) =>
    if r.extension = none then
      setTransaction (.status (some { r with extension := some s.tiles.presenceBytes })) s
    else s
  | _ => s

/-- The reply of READ STATION; 0xFF in every byte for a station number above 47 (R138). -/
def State.stationReply (s : State) (n : Nat) : List Byte :=
  match index 48 n with
  | some st => s.stationBytes st
  | none => List.replicate 8 0xFF

/-- READ STATION captured at its first reply byte (R138). -/
def captureStation (s : State) : State :=
  match s.plant.transaction with
  | .station n none => setTransaction (.station n (some (s.stationReply n.toNat))) s
  | _ => s

/-- The next noted call still open, and the notes left after it (R139). -/
def CallList.nextNoted (c : CallList) : List Nat → Option (Call × List Nat)
  | [] => none
  | n :: rest =>
    match c.numbered n with
    | some x => some (x, rest)
    | none => c.nextNoted rest

/-- A slot of READ CALLS begins: the next noted call's record, or an end marker (R139). -/
def beginCallSlot (s : State) : State :=
  match s.plant.transaction with
  | .calls noted _ =>
    match s.callList.nextNoted noted with
    | some (x, rest) => setTransaction (.calls rest x.bytes) s
    | none => setTransaction (.calls [] [0]) s
  | _ => s

/-- READ PACE captured at its first reply byte (R140). -/
def capturePace (s : State) : State :=
  match s.plant.transaction with
  | .pace none => setTransaction (.pace (some s.paceBlock)) s
  | _ => s

/-- The next entry of READ LOSS captured at its first byte (R140). -/
def captureLossEntry (s : State) : State :=
  match s.plant.transaction with
  | .loss n _ =>
    match s.lossEntries[n]? with
    | some e => setTransaction (.loss (n + 1) e) s
    | none => setTransaction (.loss n []) s
  | _ => s

/-- READ SUMMARY's slot state, header and body taken at its first reply byte; the body of a COMPLETE slot
stands until a close takes the slot, which cuts the reply (R109, log 25). -/
def captureSummary (s : State) : State :=
  match s.plant.transaction with
  | .summary slot none =>
    let x := s.archive.selected slot
    setTransaction (.summary slot (some { header := x.header, body := x.body, cut := false })) s
  | _ => s

/-- The record the cursor designates (R115). -/
def State.designated (s : State) : Option HistoryRecord :=
  match s.plant.historyCursor with
  | some n => s.history[n]?
  | none => none

/-- A slot of READ HISTORY begins by the cursor (R116). -/
def beginHistorySlot (s : State) : State :=
  match s.plant.transaction with
  | .history _ => setTransaction (.history (some { record := s.designated, live := true })) s
  | _ => s

/-- The last byte of a slot clocked out: past a record the cursor still designates, the cursor moves (R116,
R120). -/
def endHistorySlot (s : State) : State :=
  match s.plant.transaction with
  | .history (some sl) =>
    let moved (p : PlantPort) : Option Nat :=
      match sl.record, p.historyCursor with
      | some _, some n => if sl.live then cursorPast s.history n else some n
      | _, c => c
    s.onPlant fun p => { p with transaction := .history none, historyCursor := moved p }
  | _ => s

/-- READ PIXELS's two bytes of a pixel (c12). -/
def Pixel.bytes (p : Pixel) : List Byte :=
  [byteOf (p.r.toNat * 16 + p.g.toNat), byteOf (p.b.toNat * 16)]

/-- Byte `i` of the reply in progress, counted within the slot, entry or pixel in flight where the reply is cut
into these; 0xFF past its end and where no reply is served, but 0 past the last record of
READ CALLS (R132, R135, R139). -/
def Transaction.reply (t : Transaction) (i : Nat) : Byte :=
  match t with
  | .status (some r) => (r.bytes ++ r.extension.getD []).getD i 0xFF
  | .station _ (some r) => r.getD i 0xFF
  | .calls noted slot => slot.getD i (if noted = [] then 0 else 0xFF)
  | .pace (some b) => b.getD i 0xFF
  | .loss _ e => e.getD i 0xFF
  | .summary _ (some r) => if r.cut then 0xFF else (r.header ++ r.body).getD i 0xFF
  | .history (some sl) =>
    match sl.record with
    | some r => r.bytes.getD i 0xFF
    | none => 0
  | .pixelsOut (some p) => p.bytes.getD i 0xFF
  | .waiting | .ready | .arguments _ | .ignoring | .status none | .station _ none | .pace none
  | .summary _ none | .history none | .pixelsIn _ | .pixelsRefused | .pixelsOut none => 0xFF

/-- What MISO drives in a transaction; `none` is high-impedance, where no transaction has begun (R132, log 32). -/
def Transaction.served (t : Transaction) (i : Nat) : Option Byte :=
  if t = .waiting then none else some (t.reply i)

/-- MISO: high-impedance in hard reset too (R178). -/
def State.miso (s : State) (i : Nat) : Option Byte := if s.inReset then none else s.plant.transaction.served i

/-! ### Commands of the owning blocks -/

/-- A result of the Shift Timer as the Plant Port's. -/
def plantVerdict (r : State × Verdict) : State × PlantResult := (r.1, r.2.plant)

/-- STAGE PLAN judged and stored (R64). -/
def applyStagePlan (length takt overtime : Half) (count : Byte) (breaks : Vector BreakArg 6) : CommandRule :=
  fun s =>
    match judgePlan length.toNat takt.toNat overtime.toNat count.toNat breaks.toList with
    | .error r => (s, r)
    | .ok p => (s.onTimer fun t => { t with staged := some p }, .ok)

/-- DISCARD PLAN (R66). -/
def applyDiscard : CommandRule := fun s => (s.onTimer fun t => { t with staged := none }, .ok)

/-- SHIFT CLOSE (R74). -/
def applyShiftClose : CommandRule := fun s =>
  if s.timer.state.isOpen then (handOn s (startClose .command s), .ok) else (s, .state)

/-- WRITE POLICY (R57). -/
def applyPolicy (thresholds : Vector Half 15) (grace : Half) : CommandRule := fun s =>
  (s.onCalls fun c => { c with policy := storedPolicy thresholds grace }, .ok)

/-- REWIND HISTORY (R119). -/
def applyRewind : CommandRule := fun s => (s.onPlant fun p => { p with historyCursor := rewound s.history }, .ok)

/-- The alert mask of a settings byte (c12). -/
def maskOf (settings : Byte) : Causes :=
  { level3 := settings.toNat.testBit 1, overrun := settings.toNat.testBit 2, stall := settings.toNat.testBit 3 }

/-- WRITE LINK SETTINGS (R142). -/
def applyLinkSettings (lineCode plantCode settings : Byte) : CommandRule := fun s =>
  if 3 < lineCode.toNat ∨ 3 < plantCode.toNat then (s, .range)
  else
    ({ s with
        line := { s.line with
          link := { s.line.link with timeout := Config.lineTimeout lineCode.toNat }
          broadcastEnable := settings.toNat.testBit 0 }
        plant := { s.plant with link := { s.plant.link with timeout := Config.plantTimeout plantCode.toNat } }
        alert := { s.alert with mask := maskOf settings } }, .ok)

/-! ### Meanings: framing and the link -/

/-- PLANT_LINK_SECOND (R141). -/
def execPlantLinkSecond (s : State) : Result := event plantLinkSecond s

/-- CS_FALLING (R132). -/
def execCsFalling (s : State) : Result := event csFalls s

/-- CS_RISING (R132, R133), with the whole bytes and the bits of an incomplete group. -/
def execCsRising (partialBytes _partialBits : Nat) (s : State) : Result := event (csRises partialBytes) s

/-- UNKNOWN_COMMAND (R132). -/
def execUnknownCommand (code : Byte) (s : State) : Result := event (unknownCode code) s

/-! ### Meanings: reads -/

/-- READ_STATUS (R137). -/
def execReadStatus (m : ReadMoment) (s : State) : Result :=
  event (match m with
    | .taken => takeRead .readStatus fun _ => .status none
    | .firstByte => captureStatus) s

/-- STATUS_FLAG_BYTE_SENT (R137). -/
def execStatusFlagByteSent (s : State) : Result := event flagByteSent s

/-- PRESENCE_EXTENSION (R137). -/
def execPresenceExtension (s : State) : Result := event capturePresence s

/-- READ_STATION (R138). -/
def execReadStation (m : ArgReadMoment) (s : State) : Result :=
  event (match m with
    | .taken n => takeRead .readStation fun _ => .station n none
    | .firstByte => captureStation) s

/-- READ_CALLS (R139): the calls open at the command byte are noted, in list order. -/
def execReadCalls (s : State) : Result :=
  event (takeRead .readCalls fun t => .calls (t.callList.calls.map Call.number) []) s

/-- CALL_RECORD_SLOT (R139). -/
def execCallRecordSlot (s : State) : Result := event beginCallSlot s

/-- READ_PACE (R140). -/
def execReadPace (m : ReadMoment) (s : State) : Result :=
  event (match m with
    | .taken => takeRead .readPace fun _ => .pace none
    | .firstByte => capturePace) s

/-- READ_LOSS (R140). -/
def execReadLoss (m : ReadMoment) (s : State) : Result :=
  event (match m with
    | .taken => takeRead .readLoss fun _ => .loss 0 []
    | .firstByte => captureLossEntry) s

/-- READ_SUMMARY (R109). -/
def execReadSummary (m : ArgReadMoment) (s : State) : Result :=
  event (match m with
    | .taken age => takeRead .readSummary fun t => .summary (t.archive.aged age.toNat) none
    | .firstByte => captureSummary) s

/-- READ_HISTORY (R116). -/
def execReadHistory (s : State) : Result := event (takeRead .readHistory fun _ => .history none) s

/-- HISTORY_SLOT (R116). -/
def execHistorySlot (m : SlotMoment) (s : State) : Result :=
  event (match m with
    | .begins => beginHistorySlot
    | .ends => endHistorySlot) s

/-! ### Meanings: commands of the centre -/

/-- REWIND_HISTORY (R119). -/
def execRewindHistory (s : State) : Result := event (takeCommand .rewindHistory applyRewind) s

/-- STAGE_PLAN (R64, R65). -/
def execStagePlan (length takt overtime : Half) (count : Byte) (breaks : Vector BreakArg 6) (s : State) :
    Result :=
  event (takeCommand .stagePlan (applyStagePlan length takt overtime count breaks)) s

/-- COMMIT_PLAN (R66, R67). -/
def execCommitPlan (mode : Byte) (s : State) : Result :=
  centreEvent (takeCommand .commitPlan (applyCommit mode.toNat)) s

/-- DISCARD_PLAN (R66). -/
def execDiscardPlan (s : State) : Result := event (takeCommand .discardPlan applyDiscard) s

/-- PLANT_SHIFT_START (R70, R71). -/
def execPlantShiftStart (number offset : Half) (s : State) : Result :=
  centreEvent (takeCommand .shiftStart fun s => plantVerdict (applyShiftStart number.toNat offset.toNat s)) s

/-- SHIFT_CLOSE (R74). -/
def execShiftClose (s : State) : Result := centreEvent (takeCommand .shiftClose applyShiftClose) s

/-- ACK_CALL (R54). -/
def execAckCall (number : Half) (responder : Byte) (s : State) : Result :=
  event (takeCommand .ackCall (applyAckCall number.toNat responder.toNat)) s

/-- CLEAR_CALL (R49). -/
def execClearCall (number : Half) (responder : Byte) (s : State) : Result :=
  centreEvent (takeCommand .clearCall (applyClearCall number.toNat responder.toNat)) s

/-- WRITE_LAYOUT_ZONE (R4 to R8). -/
def execWriteLayoutZone (zone used first last pitch coast stall capacity : Byte) (s : State) : Result :=
  centreEvent (takeCommand .writeLayoutZone (applyLayoutZone zone.toNat used.toNat first.toNat last.toNat
    pitch.toNat coast.toNat stall.toNat capacity.toNat)) s

/-- WRITE_LAYOUT_STATION (R4, R9). -/
def execWriteLayoutStation (station flag length : Byte) (s : State) : Result :=
  centreEvent (takeCommand .writeLayoutStation
    (applyLayoutStation station.toNat (flagOn flag) length.toNat)) s

/-- WRITE_POLICY (R57). -/
def execWritePolicy (thresholds : Vector Half 15) (grace : Half) (s : State) : Result :=
  event (takeCommand .writePolicy (applyPolicy thresholds grace)) s

/-- WRITE_LINK_SETTINGS (R142). -/
def execWriteLinkSettings (lineCode plantCode settings : Byte) (s : State) : Result :=
  centreEvent (takeCommand .writeLinkSettings (applyLinkSettings lineCode plantCode settings)) s

end Sys2Proof.Machine
end

