-- ==== Sys2Proof/Machine/FrameStoreCommands.lean ====
section
/-! DEFINITION. The plant's addressing machine over the Frame Store: window, cursor, address control, colour
mode, mask, mark, and the pixel transfers (R143 to R154). -/

namespace Sys2Proof.Machine

/-! ### Walking the window (R146, R148) -/

/-- A position clamped into a rectangle, each coordinate separately (R146). -/
def Rect.clampPoint (r : Rect) (p : Point) : Point := ⟨clamp r.x0 r.x1 p.x, clamp r.y0 r.y1 p.y⟩

/-- The start corner of the window: the start edges of both axes (R148). -/
def FrameStore.startCorner (f : FrameStore) : Point :=
  ⟨if f.control.columnMinus then f.window.x1 else f.window.x0,
   if f.control.rowMinus then f.window.y1 else f.window.y0⟩

/-- The last pixel of the window: the end edges of both axes (R148). -/
def FrameStore.lastPixel (f : FrameStore) : Point :=
  ⟨if f.control.columnMinus then f.window.x0 else f.window.x1,
   if f.control.rowMinus then f.window.y0 else f.window.y1⟩

/-- One pixel along an axis in its direction. -/
def stepAlong (minus : Bool) (v : Nat) : Nat := if minus then v - 1 else v + 1

/-- The cursor after its advance (R148). -/
def FrameStore.advanced (f : FrameStore) : Point :=
  let c := f.cursor
  let start := f.startCorner
  let last := f.lastPixel
  if f.control.rowFirst then
    if c.y ≠ last.y then ⟨c.x, stepAlong f.control.rowMinus c.y⟩
    else if c.x ≠ last.x then ⟨stepAlong f.control.columnMinus c.x, start.y⟩
    else if f.control.wrap then start else c
  else
    if c.x ≠ last.x then ⟨stepAlong f.control.columnMinus c.x, c.y⟩
    else if c.y ≠ last.y then ⟨start.x, stepAlong f.control.rowMinus c.y⟩
    else if f.control.wrap then start else c

/-- The cursor moved past a transferred pixel (R148). -/
def advanceCursor (s : State) : State := s.onFrame fun f => { f with cursor := f.advanced }

/-- The cursor brought into the window at the start of a transfer (R146). -/
def clampCursor (s : State) : State := s.onFrame fun f => { f with cursor := f.window.clampPoint f.cursor }

/-- The cursor at the window's start corner (R151, origin CORNER). -/
def cornerCursor (s : State) : State := s.onFrame fun f => { f with cursor := f.startCorner }

/-! ### Plant writes (R144, R150 to R152) -/

/-- A collision noted on a status reply in flight (R137). -/
def Transaction.collided : Transaction → Transaction
  | .status (some r) => .status (some { r with collisionSince := true })
  | t => t

/-- A collision recorded (R152). -/
def recordCollision (s : State) : State :=
  s.onPlant fun p => { p with collision := true, transaction := p.transaction.collided }

/-- A pixel written through the channel mask: a blocked channel keeps its stored value (R150). -/
def ChannelMask.merge (m : ChannelMask) (stored new : Pixel) : Pixel :=
  ⟨if m.r then stored.r else new.r, if m.g then stored.g else new.g, if m.b then stored.b else new.b⟩

/-- The frame with `p` written at the cursor through the mask (R150). -/
def FrameStore.written (f : FrameStore) (p : Pixel) : FrameStore :=
  let a := pixelAddress f.cursor.x f.cursor.y
  { f with pixels := f.pixels.write a (f.mask.merge (f.pixels.read a) p) }

/-- The pixel at the cursor is engine-owned (R144). -/
def State.cursorOwned (s : State) : Bool := s.engine.ownsPixel s.frame.cursor.x s.frame.cursor.y

/-- One pixel of a plant write: ownership, mask, advance (R151). -/
def writePixel (s : State) (p : Pixel) : State :=
  advanceCursor (if s.cursorOwned then recordCollision s else s.onFrame fun f => f.written p)

/-- A pixel group applied, pixel by pixel, in an accepted WRITE PIXELS (R151); bytes that are no complete
group of the mode apply nothing. -/
def applyGroup (bytes : List Byte) (s : State) : State :=
  match s.plant.transaction with
  | .pixelsIn mode => (groupPixels mode bytes).foldl writePixel s
  | _ => s

/-- WRITE PIXELS takes its origin (R151). -/
def takeOrigin (origin : Nat) (s : State) : State :=
  match s.decoded .writePixels with
  | none => s
  | some t =>
    if 1 < origin then setTransaction .pixelsRefused (setPlantResult .range t)
    else setTransaction (.pixelsIn t.frame.colourMode) (if origin = 0 then clampCursor t else cornerCursor t)

/-! ### Plant reads (R153) -/

/-- READ PIXELS at its command byte (R153). -/
def takeReadPixels (s : State) : State :=
  match s.decoded .readPixels with
  | none => s
  | some t => setTransaction (.pixelsOut none) (clampCursor t)

/-- The pixel at the cursor. -/
def FrameStore.atCursor (f : FrameStore) : Pixel := f.pixels.read (pixelAddress f.cursor.x f.cursor.y)

/-- A pixel of READ PIXELS captured at its first byte (R153). -/
def beginPixel (s : State) : State :=
  match s.plant.transaction with
  | .pixelsOut _ => setTransaction (.pixelsOut (some s.frame.atCursor)) s
  | _ => s

/-- The second byte of a pixel clocked out: the cursor advances (R153). -/
def endPixel (s : State) : State :=
  match s.plant.transaction with
  | .pixelsOut (some _) => setTransaction (.pixelsOut none) (advanceCursor s)
  | _ => s

/-! ### Setting commands -/

/-- SET WINDOW (R145). -/
def applyWindow (x0 y0 x1 y1 : Nat) : CommandRule := fun s =>
  (s.onFrame fun f => { f with window := Rect.ofCorners x0 y0 x1 y1 }, .ok)

/-- SET CURSOR (R146). -/
def applyCursor (x y : Nat) : CommandRule := fun s =>
  (s.onFrame fun f => { f with cursor := ⟨min x 159, min y 47⟩ }, .ok)

/-- SET ADDRESS CONTROL (R147). -/
def applyControl (order column row wrap : Nat) : CommandRule := fun s =>
  if 1 < order ∨ 1 < column ∨ 1 < row ∨ 1 < wrap then (s, .range)
  else
    (s.onFrame fun f =>
      { f with control := ⟨decide (order = 1), decide (column = 1), decide (row = 1), decide (wrap = 1)⟩ }, .ok)

/-- The colour mode of a code (R149). -/
def ColourMode.ofCode : Nat → Option ColourMode
  | 0 => some .c8
  | 1 => some .c12
  | 2 => some .c16
  | _ => none

/-- SET COLOUR MODE (R149). -/
def applyMode (code : Nat) : CommandRule := fun s =>
  match ColourMode.ofCode code with
  | none => (s, .range)
  | some m => (s.onFrame fun f => { f with colourMode := m }, .ok)

/-- SET MASK (R150). -/
def applyMask (flags : Nat) : CommandRule := fun s =>
  (s.onFrame fun f => { f with mask := ⟨flags.testBit 0, flags.testBit 1, flags.testBit 2⟩ }, .ok)

/-- SET MARK (R154). -/
def applyMark : CommandRule := fun s => (s.onFrame fun f => { f with mark := f.cursor }, .ok)

/-- RETURN TO MARK (R154). -/
def applyReturn : CommandRule := fun s => (s.onFrame fun f => { f with cursor := f.mark }, .ok)

/-! ### Meanings -/

/-- SET_WINDOW (R145). -/
def execSetWindow (x0 y0 x1 y1 : Byte) (s : State) : Result :=
  event (takeCommand .setWindow (applyWindow x0.toNat y0.toNat x1.toNat y1.toNat)) s

/-- SET_CURSOR (R146). -/
def execSetCursor (x y : Byte) (s : State) : Result :=
  event (takeCommand .setCursor (applyCursor x.toNat y.toNat)) s

/-- SET_ADDRESS_CONTROL (R147). -/
def execSetAddressControl (order column row wrap : Byte) (s : State) : Result :=
  event (takeCommand .setAddressControl (applyControl order.toNat column.toNat row.toNat wrap.toNat)) s

/-- SET_COLOUR_MODE (R149). -/
def execSetColourMode (mode : Byte) (s : State) : Result :=
  event (takeCommand .setColourMode (applyMode mode.toNat)) s

/-- SET_MASK (R150). -/
def execSetMask (flags : Byte) (s : State) : Result := event (takeCommand .setMask (applyMask flags.toNat)) s

/-- SET_MARK (R154). -/
def execSetMark (s : State) : Result := event (takeCommand .setMark applyMark) s

/-- RETURN_TO_MARK (R154). -/
def execReturnToMark (s : State) : Result := event (takeCommand .returnToMark applyReturn) s

/-- WRITE_PIXELS (R151). -/
def execWritePixels (origin : Byte) (s : State) : Result := event (takeOrigin origin.toNat) s

/-- PIXEL_GROUP (R151, R152). -/
def execPixelGroup (bytes : List Byte) (s : State) : Result := event (applyGroup bytes) s

/-- READ_PIXELS (R153). -/
def execReadPixels (s : State) : Result := event takeReadPixels s

/-- PIXEL_READ (R153). -/
def execPixelRead (m : SlotMoment) (s : State) : Result :=
  event (match m with
    | .begins => beginPixel
    | .ends => endPixel) s

end Sys2Proof.Machine
end

