-- ==== Sys2Proof/Machine/Composition.lean ====
section
/-! DEFINITION. The Composition Engine's own events: WRITE REGION, the passes' pixels and completion, the
ticker's scroll and the flash phase (R156 to R170). -/

namespace Sys2Proof.Machine

/-! ### WRITE REGION (R157, R158) -/

/-- The role of a role code (c12). -/
def Role.ofCode : Nat → Option Role
  | 0 => some .pace
  | 1 => some .stations
  | 2 => some .ticker
  | 3 => some .clock
  | 4 => some .banner
  | 5 => some .message
  | _ => none

/-- The entry a WRITE REGION writes, clamped (R157 step 2). -/
def Region.ofFields (role : Role) (x0 y0 x1 y1 : Nat) (enabled : Bool) (header scroll : Nat) : Region :=
  { role := role, rect := Rect.ofCorners x0 y0 x1 y1, enabled := enabled, headerRows := min 2 header
    scrollInterval := clamp 1 10 scroll, render := .idle }

/-- Some other entry in force has a property. -/
def Engine.otherInForce (e : Engine) (i : Fin 8) (p : Region → Bool) : Bool :=
  (List.finRange 8).any fun j => j ≠ i && (e.regions.at_ j).enabled && p (e.regions.at_ j)

/-- The overlap test (R157 step 3). -/
def Engine.overlapped (e : Engine) (i : Fin 8) (r : Region) : Bool :=
  r.enabled && e.otherInForce i fun q => r.rect.meets q.rect

/-- The role test (R157 step 4). -/
def Engine.roleHeld (e : Engine) (i : Fin 8) (r : Region) : Bool :=
  r.enabled && r.role.isEngine && e.otherInForce i fun q => q.role = r.role

/-- A pixel address the entry owned before the write and does not own after it (R158 steps 1 and 3). -/
def leaves (old new : Region) (a : Nat) : Bool :=
  (old.owns && old.rect.holdsAddress a) && !(new.owns && new.rect.holdsAddress a)

/-- The render state of a written entry: a fresh pass where it is in force with an engine role (R158 step
4). -/
def State.freshPass (s : State) (r : Region) : Render := if r.owns then s.startedPass r else .idle

/-- The role state after a write (R158 step 5, log 10). -/
def Engine.afterWrite (e : Engine) (old new : Region) : Engine :=
  let ticker := old.role = .ticker ∨ new.role = .ticker
  let stationsLeft := (old.enabled ∧ old.role = .stations) ∧ ¬(new.enabled ∧ new.role = .stations)
  { e with
    scrollOffset := if ticker then 0 else e.scrollOffset
    scrollCount := if ticker then 0 else e.scrollCount
    overflow := if stationsLeft then false else e.overflow }

/-- A WRITE REGION applied (R158). -/
def storeRegion (i : Fin 8) (new : Region) (s : State) : State :=
  let old := s.engine.regions.at_ i
  let s := s.onFrame fun f => { f with pixels := f.pixels.blacken (leaves old new) }
  s.onEngine fun e =>
    { e with regions := e.regions.put i { new with render := s.freshPass new } }.afterWrite old new

/-- WRITE REGION judged and applied (R157). -/
def applyRegion (entry role x0 y0 x1 y1 : Nat) (enabled : Bool) (header scroll : Nat) : CommandRule := fun s =>
  match index 8 entry, Role.ofCode role with
  | some i, some ro =>
    let new := Region.ofFields ro x0 y0 x1 y1 enabled header scroll
    if s.engine.overlapped i new then (s, .overlap)
    else if s.engine.roleHeld i new then (s, .invalid)
    else (storeRegion i new s, .ok)
  | _, _ => (s, .range)

/-! ### Passes (R159, R160, R165) -/

/-- The next pixel of the pass of entry `i`, where one is left (R160, log 16). -/
def drawNext (s : State) (i : Fin 8) : State :=
  let r := s.engine.regions.at_ i
  match r.render with
  | .idle => s
  | .busy c n again =>
    if n < r.area then
      { s with
        frame := { s.frame with pixels := r.drawPixel c n s.frame.pixels }
        engine := { s.engine with regions := s.engine.regions.put i { r with render := .busy c (n + 1) again } } }
    else s

/-- A pass completes: its remaining pixels are written, a STATIONS pass sets or clears the overflow flag, and
the render state acts (R159, R160, R165). With no pass in flight nothing completes. -/
def completePass (i : Fin 8) (s : State) : State :=
  let r := s.engine.regions.at_ i
  match r.render with
  | .idle => s
  | .busy c n again =>
    let drawn : State :=
      { s with
        frame := { s.frame with pixels := r.drawFrom c n (r.area - n) s.frame.pixels }
        engine := { s.engine with overflow := (r.overflows c).getD s.engine.overflow } }
    drawn.onEngine fun e =>
      { e with regions := e.regions.put i { r with render := if again then drawn.startedPass r else .idle } }

/-! ### The scroll and the flash phase (R162, R167) -/

/-- A scroll second (R167, log 13). -/
def scrollSecond (s : State) : State :=
  match s.engine.inForce .ticker with
  | none => s
  | some r =>
    if r.scrollLines < s.callList.calls.length then
      s.onEngine fun e => { e with scrollCount := min r.scrollInterval (e.scrollCount + 1) }
    else s

/-- The offset after a scroll step, with `last` the highest offset (R167). -/
def steppedOffset (offset last : Nat) : Nat := if last < offset + 1 then 0 else offset + 1

/-- The scroll step at the scroll interval (R167, log 13). -/
def scrollStep (s : State) : State :=
  match s.engine.inForce .ticker with
  | none => s
  | some r =>
    let n := s.callList.calls.length
    if r.scrollLines < n ∧ r.scrollInterval ≤ s.engine.scrollCount then
      (s.onEngine fun e =>
        { e with scrollCount := 0, scrollOffset := steppedOffset e.scrollOffset (n - r.scrollLines) }).raise .ticker
    else s

/-- A lamp that the STATIONS region draws is flashing (R162, R165). -/
def State.lampFlashes (s : State) : Bool :=
  match s.engine.inForce .stations with
  | some r => (s.lamps.take (lampsDrawn r.rect.width s.lamps.length)).any Lamp.flashing
  | none => false

/-- The flash phase toggles (R162). -/
def toggleFlash (s : State) : State :=
  ((s.onEngine fun e => { e with flashOn := !e.flashOn }).raiseIf s.lampFlashes .stations).raiseIf
    (s.bannerMessage = some .safetyStop) .banner

/-! ### Meanings -/

/-- SCROLL_SECOND (R167). -/
def execScrollSecond (s : State) : Result := event scrollSecond s

/-- SCROLL_STEP (R167). -/
def execScrollStep (s : State) : Result := event scrollStep s

/-- FLASH_TOGGLE (R162). -/
def execFlashToggle (s : State) : Result := event toggleFlash s

/-- RENDER_PASS_COMPLETE (R159, R160). -/
def execRenderPassComplete (entry : Fin 8) (s : State) : Result := event (completePass entry) s

/-- WRITE_REGION (R157, R158). -/
def execWriteRegion (entry role x0 y0 x1 y1 flag header scroll : Byte) (s : State) : Result :=
  event (takeCommand .writeRegion (applyRegion entry.toNat role.toNat x0.toNat y0.toNat x1.toNat y1.toNat
    (flagOn flag) header.toNat scroll.toNat)) s

end Sys2Proof.Machine
end

