-- ==== Sys2Proof/Machine/Tiles.lean ====
section
/-! DEFINITION. The Tile Driver and the XALERT input: refresh, presence, sequential start, intensity
(R171 to R175, R177). -/

namespace Sys2Proof.Machine

/-! ### Refresh and presence (R171, R172) -/

/-- The drive levels of a pixel at intensity `i` (R171). -/
def Pixel.drive (p : Pixel) (i : Nat) : Drive := ⟨p.r.toNat * i, p.g.toNat * i, p.b.toNat * i⟩

/-- The address of pixel `n` of tile `t`'s portion (R171). -/
def tileAddress (t : Fin 30) (n : Nat) : Nat :=
  pixelAddress (16 * (t.val / 3) + n % 16) (16 * (t.val % 3) + n / 16)

/-- The pixels of tile `t`'s square (R171). -/
def Memory.ofTile (m : Memory) (t : Fin 30) : Memory :=
  let x := 16 * (t.val / 3)
  let y := 16 * (t.val % 3)
  m.filter fun c => Rect.holdsAddress ⟨x, y, x + 15, y + 15⟩ c.1

/-- The chain sends the next pixel of the portion, dark where the portion is not lit (R171, log 1). -/
def TileDriver.sendNext (t : TileDriver) : TileDriver :=
  let p := t.portion
  if p.sent < 256 then
    { t with
      portion := { p with
        sent := p.sent + 1
        levels := if p.lit then (p.pixels.read (tileAddress p.tile p.sent)).drive p.intensity else ⟨0, 0, 0⟩ } }
  else t

/-- A tile's presence after a return (R172). -/
def TilePresence.returned (p : TilePresence) (present : Bool) : TilePresence :=
  if present then ⟨false, 0⟩
  else if p.miss < 2 then { p with miss := p.miss + 1 }
  else ⟨true, 3⟩

/-- The portion of tile `t` as it begins: a pixel changed later appears at the tile's next portion (R171,
log 15). -/
def TileDriver.portionOf (d : TileDriver) (m : Memory) (t : Fin 30) : Portion :=
  { tile := t, intensity := d.actual, lit := d.tileEnabled t, pixels := m.ofTile t, sent := 0
    levels := ⟨0, 0, 0⟩ }

/-- The end of tile `t`'s portion: an enabled tile's return is evaluated, and the next tile's portion begins
(R171, R172, log 15). A return given before the 256th pixel ends the portion there, and its other pixels are not
sent (DESIGN CHOICE, log 31). -/
def TileDriver.portionEnds (d : TileDriver) (m : Memory) (t : Fin 30) (present : Bool) : TileDriver :=
  let judged := if d.tileEnabled t then { d with tiles := d.tiles.upd t fun p => p.returned present } else d
  { judged with portion := judged.portionOf m (t + 1) }

/-! ### Sequential start (R173) -/

/-- The start count at a starting event: 0, or 10 at once with an interval of 0 ms (R173). -/
def startedCount (tst : BitVec 2) : Nat := if Config.startInterval tst.toNat = 0 then 10 else 0

/-- The start count set anew. The portion in flight goes dark where its group is disabled, and stays so where the
group is enabled again within it (R173). -/
def TileDriver.restarted (t : TileDriver) (count : Nat) : TileDriver :=
  let t := { t with startCount := count }
  { t with portion := { t.portion with lit := t.portion.lit && t.tileEnabled t.portion.tile } }

/-- RESTART TILES (R173). With TST 0 the count is 10 again within the event, and the portion in flight stays lit
(DESIGN CHOICE, log 31). -/
def applyRestart : CommandRule := fun s =>
  (s.onTiles fun t => t.restarted (startedCount s.straps.tst), .ok)

/-! ### Intensity (R174, R175) -/

/-- SET INTENSITY judged and applied (R174, R175). -/
def applyIntensity (target ramp flags : Nat) : CommandRule := fun s =>
  if 5 < ramp then (s, .range)
  else
    let t := s.onTiles fun t =>
      { t with
        target := min 63 target, rampCode := ramp, asymmetric := flags.testBit 0, override := flags.testBit 1
        decreaseCount := 0 }
    (if ramp = 0 then t.onTiles fun d => { d with actual := t.effectiveTarget } else t, .ok)

/-- The Tile Driver at a ramp expiry toward `target` (R175). -/
def TileDriver.ramped (t : TileDriver) (target : Nat) : TileDriver :=
  if t.actual < target then { t with actual := t.actual + 1, decreaseCount := 0 }
  else if t.actual = target then { t with decreaseCount := 0 }
  else if t.asymmetric then
    if 3 ≤ t.decreaseCount then { t with actual := t.actual - 1, decreaseCount := 0 }
    else { t with decreaseCount := t.decreaseCount + 1 }
  else { t with actual := t.actual - 1, decreaseCount := 0 }

/-- A ramp expiry; with code 0 no timer runs (R175). -/
def rampExpires (s : State) : State :=
  if s.tiles.rampCode = 0 then s else s.onTiles fun t => t.ramped s.effectiveTarget

/-! ### XALERT (R177) -/

/-- A moment of XALERT, asserted LOW: its filter, and a taken change of the filtered level (R177). -/
def giveXalert (m : LevelMoment) (s : State) : State :=
  let f := s.alert.xalert.afterLevel false m
  (s.onAlert fun a => { a with xalert := f }).raiseIf (f.taken != s.alert.xalert.taken) .banner

/-! ### Meanings -/

/-- XALERT_CHANGE (R177). The moment of the input's filter is the model's operand (log 20). -/
def execXalertChange (m : LevelMoment) (s : State) : Result := event (giveXalert m) s

/-- START_TIMER_EXPIRY (R173): at 10 the timer has stopped. -/
def execStartTimerExpiry (s : State) : Result :=
  event (fun s => s.onTiles fun t => { t with startCount := satSucc 10 t.startCount }) s

/-- RAMP_EXPIRY (R175). -/
def execRampExpiry (s : State) : Result := event rampExpires s

/-- PRESENCE_RETURN (R172). -/
def execPresenceReturn (tile : Fin 30) (present : Bool) (s : State) : Result :=
  event (fun s => s.onTiles fun t => t.portionEnds s.frame.pixels tile present) s

/-- SET_INTENSITY (R174). -/
def execSetIntensity (target ramp flags : Byte) (s : State) : Result :=
  event (takeCommand .setIntensity (applyIntensity target.toNat ramp.toNat flags.toNat)) s

/-- RESTART_TILES (R173). -/
def execRestartTiles (s : State) : Result := event (takeCommand .restartTiles applyRestart) s

end Sys2Proof.Machine
end

