-- ==== Sys2Proof/Machine/PlantWires.lean ====
section
/-! DEFINITION. The four wires of the Plant Port: the bits taken from MOSI, the bytes they make, the commands those
spell, and the bits driven onto MISO (R132, R135, R181). -/

namespace Sys2Proof.Machine

/-- The transaction's clock changed. -/
def setPlantClock (c : PlantClock) (s : State) : State := s.onPlant fun p => { p with clock := c }

/-! ### The command that argument bytes spell (R181) -/

/-- Break entry `i` of STAGE PLAN's argument bytes (R181). -/
def breakAt (args : List Byte) (i : Nat) : BreakArg := ⟨halfAt args (7 + 4 * i), halfAt args (9 + 4 * i)⟩

/-- A plant command taken with its argument bytes (R133, R181). -/
def takeSpelled (c : PlantCommand) (args : List Byte) : State → Result :=
  let b := byteAt args
  let h := halfAt args
  match c with
  | .readStatus => execReadStatus .taken
  | .readStation => execReadStation (.taken (b 0))
  | .readCalls => execReadCalls
  | .readPace => execReadPace .taken
  | .readLoss => execReadLoss .taken
  | .readSummary => execReadSummary (.taken (b 0))
  | .readHistory => execReadHistory
  | .rewindHistory => execRewindHistory
  | .stagePlan => execStagePlan (h 0) (h 2) (h 4) (b 6) (Vector.ofFn fun i : Fin 6 => breakAt args i.val)
  | .commitPlan => execCommitPlan (b 0)
  | .discardPlan => execDiscardPlan
  | .shiftStart => execPlantShiftStart (h 0) (h 2)
  | .shiftClose => execShiftClose
  | .ackCall => execAckCall (h 0) (b 2)
  | .clearCall => execClearCall (h 0) (b 2)
  | .writeLayoutZone => execWriteLayoutZone (b 0) (b 1) (b 2) (b 3) (b 4) (b 5) (b 6) (b 7)
  | .writeLayoutStation => execWriteLayoutStation (b 0) (b 1) (b 2)
  | .writePolicy => execWritePolicy (Vector.ofFn fun i : Fin 15 => h (2 * i.val)) (h 30)
  | .writeLinkSettings => execWriteLinkSettings (b 0) (b 1) (b 2)
  | .setWindow => execSetWindow (b 0) (b 1) (b 2) (b 3)
  | .setCursor => execSetCursor (b 0) (b 1)
  | .setAddressControl => execSetAddressControl (b 0) (b 1) (b 2) (b 3)
  | .setColourMode => execSetColourMode (b 0)
  | .setMask => execSetMask (b 0)
  | .setMark => execSetMark
  | .returnToMark => execReturnToMark
  | .writePixels => execWritePixels (b 0)
  | .readPixels => execReadPixels
  | .writeRegion => execWriteRegion (b 0) (b 1) (b 2) (b 3) (b 4) (b 5) (b 6) (b 7) (b 8)
  | .setIntensity => execSetIntensity (b 0) (b 1) (b 2)
  | .restartTiles => execRestartTiles

/-! ### A byte clocked whole (R132, R133, R135) -/

/-- The bytes of the slot, entry or pixel in flight; `none` in a reply that is not cut into these, 0 where none is in
flight (R116, R139, R140, R153). -/
def Transaction.slotLength : Transaction → Option Nat
  | .status (some _) | .station _ (some _) | .pace (some _) | .summary _ (some _) => none
  | .calls _ slot => some slot.length
  | .loss _ e => some e.length
  | .history (some sl) =>
    match sl.record with
    | some r => some r.bytes.length
    | none => some 1
  | .pixelsOut (some p) => some p.bytes.length
  | .waiting | .ready | .arguments _ | .ignoring | .status none | .station _ none | .pace none
  | .summary _ none | .history none | .pixelsIn _ | .pixelsRefused | .pixelsOut none => some 0

/-- The count of bytes served after one more of them: 0 where it ends its slot. -/
def Transaction.sentAfter (t : Transaction) (n : Nat) : Nat :=
  match t.slotLength with
  | some m => if n + 1 < m then n + 1 else 0
  | none => n + 1

/-- A byte of a reply clocked out, with what the end of the flag byte, of a history slot and of a pixel does (R116,
R137, R153). -/
def replyByteClocked (s : State) : Result :=
  let c := s.plant.clock
  let n := s.plant.transaction.sentAfter c.sent
  let t := setPlantClock { c with sent := n } s
  match s.plant.transaction with
  | .status (some _) => if c.sent = 1 then execStatusFlagByteSent t else .next t
  | .history (some _) => if n = 0 then execHistorySlot .ends t else .next t
  | .pixelsOut (some _) => if n = 0 then execPixelRead .ends t else .next t
  | .station _ _ | .calls _ _ | .pace _ | .loss _ _ | .summary _ _ | .status none | .history none
  | .pixelsOut none | .waiting | .ready | .arguments _ | .ignoring | .pixelsIn _ | .pixelsRefused => .next t

/-- A byte from MOSI whole: the command byte, an argument byte, a byte of a pixel group, a byte ignored, or the clocks
of a reply's byte (R132, R133). -/
def mosiByteClocked (b : Byte) (s : State) : Result :=
  let c := s.plant.clock
  let bytes := c.bytes ++ [b]
  let kept := setPlantClock { c with bytes := bytes } s
  let cleared := setPlantClock { c with bytes := [] } s
  match s.plant.transaction with
  | .ready =>
    match decodePlantCode b with
    | none => execUnknownCommand b s
    | some p => if p.argBytes = 0 then takeSpelled p [] s else event (argumentsFollow b) s
  | .arguments p => if bytes.length < p.argBytes then .next kept else takeSpelled p bytes cleared
  | .pixelsIn m => if bytes.length < m.groupBytes then .next kept else execPixelGroup bytes cleared
  | .waiting | .ignoring | .pixelsRefused => .next s
  | .status _ | .station _ _ | .calls _ _ | .pace _ | .loss _ _ | .summary _ _ | .history _ | .pixelsOut _ =>
    replyByteClocked s

/-! ### A byte of a reply begun (R135) -/

/-- What the first bit of the next reply byte captures (R116, R135, R137 to R140, R153). -/
def replyByteBegins (s : State) : Result :=
  let n := s.plant.clock.sent
  match s.plant.transaction with
  | .status none => execReadStatus .firstByte s
  | .status (some _) => if n = 8 then execPresenceExtension s else .next s
  | .station _ none => execReadStation .firstByte s
  | .calls _ _ => if n = 0 then execCallRecordSlot s else .next s
  | .pace none => execReadPace .firstByte s
  | .loss _ _ => if n = 0 then execReadLoss .firstByte s else .next s
  | .summary _ none => execReadSummary .firstByte s
  | .history none => execHistorySlot .begins s
  | .pixelsOut none => execPixelRead .begins s
  | .station _ (some _) | .pace (some _) | .summary _ (some _) | .history (some _) | .pixelsOut (some _)
  | .waiting | .ready | .arguments _ | .ignoring | .pixelsIn _ | .pixelsRefused => .next s

/-- MISO takes the bit that comes, most significant first (R132). -/
def driveMiso (s : State) : State :=
  let c := s.plant.clock
  setPlantClock { c with miso := (s.plant.transaction.reply c.sent).getMsbD c.bits.length } s

/-- The level on MISO; `none` is high-impedance (R132, R178, log 32). -/
def State.misoLevel (s : State) : Option Bool :=
  if s.inReset || s.plant.transaction = .waiting then none else some s.plant.clock.miso

/-! ### The edges of SCK (R132) -/

/-- SCK rises: a bit is taken from MOSI; the eighth completes its byte (log 34). -/
def sckRises (mosi : Bool) (s : State) : Result :=
  let c := s.plant.clock
  let bits := c.bits ++ [mosi]
  if bits.length < 8 then .next (setPlantClock { c with sck := true, bits := bits } s)
  else mosiByteClocked (byteOfBits bits) (setPlantClock { c with sck := true, bits := [] } s)

/-- SCK falls: MISO changes, to the first bit of the next byte where one has ended (log 34). -/
def sckFalls (s : State) : Result :=
  let t := setPlantClock { s.plant.clock with sck := false } s
  onNext driveMiso (if s.plant.clock.bits = [] then replyByteBegins t else .next t)

/-- An edge of SCK. With CS HIGH, and in hard reset, SCK is ignored; SCK already at the level has no edge. -/
def sckEdge (e : SckEdge) (s : State) : Result :=
  if s.inReset || s.plant.transaction = .waiting then .next s
  else
    match e with
    | .rises mosi => if s.plant.clock.sck then .next s else sckRises mosi s
    | .falls => if s.plant.clock.sck then sckFalls s else .next s

/-! ### Meaning -/

/-- COMMAND_BYTE (R132, R141): the byte of a command whose arguments follow, whole, or edge by edge with the bytes that
follow it. -/
def execCommandByte (input : CommandInput) (s : State) : Result :=
  match input with
  | .byte code => event (argumentsFollow code) s
  | .edge e => sckEdge e s

end Sys2Proof.Machine
end

