-- ==== Sys2Proof/Machine/Reset.lean ====
section
/-! DEFINITION. Hard reset and its end, and what the board does when no command waits (R178, R159, R160,
R171). -/

namespace Sys2Proof.Machine

/-- One request for each engine role (R159). -/
def Requests.all : Requests := ⟨true, true, true, true, true⟩

/-! ### The conditions of hard reset (R178) -/

/-- The conditions after a moment that HARD_RESET gives: RSTn is taken after 10 µs LOW. -/
def ResetConditions.after (i : ResetInput) (c : ResetConditions) : ResetConditions :=
  match i with
  | .rstn => { c with rstnLow := true, rstnTimed := false }
  | .supplyFalls => { c with supplyLow := true }
  | .rstnFalls => { c with rstnTimed := !c.rstnLow }
  | .rstnHeld => { c with rstnLow := c.rstnLow || c.rstnTimed, rstnTimed := false }

/-- The conditions after one of them, or both, have gone: a LOW on RSTn shorter than its 10 µs is rejected. -/
def ResetConditions.without (e : ResetEnd) (c : ResetConditions) : ResetConditions :=
  match e with
  | .both => ⟨false, false, false⟩
  | .supply => { c with supplyLow := false }
  | .rstn => { c with rstnLow := false, rstnTimed := false }

/-! ### Hard reset and its end -/

/-- The end of hard reset: the straps are sampled, the sequential start begins, and each engine role is
requested (R159, R173, R178). -/
def endReset (adr : BitVec 3) (tst : BitVec 2) (xtal : Bool) (s : State) : State :=
  let n := startedCount tst
  serve { s with
    straps := ⟨adr, tst, xtal⟩
    tiles := { s.tiles with startCount := n, portion := { Portion.initial (decide (0 < n)) with pixels := s.frame.pixels.ofTile 0 } }
    engine := { s.engine with requests := .all } }

/-- HARD_RESET: with a condition of hard reset present, every item at its hard-reset value; every transaction, pass and
close in flight is abandoned (R178). The straps keep the sampled values until the end of the reset (log 24). That the
conditions' moments come as the operand, RSTn taken LOW where none is given, is the model's choice (log 36). -/
def execHardReset (s : State) (input : ResetInput := .rstn) : Result :=
  let t : State := { s with conditions := s.conditions.after input }
  .next (if t.inReset then .held t.conditions s.straps s.pending else t)

/-- END_OF_HARD_RESET: hard reset ends when both conditions are gone (R178); with none in force there is no end of one.
Both go where no operand says which (log 36). -/
def execEndOfHardReset (adr : BitVec 3) (tst : BitVec 2) (xtal : Bool) (s : State) (gone : ResetEnd := .both) : Result :=
  let t : State := { s with conditions := s.conditions.without gone }
  .next (if s.inReset && !t.inReset then endReset adr tst xtal t else t)

/-- The tick of the board: each pass in flight writes its next pixel, and the tile chain sends its next one
(R160, R171, log 1). In hard reset neither runs (R178). -/
def tick (s : State) : State :=
  if s.inReset then s
  else
    ((List.finRange 8).foldl drawNext s).onTiles TileDriver.sendNext

end Sys2Proof.Machine
end

