-- ==== Sys2Proof/Machine/Dispatch.lean ====
section
/-! DEFINITION. exec: one arm for each command, each one direct call of its meaning. -/

namespace Sys2Proof.Machine

/-- The effect of a command on everything but the queue. -/
def exec (i : Instr) (s : State) : Host.Outcome State Fault Refusal :=
  match i with
  | .hardReset input => Sys2Proof.Machine.execHardReset s input
  | .endOfHardReset adr tst xtal gone => Sys2Proof.Machine.execEndOfHardReset adr tst xtal s gone
  | .step input => Sys2Proof.Machine.execStep input s
  | .xstopChange m => Sys2Proof.Machine.execXstopChange m s
  | .xalertChange m => Sys2Proof.Machine.execXalertChange m s
  | .stallMonitorSecond zone => Sys2Proof.Machine.execStallMonitorSecond zone s
  | .runClockSecond => Sys2Proof.Machine.execRunClockSecond s
  | .shiftTimerSecond => Sys2Proof.Machine.execShiftTimerSecond s
  | .closeCompletion => Sys2Proof.Machine.execCloseCompletion s
  | .callSecond only => Sys2Proof.Machine.execCallSecond only s
  | .lineLinkSecond => Sys2Proof.Machine.execLineLinkSecond s
  | .plantLinkSecond => Sys2Proof.Machine.execPlantLinkSecond s
  | .scrollSecond => Sys2Proof.Machine.execScrollSecond s
  | .scrollStep => Sys2Proof.Machine.execScrollStep s
  | .flashToggle => Sys2Proof.Machine.execFlashToggle s
  | .startTimerExpiry => Sys2Proof.Machine.execStartTimerExpiry s
  | .rampExpiry => Sys2Proof.Machine.execRampExpiry s
  | .presenceReturn tile present => Sys2Proof.Machine.execPresenceReturn tile present s
  | .renderPassComplete entry => Sys2Proof.Machine.execRenderPassComplete entry s
  | .addressByte input => Sys2Proof.Machine.execAddressByte input s
  | .lineStatusRead => Sys2Proof.Machine.execLineStatusRead s
  | .lineFrame bytes partialBits => Sys2Proof.Machine.execLineFrame bytes partialBits s
  | .pull => Sys2Proof.Machine.execPull s
  | .release => Sys2Proof.Machine.execRelease s
  | .leaderAck => Sys2Proof.Machine.execLeaderAck s
  | .leaderReset => Sys2Proof.Machine.execLeaderReset s
  | .bufferSet => Sys2Proof.Machine.execBufferSet s
  | .countAdjust => Sys2Proof.Machine.execCountAdjust s
  | .lineShiftStart => Sys2Proof.Machine.execLineShiftStart s
  | .timeMark => Sys2Proof.Machine.execTimeMark s
  | .keepalive => Sys2Proof.Machine.execKeepalive s
  | .csFalling => Sys2Proof.Machine.execCsFalling s
  | .csRising partialBytes partialBits => Sys2Proof.Machine.execCsRising partialBytes partialBits s
  | .unknownCommand code => Sys2Proof.Machine.execUnknownCommand code s
  | .readStatus m => Sys2Proof.Machine.execReadStatus m s
  | .statusFlagByteSent => Sys2Proof.Machine.execStatusFlagByteSent s
  | .presenceExtension => Sys2Proof.Machine.execPresenceExtension s
  | .readStation m => Sys2Proof.Machine.execReadStation m s
  | .readCalls => Sys2Proof.Machine.execReadCalls s
  | .callRecordSlot => Sys2Proof.Machine.execCallRecordSlot s
  | .readPace m => Sys2Proof.Machine.execReadPace m s
  | .readLoss m => Sys2Proof.Machine.execReadLoss m s
  | .readSummary m => Sys2Proof.Machine.execReadSummary m s
  | .readHistory => Sys2Proof.Machine.execReadHistory s
  | .historySlot m => Sys2Proof.Machine.execHistorySlot m s
  | .rewindHistory => Sys2Proof.Machine.execRewindHistory s
  | .stagePlan length takt overtime count breaks => Sys2Proof.Machine.execStagePlan length takt overtime count breaks s
  | .commitPlan mode => Sys2Proof.Machine.execCommitPlan mode s
  | .discardPlan => Sys2Proof.Machine.execDiscardPlan s
  | .plantShiftStart number offset => Sys2Proof.Machine.execPlantShiftStart number offset s
  | .shiftClose => Sys2Proof.Machine.execShiftClose s
  | .ackCall number responder => Sys2Proof.Machine.execAckCall number responder s
  | .clearCall number responder => Sys2Proof.Machine.execClearCall number responder s
  | .writeLayoutZone zone used first last pitch coast stall capacity => Sys2Proof.Machine.execWriteLayoutZone zone used first last pitch coast stall capacity s
  | .writeLayoutStation station flag length => Sys2Proof.Machine.execWriteLayoutStation station flag length s
  | .writePolicy thresholds grace => Sys2Proof.Machine.execWritePolicy thresholds grace s
  | .writeLinkSettings lineCode plantCode settings => Sys2Proof.Machine.execWriteLinkSettings lineCode plantCode settings s
  | .setWindow x0 y0 x1 y1 => Sys2Proof.Machine.execSetWindow x0 y0 x1 y1 s
  | .setCursor x y => Sys2Proof.Machine.execSetCursor x y s
  | .setAddressControl order column row wrap => Sys2Proof.Machine.execSetAddressControl order column row wrap s
  | .setColourMode mode => Sys2Proof.Machine.execSetColourMode mode s
  | .setMask flags => Sys2Proof.Machine.execSetMask flags s
  | .setMark => Sys2Proof.Machine.execSetMark s
  | .returnToMark => Sys2Proof.Machine.execReturnToMark s
  | .writePixels origin => Sys2Proof.Machine.execWritePixels origin s
  | .pixelGroup bytes => Sys2Proof.Machine.execPixelGroup bytes s
  | .readPixels => Sys2Proof.Machine.execReadPixels s
  | .pixelRead m => Sys2Proof.Machine.execPixelRead m s
  | .writeRegion entry role x0 y0 x1 y1 flag header scroll => Sys2Proof.Machine.execWriteRegion entry role x0 y0 x1 y1 flag header scroll s
  | .setIntensity target ramp flags => Sys2Proof.Machine.execSetIntensity target ramp flags s
  | .restartTiles => Sys2Proof.Machine.execRestartTiles s
  | .commandByte input => Sys2Proof.Machine.execCommandByte input s

end Sys2Proof.Machine
end

