-- ==== Sys2Proof/Safety.lean ====
section
/-! DEFINITION. The invariants of the model, each about one part of State and each kept by every step by
itself, and the words the statements share for what an event leaves unchanged. -/

namespace Sys2Proof.Machine

/-! ### What an event leaves unchanged -/

/-- Two engines differ in render states alone. -/
def OnlyRenders (e e' : Engine) : Prop :=
  { e' with regions := e.regions } = e ∧
    ∀ i, { e'.regions.at_ i with render := (e.regions.at_ i).render } = e.regions.at_ i

/-- The actual intensity takes an effective target that changed while the ramp code is 0, and is else as it was
(R175). -/
def IntensityFollows (s t : State) : Prop :=
  t.tiles.actual =
    if s.tiles.rampCode = 0 ∧ t.effectiveTarget ≠ s.effectiveTarget then t.effectiveTarget else s.tiles.actual

/-- Two states differ in render states, the alert causes and the actual intensity, where they differ in the
engine, the Alert Logic or the Tile Driver at all, and the intensity follows its target: what an event of the
line's centre reaches beside its own blocks (R159, R175, R176). -/
def OnlyEchoes (s t : State) : Prop :=
  OnlyRenders s.engine t.engine ∧ { t.alert with causes := s.alert.causes } = s.alert ∧
    { t.tiles with actual := s.tiles.actual } = s.tiles ∧ IntensityFollows s t

/-- The requests of an event reached these roles and no other: each region in force with one of them starts a
pass with what it then captures or, where it is RENDERING, has a request pending (R159). That a role which one
event requests more than once gets one pass, begun as the event ends, and none left pending behind it is the
model's reading (log 9, DEDUCED). -/
def Requested (roles : List Role) (s t : State) : Prop :=
  ∀ i, t.engine.regions.at_ i =
    if (s.engine.regions.at_ i).enabled = true ∧ (s.engine.regions.at_ i).role ∈ roles then
      { s.engine.regions.at_ i with render := t.requested (s.engine.regions.at_ i) }
    else s.engine.regions.at_ i

/-- The engine's requests of an event, one pass to a role (log 9, DEDUCED), and nothing else of the engine
changed. -/
def RequestedOnly (roles : List Role) (s t : State) : Prop :=
  { t.engine with regions := s.engine.regions } = s.engine ∧ Requested roles s t

/-- Some zone's stop-reason set changed (R24). -/
abbrev SetsChange (s t : State) : Prop :=
  ∃ k : Fin 6, (t.tracker.zones.at_ k).reasons ≠ (s.tracker.zones.at_ k).reasons

/-- Some zone's STALL set or cleared (R30, R31). -/
abbrev StallChanges (s t : State) : Prop :=
  ∃ k : Fin 6, (t.tracker.zones.at_ k).stall ≠ (s.tracker.zones.at_ k).stall

/-- A shown figure changed: E, G, A, the displayed gap or the pace (R88, R89). -/
abbrev ShownFiguresChange (s t : State) : Prop :=
  let f := s.pace.figures
  let g := t.pace.figures
  g.e ≠ f.e ∨ g.g ≠ f.g ∨ g.shownActual ≠ f.shownActual ∨
    max (-999) (min 999 g.gap) ≠ max (-999) (min 999 f.gap) ∨ g.pace ≠ f.pace

/-- The roles that R161's table requests for what changed of the sets, STALL, the shift state, the clock's whole minute,
the shown figures and the line lost cars; for a changed set TICKER beside STATIONS, as R24 says (log 11, DEDUCED). -/
def changeRoles (s t : State) : List Role :=
  (if SetsChange s t then [.stations, .ticker] else []) ++ (if StallChanges s t then [.stations] else []) ++
    (if t.timer.state ≠ s.timer.state then [.banner, .clock] else []) ++
    (if t.timer.clock / 60 ≠ s.timer.clock / 60 then [.clock] else []) ++
    (if ShownFiguresChange s t ∨ t.lineLostCars ≠ s.lineLostCars then [.pace] else [])

/-- The Tracker's zones in `t` are `base` with the sets derived anew and stall qualification decided against
what it was in `s` (R24, R29). -/
def Settled (base : Fin 6 → ZoneState) (s t : State) : Prop :=
  ∀ k, t.tracker.zones.at_ k =
    ((base k).withReasons (t.derivedReasons k)).requalified (s.qualifies k) (t.qualifies k)

/-! ### Stop-reason sets and the alert causes (R22, R24, R176) -/

/-- Every zone's set is the one the three passes derive. -/
def State.SetsCurrent (s : State) : Prop := ∀ k, (s.tracker.zones.at_ k).reasons = s.derivedReasons k

/-- The cause set holds the causes present. -/
def State.CausesCurrent (s : State) : Prop := s.alert.causes = s.presentCauses

/-! ### The figures and the open of a shift (R70, R84 to R89) -/

/-- The seconds of breaks in the span from `c` up to, not including, the plan's length (R84). -/
def Plan.BreaksAhead (p : Plan) (c : Nat) : Nat :=
  (p.breaks.map fun b => min (b.start + b.length) p.length - max b.start c).sum

/-- The figures that follow from Rp, Em, Gm and A (R85, R86, R89). -/
def Figures.Follow (f : Figures) (rp em gm actual : Nat) : Prop :=
  f.rp = rp ∧ f.em = em ∧ f.gm = gm ∧ f.e = em / 1000 ∧ f.g = gm / 1000 ∧
    f.gap = (actual : Int) - ((em / 1000 : Nat) : Int) ∧
    f.pace = (if em / 1000 = 0 then none else some (min 999 (actual * 100 / (em / 1000)))) ∧ f.shownActual = actual

/-- The stored figures are those of the state: in OVERTIME from H, else from B, Wr, Wc, the clock and the active
plan (R84 to R87). -/
def State.FiguresCurrent (s : State) : Prop :=
  let p := s.timer.plan
  let c := s.timer.clock
  let since := s.timer.wc - s.pace.rebaseMark
  let rp := if c < p.length then p.length - c - p.BreaksAhead c else 0
  if s.timer.state = .overtime then s.pace.figures.Follow 0 s.pace.held s.pace.held s.pace.actual
  else
    s.pace.figures.Follow rp (s.pace.base + since * 10000 / p.takt)
      (s.pace.base + (since + rp) * 10000 / p.takt) s.pace.actual

/-- `t` is `s` with shift `number` opened at an offset under plan `p`: the clocks, the cleared counters, table and
figures, and the requests (R70, R83). -/
def ShiftOpened (p : Plan) (number offset : Nat) (s t : State) : Prop :=
  let c := min offset (p.length - 1)
  let wc := c - (p.breaks.map fun b => min (b.start + b.length) c - b.start).sum
  t.timer =
      { s.timer with
        state := if p.breaks.any (fun b => decide (b.start ≤ c ∧ c < b.start + b.length)) then .inBreak
          else .production
        number := number, openedAt := s.timer.runClock, openingWc := wc, next := none, active := some p
        clock := c, wc := wc, correction := 0 } ∧
    (∀ st, t.stations.at_ st = { s.stations.at_ st with callsShift := 0, chargedLoss := 0 }) ∧
    (∀ k, t.loss.zones.at_ k = ⟨⟨0, 0, 0, 0, 0⟩, ⟨0, 0, 0, 0, 0⟩⟩) ∧
    t.loss.lineLost = 0 ∧ t.loss.opened = 0 ∧ t.loss.closed = 0 ∧ t.loss.longestHold = 0 ∧
    t.pace = ⟨0, wc, 0, s.pace.held, t.pace.figures⟩ ∧ t.FiguresCurrent ∧
    RequestedOnly (changeRoles s t ++ [.pace, .clock]) s t

/-- `t`'s Archive and Plant Port are those of `s` with the close of `t`'s shift begun for a reason: the slot after
the newest is the newest and WRITING with `t`'s snapshot, and a reply of what was COMPLETE there is cut (R80, R105,
R109). -/
def CloseBegun (reason : CloseReason) (s t : State) : Prop :=
  t.timer.state = .closing ∧ t.archive.newest = some s.archive.following ∧
    t.archive.slots = s.archive.slots.put s.archive.following (.writing (t.snapshot reason)) ∧
    t.plant.transaction = s.plant.transaction.slotTaken s.archive.following

/-! ### Calls that open and close (R51, R61, R113 to R115, R167) -/

/-- After a change in the number of calls, an offset past the last window, or calls that fit, return the scroll to
0; nothing else of the scroll moves (R167). -/
def ScrollFitted (s t : State) : Prop :=
  let n := t.callList.calls.length
  match s.engine.inForce .ticker with
  | none => t.engine.scrollOffset = s.engine.scrollOffset ∧ t.engine.scrollCount = s.engine.scrollCount
  | some r =>
    let lines := r.rect.height / 8 - min r.headerRows (r.rect.height / 8)
    if n ≤ lines ∨ n - lines < s.engine.scrollOffset then
      t.engine.scrollOffset = 0 ∧ t.engine.scrollCount = 0
    else t.engine.scrollOffset = s.engine.scrollOffset ∧ t.engine.scrollCount = s.engine.scrollCount

/-- The history record of a closing (R61, R112). -/
def closingRecord (c : Call) (by_ : ClosedBy) (s : State) : HistoryRecord :=
  { number := c.number, station := c.station, zone := c.zone, kinds := c.kinds, openedAt := c.openedAt
    openedTag := c.openedTag, closedAt := s.timer.runClock
    closedTag := if s.timer.state.isOpen then s.timer.number else 0
    holdTime := c.holdTime, everHeld := c.everHeld, maxLevel := c.level, closedBy := by_, ack := c.ack
    droppedBefore := false }

/-- The log and its cursor with a record stored: at 128 records the oldest goes first, and where the cursor stood
on it the new oldest carries DROPPED-BEFORE (R113, R114, R115). -/
def RecordStored (r : HistoryRecord) (s t : State) : Prop :=
  if s.history.length < 128 then
    t.history = s.history ++ [r] ∧
      t.plant.historyCursor = some (s.plant.historyCursor.getD s.history.length)
  else
    let kept := s.history.drop 1
    match s.plant.historyCursor with
    | none => t.history = kept ++ [r] ∧ t.plant.historyCursor = some kept.length
    | some 0 =>
      t.history =
          kept.mapIdx (fun i x => if i = 0 then { x with droppedBefore := true } else x) ++ [r] ∧
        t.plant.historyCursor = some 0
    | some (n + 1) => t.history = kept ++ [r] ∧ t.plant.historyCursor = some n

/-- `t` is `s` with call `c` closed: off the list and its station, on the history, counted for the shift, with
the sets, the scroll and the two regions following (R51, R61, R103; one pass of each region, log 9). -/
def CallClosed (c : Call) (by_ : ClosedBy) (s t : State) : Prop :=
  t.callList = { s.callList with calls := s.callList.calls.filter fun x => decide (x.number ≠ c.number) } ∧
    t.stations = s.stations.put c.station { s.stations.at_ c.station with openCall := none } ∧
    RecordStored (closingRecord c by_ s) s t ∧
    t.loss =
      (if s.timer.state.isOpen = true ∧ s.timer.number ≠ 0 then
        { s.loss with
          closed := if s.loss.closed < 65535 then s.loss.closed + 1 else s.loss.closed
          longestHold := max s.loss.longestHold c.holdTime }
      else s.loss) ∧
    Settled s.tracker.zones.at_ s t ∧ t.tracker.buffers = s.tracker.buffers ∧ t.tracker.xstop = s.tracker.xstop ∧
    t.CausesCurrent ∧ Requested [.stations, .ticker] s t ∧ ScrollFitted s t ∧
    { t.engine with
      regions := s.engine.regions, scrollOffset := s.engine.scrollOffset, scrollCount := s.engine.scrollCount }
      = s.engine ∧
    { t with
      callList := s.callList, stations := s.stations, history := s.history, loss := s.loss, tracker := s.tracker
      line := s.line, plant := s.plant, engine := s.engine, alert := s.alert, tiles := s.tiles } = s ∧
    { t.alert with causes := s.alert.causes } = s.alert ∧
    { t.tiles with actual := s.tiles.actual } = s.tiles ∧ IntensityFollows s t

/-! ### Commands and the bytes that spell them -/

/-- The type of a frame (R127). -/
def Frame.type : Frame → FrameType
  | .pull _ _ _ => .pull
  | .release _ => .release
  | .leaderAck _ _ => .leaderAck
  | .leaderReset _ _ => .leaderReset
  | .bufferSet _ _ => .bufferSet
  | .countAdjust _ => .countAdjust
  | .shiftStart _ _ => .shiftStart
  | .timeMark _ _ => .timeMark
  | .keepalive => .keepalive

/-- The command that takes a frame of a type from the Line Intake Queue (R126, R127). -/
def takerOf : FrameType → Instr
  | .pull => .pull
  | .release => .release
  | .leaderAck => .leaderAck
  | .leaderReset => .leaderReset
  | .bufferSet => .bufferSet
  | .countAdjust => .countAdjust
  | .shiftStart => .lineShiftStart
  | .timeMark => .timeMark
  | .keepalive => .keepalive

/-- The type byte and payload of a frame on the bus, its check byte left out (R179). -/
def Frame.bytes : Frame → List Byte
  | .pull station kind progress => [0x21, station, kind, progress]
  | .release station => [0x22, station]
  | .leaderAck station leader => [0x23, station, leader]
  | .leaderReset station leader => [0x24, station, leader]
  | .bufferSet buffer count => [0x31, buffer, count]
  | .countAdjust delta => [0x32, delta]
  | .shiftStart number offset => [0x41] ++ be16 number.toNat ++ be16 offset.toNat
  | .timeMark number seconds => [0x42] ++ be16 number.toNat ++ be16 seconds.toNat
  | .keepalive => [0x50]

/-- The commands that take a plant command, its argument bytes as operands (R181). -/
inductive Spells : PlantCommand → Instr → Prop
  | readStatus : Spells .readStatus (.readStatus .taken)
  | readStation (n) : Spells .readStation (.readStation (.taken n))
  | readCalls : Spells .readCalls .readCalls
  | readPace : Spells .readPace (.readPace .taken)
  | readLoss : Spells .readLoss (.readLoss .taken)
  | readSummary (n) : Spells .readSummary (.readSummary (.taken n))
  | readHistory : Spells .readHistory .readHistory
  | rewindHistory : Spells .rewindHistory .rewindHistory
  | stagePlan (l t o c b) : Spells .stagePlan (.stagePlan l t o c b)
  | commitPlan (m) : Spells .commitPlan (.commitPlan m)
  | discardPlan : Spells .discardPlan .discardPlan
  | shiftStart (n o) : Spells .shiftStart (.plantShiftStart n o)
  | shiftClose : Spells .shiftClose .shiftClose
  | ackCall (n r) : Spells .ackCall (.ackCall n r)
  | clearCall (n r) : Spells .clearCall (.clearCall n r)
  | writeLayoutZone (k u f l p c q m) : Spells .writeLayoutZone (.writeLayoutZone k u f l p c q m)
  | writeLayoutStation (n f l) : Spells .writeLayoutStation (.writeLayoutStation n f l)
  | writePolicy (v g) : Spells .writePolicy (.writePolicy v g)
  | writeLinkSettings (a b c) : Spells .writeLinkSettings (.writeLinkSettings a b c)
  | setWindow (a b c d) : Spells .setWindow (.setWindow a b c d)
  | setCursor (a b) : Spells .setCursor (.setCursor a b)
  | setAddressControl (a b c d) : Spells .setAddressControl (.setAddressControl a b c d)
  | setColourMode (m) : Spells .setColourMode (.setColourMode m)
  | setMask (m) : Spells .setMask (.setMask m)
  | setMark : Spells .setMark .setMark
  | returnToMark : Spells .returnToMark .returnToMark
  | writePixels (o) : Spells .writePixels (.writePixels o)
  | readPixels : Spells .readPixels .readPixels
  | writeRegion (e r a b c d f h i) : Spells .writeRegion (.writeRegion e r a b c d f h i)
  | setIntensity (a b c) : Spells .setIntensity (.setIntensity a b c)
  | restartTiles : Spells .restartTiles .restartTiles

/-- Two bytes of a field, most significant first (R181). -/
def halfBytes (h : Half) : List Byte := [BitVec.ofNat 8 (h.toNat / 256), BitVec.ofNat 8 (h.toNat % 256)]

/-- The commands with the argument bytes that spell them after the command byte, in the order R181 gives. -/
inductive SpelledBy : PlantCommand → List Byte → Instr → Prop
  | readStatus : SpelledBy .readStatus [] (.readStatus .taken)
  | readStation (n) : SpelledBy .readStation [n] (.readStation (.taken n))
  | readCalls : SpelledBy .readCalls [] .readCalls
  | readPace : SpelledBy .readPace [] (.readPace .taken)
  | readLoss : SpelledBy .readLoss [] (.readLoss .taken)
  | readSummary (n) : SpelledBy .readSummary [n] (.readSummary (.taken n))
  | readHistory : SpelledBy .readHistory [] .readHistory
  | rewindHistory : SpelledBy .rewindHistory [] .rewindHistory
  | stagePlan (l t o c b) :
      SpelledBy .stagePlan
        (halfBytes l ++ halfBytes t ++ halfBytes o ++ [c] ++
          b.toList.flatMap fun x => halfBytes x.start ++ halfBytes x.length)
        (.stagePlan l t o c b)
  | commitPlan (m) : SpelledBy .commitPlan [m] (.commitPlan m)
  | discardPlan : SpelledBy .discardPlan [] .discardPlan
  | shiftStart (n o) : SpelledBy .shiftStart (halfBytes n ++ halfBytes o) (.plantShiftStart n o)
  | shiftClose : SpelledBy .shiftClose [] .shiftClose
  | ackCall (n r) : SpelledBy .ackCall (halfBytes n ++ [r]) (.ackCall n r)
  | clearCall (n r) : SpelledBy .clearCall (halfBytes n ++ [r]) (.clearCall n r)
  | writeLayoutZone (k u f l p c q m) :
      SpelledBy .writeLayoutZone [k, u, f, l, p, c, q, m] (.writeLayoutZone k u f l p c q m)
  | writeLayoutStation (n f l) : SpelledBy .writeLayoutStation [n, f, l] (.writeLayoutStation n f l)
  | writePolicy (v g) : SpelledBy .writePolicy (v.toList.flatMap halfBytes ++ halfBytes g) (.writePolicy v g)
  | writeLinkSettings (a b c) : SpelledBy .writeLinkSettings [a, b, c] (.writeLinkSettings a b c)
  | setWindow (a b c d) : SpelledBy .setWindow [a, b, c, d] (.setWindow a b c d)
  | setCursor (a b) : SpelledBy .setCursor [a, b] (.setCursor a b)
  | setAddressControl (a b c d) : SpelledBy .setAddressControl [a, b, c, d] (.setAddressControl a b c d)
  | setColourMode (m) : SpelledBy .setColourMode [m] (.setColourMode m)
  | setMask (m) : SpelledBy .setMask [m] (.setMask m)
  | setMark : SpelledBy .setMark [] .setMark
  | returnToMark : SpelledBy .returnToMark [] .returnToMark
  | writePixels (o) : SpelledBy .writePixels [o] (.writePixels o)
  | readPixels : SpelledBy .readPixels [] .readPixels
  | writeRegion (e r a b c d f h i) :
      SpelledBy .writeRegion [e, r, a, b, c, d, f, h, i] (.writeRegion e r a b c d f h i)
  | setIntensity (a b c) : SpelledBy .setIntensity [a, b, c] (.setIntensity a b c)
  | restartTiles : SpelledBy .restartTiles [] .restartTiles

/-- The byte of eight bits sent most significant bit first (R122, R132). -/
def clockedByte (bits : List Bool) : Byte := BitVec.ofNat 8 (bits.foldl (fun n b => 2 * n + b.toNat) 0)

/-- The Line Port once the oldest frame has left the queue with a result (R126, R128). -/
def LinePort.answered (l : LinePort) (rest : List Frame) (r : LineResult) : LinePort :=
  { l with queue := rest, lastResult := r }

/-- The Plant Port once a command that changes state has been applied with a result (R133, R134). -/
def PlantPort.answered (p : PlantPort) (r : PlantResult) : PlantPort :=
  { p with transaction := .ignoring, lastResult := r }

/-- The Plant Port with its link timer restarted (R141). -/
def PlantPort.linked (p : PlantPort) : PlantPort := { p with link := ⟨.up, 0, p.link.timeout⟩ }

/-- The banner, where the restart of the plant link ends its being LOST (R141). -/
def State.plantLinkRoles (s : State) : List Role := if s.plant.link.state = .lost then [.banner] else []

/-! ### The Frame Store and the plant's addressing (R143, R145, R146) -/

/-- A rectangle of the frame, each pair in order. -/
def Rect.InFrame (r : Rect) : Prop := r.x0 ≤ r.x1 ∧ r.x1 ≤ 159 ∧ r.y0 ≤ r.y1 ∧ r.y1 ≤ 47

/-- A position of the frame. -/
def Point.InFrame (p : Point) : Prop := p.x ≤ 159 ∧ p.y ≤ 47

/-- A pixel transfer has begun and not ended. -/
def Transaction.transferring : Transaction → Bool
  | .pixelsIn _ | .pixelsOut _ => true
  | .waiting | .ready | .arguments _ | .ignoring | .status _ | .station _ _ | .calls _ _ | .pace _ | .loss _ _
  | .summary _ _ | .history _ | .pixelsRefused => false

/-- The pixels have their canonical form, every rectangle and position lies in the frame, and during a transfer
the cursor lies in the window. -/
def State.FrameForm (s : State) : Prop :=
  s.frame.pixels.wf = true ∧ s.frame.window.InFrame ∧ s.frame.cursor.InFrame ∧ s.frame.mark.InFrame ∧
    (∀ i, (s.engine.regions.at_ i).rect.InFrame) ∧
    (s.plant.transaction.transferring = true →
      s.frame.window.holds s.frame.cursor.x s.frame.cursor.y = true)

/-! ### The Layout Table (R156) -/

/-- Two regions in force share no pixel and no engine role, every entry's fields lie in their ranges, and a pass is
in flight only in an entry in force with an engine role (R156, R158, R159). -/
def State.RegionsApart (s : State) : Prop :=
  (∀ i j, i ≠ j → (s.engine.regions.at_ i).enabled = true → (s.engine.regions.at_ j).enabled = true →
      (s.engine.regions.at_ i).rect.meets (s.engine.regions.at_ j).rect = false ∧
      ((s.engine.regions.at_ i).role.isEngine = true →
        (s.engine.regions.at_ i).role ≠ (s.engine.regions.at_ j).role)) ∧
    (∀ i, (s.engine.regions.at_ i).headerRows ≤ 2 ∧ 1 ≤ (s.engine.regions.at_ i).scrollInterval ∧
      (s.engine.regions.at_ i).scrollInterval ≤ 10) ∧
    ∀ i, (s.engine.regions.at_ i).render ≠ .idle → (s.engine.regions.at_ i).owns = true

/-- No render request is latched between events (log 9). -/
def State.Quiet (s : State) : Prop := s.engine.requests = .none

/-! ### The line layout and the Tracker's counts (R1, R6, R16, R17) -/

/-- A zone record's fields lie in their ranges (R1). -/
def ZoneRecord.InRange (r : ZoneRecord) : Prop :=
  r.first ≤ 47 ∧ r.last ≤ 47 ∧ 8 ≤ r.pitch ∧ r.pitch ≤ 255 ∧ r.coastAllowance ≤ 31 ∧ r.stallIndex ≤ 3 ∧
    r.capacity ≤ 15

/-- The used zones follow one another from station 0, every field lies in its range, accumulators stay below
the pitch and buffer counts within the capacity, at 0 for an unused buffer. -/
def State.LineForm (s : State) : Prop :=
  1 ≤ s.layout.used ∧ s.layout.used ≤ 6 ∧
    (∀ k, (s.layout.zones.at_ k).InRange) ∧
    (∀ st, 4 ≤ (s.layout.stations.at_ st).length ∧ (s.layout.stations.at_ st).length ≤ 64) ∧
    (s.layout.zones.at_ 0).first = 0 ∧
    (∀ k, s.layout.zoneUsed k = true → (s.layout.zones.at_ k).first ≤ (s.layout.zones.at_ k).last) ∧
    (∀ b : Fin 5, s.layout.bufferUsed b = true →
      (s.layout.zones.at_ (downstreamZone b)).first = (s.layout.zones.at_ (upstreamZone b)).last + 1) ∧
    (∀ k, (s.tracker.zones.at_ k).accumulator < (s.layout.zones.at_ k).pitch) ∧
    (∀ b, (s.tracker.buffers.at_ b).count ≤ s.layout.capacity b) ∧
    ∀ b, s.layout.bufferUsed b = false → (s.tracker.buffers.at_ b).count = 0

/-! ### The Call List (R35, R36, R39) -/

/-- Call numbers and stations are distinct, numbers and the allocator lie in 1..9999, no call holds the
allocator's number, each station record names its open call, and levels, kinds and ever held fit the phase. -/
def State.CallsForm (s : State) : Prop :=
  (s.callList.calls.map Call.number).Nodup ∧ (s.callList.calls.map Call.station).Nodup ∧
    (1 ≤ s.callList.allocator ∧ s.callList.allocator ≤ 9999) ∧
    s.callList.allocator ∉ s.callList.calls.map Call.number ∧
    (∀ st, (s.stations.at_ st).openCall = (s.callList.atStation st).map Call.number) ∧
    ∀ c ∈ s.callList.calls, (1 ≤ c.number ∧ c.number ≤ 9999) ∧ c.level ≤ 3 ∧ c.kinds ≠ [] ∧
      (c.phase = .hold → c.everHeld = true)

/-! ### The Shift Timer (R63, R68, R71, R75) -/

/-- A plan's fields as staging leaves them (R64). -/
def Plan.InRange (p : Plan) : Prop :=
  1800 ≤ p.length ∧ p.length ≤ 43200 ∧ 300 ≤ p.takt ∧ p.takt ≤ 6000 ∧ p.overtime ≤ 7200 ∧ p.breaks.length ≤ 6

/-- Every held plan lies in range, a shift that is open or closing has a number and an active plan, a start is
pending only in CLOSING, the correction lies in −60..+60, and the stored figures hold G as the cars of Gm and were
computed with the A that stands. -/
def State.TimerForm (s : State) : Prop :=
  (∀ p, s.timer.staged = some p ∨ s.timer.next = some p ∨ s.timer.active = some p → p.InRange) ∧
    (s.timer.state ≠ .noShift → s.timer.number ≠ 0 ∧ s.timer.active.isSome = true) ∧
    (∀ q, s.timer.pendingStart = some q → s.timer.state = .closing ∧ q.number ≠ 0) ∧
    -60 ≤ s.timer.correction ∧ s.timer.correction ≤ 60 ∧
    s.pace.figures.g = s.pace.figures.gm / 1000 ∧ s.pace.figures.shownActual = s.pace.actual

/-! ### Queues, logs and counts -/

/-- The Line Intake Queue holds at most 16 frames, and a frame is received only with a slot free (R123, R126). -/
def State.QueueForm (s : State) : Prop :=
  s.line.queue.length ≤ 16 ∧ (s.line.phase = .receiving → s.line.queue.length < 16)

/-- The log holds at most 128 records, and the cursor designates one of them or stands at end (R111, R115). -/
def State.HistoryForm (s : State) : Prop :=
  s.history.length ≤ 128 ∧ ∀ n, s.plant.historyCursor = some n → n < s.history.length

/-- A miss count lies in 0..3 and is 3 on an ABSENT tile (R172). -/
def TilePresence.InRange (p : TilePresence) : Prop := p.miss ≤ 3 ∧ (p.absent = true → p.miss = 3)

/-- The saturating and bounded counts lie within their bounds (R27, R69, R91, R130, R141, R172 to R175). -/
def State.CountsInRange (s : State) : Prop :=
  s.pace.actual ≤ 9999 ∧ s.timer.runClock ≤ 4294967295 ∧ s.line.link.count ≤ 60 ∧ s.plant.link.count ≤ 60 ∧
    (∀ k, (s.tracker.zones.at_ k).coast ≤ 255) ∧
    (∀ t, (s.tiles.tiles.at_ t).InRange) ∧ s.tiles.startCount ≤ 10 ∧ s.tiles.target ≤ 63 ∧
    s.tiles.actual ≤ 63 ∧ s.tiles.decreaseCount ≤ 3 ∧ s.tiles.rampCode ≤ 5

end Sys2Proof.Machine
end

