-- ==== Sys2Proof/Certificates/Slice0/Obligations.lean ====
section
/-! DEFINITION. The statements for the provers. A statement about a command gives the command's next state and
its frame: `{ t with x := s.x } = s` says that `t` and `s` differ in `x` alone. -/

section

open Sys2Proof Sys2Proof.Machine

/-! ### The block as a whole -/

/-- The step takes the command at the front of the queue (the model's queue, log 1). -/
def Obligations.StepTakesFrontCommand : Prop :=
  ∀ (c : Instr) (rest : List Instr) (s : State),
    step { s with pending := c :: rest } = exec c { s with pending := rest }

/-- On an empty queue each pass in flight writes one pixel, the picture's at its place, and the chain sends one (the
model's choice, log 1, of when R160's and R171's pixels are written and sent; the chain's pixel, intensity and
enable are those of the portion's beginning, log 15, DEDUCED). -/
def Obligations.EmptyQueueDrawsAndSendsOnePixel : Prop :=
  ∀ s : State, s.pending = [] → s.inReset = false →
    let width (r : Region) : Nat := r.rect.x1 + 1 - r.rect.x0
    let area (r : Region) : Nat := width r * (r.rect.y1 + 1 - r.rect.y0)
    let place (r : Region) (n : Nat) : Nat := 160 * (r.rect.y0 + n / width r) + (r.rect.x0 + n % width r)
    let p := s.tiles.portion
    ∃ t, step s = .next t ∧
      { t with frame := s.frame, engine := s.engine, tiles := s.tiles } = s ∧
      { t.frame with pixels := s.frame.pixels } = s.frame ∧
      OnlyRenders s.engine t.engine ∧
      (∀ i c n again, (s.engine.regions.at_ i).render = .busy c n again →
        (t.engine.regions.at_ i).render =
          .busy c (if n < area (s.engine.regions.at_ i) then n + 1 else n) again) ∧
      (∀ i, (s.engine.regions.at_ i).render = .idle → (t.engine.regions.at_ i).render = .idle) ∧
      (s.FrameForm → s.RegionsApart → ∀ i c n again, (s.engine.regions.at_ i).render = .busy c n again →
        let r := s.engine.regions.at_ i
        n < area r → t.frame.pixels.read (place r n) = r.pictureAt c (n % width r) (n / width r)) ∧
      (∀ a, (∀ i c n again, (s.engine.regions.at_ i).render = .busy c n again →
          n < area (s.engine.regions.at_ i) → a ≠ place (s.engine.regions.at_ i) n) →
        t.frame.pixels.read a = s.frame.pixels.read a) ∧
      { t.tiles with portion := { t.tiles.portion with sent := p.sent, levels := p.levels } } = s.tiles ∧
      (p.sent < 256 →
        t.tiles.portion.sent = p.sent + 1 ∧
        t.tiles.portion.levels =
          let v := p.pixels.read (160 * (16 * (p.tile.val % 3) + p.sent / 16) + (16 * (p.tile.val / 3) + p.sent % 16))
          if p.lit = true then
            ⟨v.r.toNat * p.intensity, v.g.toNat * p.intensity, v.b.toNat * p.intensity⟩
          else ⟨0, 0, 0⟩) ∧
      (256 ≤ p.sent → t.tiles = s.tiles)

/-- Every command ends in a next state and leaves the queue as it is. -/
def Obligations.EveryCommandCompletesAndKeepsTheQueue : Prop :=
  ∀ (c : Instr) (s : State), ∃ t, exec c s = .next t ∧ t.pending = s.pending

/-- Hard reset is in force exactly while a condition holds; in it no event but a hard reset and its end acts, MISO is
high-impedance and SDA released (R178; log 3 for the events of the ports). -/
def Obligations.HardResetHoldsBackEvents : Prop :=
  ∀ (c : Instr) (s : State),
    (s.inReset = true ↔ s.conditions.supplyLow = true ∨ s.conditions.rstnLow = true) ∧
    (s.inReset = true →
      (∀ i, s.miso i = none) ∧ s.misoLevel = none ∧ s.sdaReleased = true ∧
      ((∀ input, c ≠ .hardReset input) → (∀ adr tst xtal gone, c ≠ .endOfHardReset adr tst xtal gone) →
        exec c s = .next s))

/-- The state right after reset meets every invariant (its moment and straps are the model's choice, log 2). -/
def Obligations.ResetStateMeetsEveryInvariant : Prop :=
  State.reset.FrameForm ∧ State.reset.RegionsApart ∧ State.reset.Quiet ∧ State.reset.SetsCurrent ∧
    State.reset.CausesCurrent ∧ State.reset.LineForm ∧ State.reset.CallsForm ∧ State.reset.TimerForm ∧
    State.reset.QueueForm ∧ State.reset.HistoryForm ∧ State.reset.CountsInRange ∧
    State.reset.inReset = false ∧ State.reset.pending = []

/-! ### Invariants that every step keeps -/

/-- The pixels keep their canonical form, and windows, cursors and regions stay in the frame. -/
def Obligations.StepKeepsFrameForm : Prop :=
  ∀ s t : State, s.FrameForm → step s = .next t → t.FrameForm

/-- Regions in force keep apart, and passes are in flight in them alone (R156, R158, R159). -/
def Obligations.StepKeepsRegionsApart : Prop :=
  ∀ s t : State, s.RegionsApart → step s = .next t → t.RegionsApart

/-- The layout stays contiguous and in range, and the Tracker's counts within it. -/
def Obligations.StepKeepsLineForm : Prop :=
  ∀ s t : State, s.LineForm → step s = .next t → t.LineForm

/-- The Call List keeps its form (R35, R39). -/
def Obligations.StepKeepsCallsForm : Prop :=
  ∀ s t : State, s.CallsForm → step s = .next t → t.CallsForm

/-- The Shift Timer keeps its form. -/
def Obligations.StepKeepsTimerForm : Prop :=
  ∀ s t : State, s.TimerForm → step s = .next t → t.TimerForm

/-- Every event leaves the stop-reason sets derived (R24) and the cause set holding the causes present (R176). Derived
sets are those that meet the five membership conditions, and those alone (R21, R22; a count past its capacity, which no
run reaches, is taken with the capacity). ZSTOP is asserted exactly while a set is not empty, and its withdrawal clears
coast and OVERRUN (R25); a zone qualifies by R29's four conditions, loses STALL and its misses as it stops and has its
stepped mark set as it starts; the causes and ALERT are R176's. -/
def Obligations.StepKeepsStopSetsAndAlertCausesDerived : Prop :=
  (∀ s t : State, s.SetsCurrent → step s = .next t → t.SetsCurrent) ∧
  (∀ s t : State, s.CausesCurrent → step s = .next t → t.CausesCurrent) ∧
  ∀ s : State,
    let zone (k : Fin 6) : ZoneState := s.tracker.zones.at_ k
    let used (k : Fin 6) : Prop := k.val < s.layout.used
    let base (k : Fin 6) : Prop :=
      (zone k).reasons.hold = true ∨ (zone k).reasons.plan = true ∨ (zone k).reasons.xstop = true
    let stopped (k : Fin 6) : Prop := base k ∨ (zone k).reasons.blocked = true ∨ (zone k).reasons.starved = true
    (s.SetsCurrent ↔ ∀ k : Fin 6,
      ((zone k).reasons.hold = true ↔ used k ∧ ∃ c ∈ s.callList.calls, c.zone = k ∧ c.phase = .hold) ∧
      ((zone k).reasons.plan = true ↔ used k ∧ s.timer.state = .inBreak) ∧
      ((zone k).reasons.xstop = true ↔ used k ∧ s.tracker.xstop.taken = true) ∧
      ((zone k).reasons.blocked = true ↔ ∃ (b : Fin 5) (j : Fin 6), b.val = k.val ∧ j.val = k.val + 1 ∧ used j ∧
        (s.layout.zones.at_ k).capacity ≤ (s.tracker.buffers.at_ b).count ∧
        (base j ∨ (zone j).reasons.blocked = true)) ∧
      ((zone k).reasons.starved = true ↔ ∃ (b : Fin 5) (j : Fin 6), b.val = j.val ∧ k.val = j.val + 1 ∧ used k ∧
        (s.tracker.buffers.at_ b).count = 0 ∧ (base j ∨ (zone j).reasons.starved = true))) ∧
    (∀ k, s.zstop k = true ↔ stopped k) ∧
    (∀ k, s.qualifies k = true ↔ used k ∧ (s.layout.zones.at_ k).stallCheck = true ∧ ¬stopped k ∧
      (s.timer.state = .production ∨ s.timer.state = .overtime)) ∧
    (∀ t, step s = .next t → ∀ k : Fin 6,
      let z := t.tracker.zones.at_ k
      (s.zstop k = true → t.zstop k = false → z.coast = 0 ∧ z.overrun = false) ∧
      (s.qualifies k = true → t.qualifies k = false → z.stall = false ∧ z.miss = 0) ∧
      (s.qualifies k = false → t.qualifies k = true → z.miss = 0 ∧ z.stepped = true)) ∧
    (s.CausesCurrent ↔
      (s.alert.causes.level3 = true ↔ ∃ c ∈ s.callList.calls, 3 ≤ c.level) ∧
      (s.alert.causes.overrun = true ↔ ∃ k, used k ∧ (zone k).overrun = true) ∧
      (s.alert.causes.stall = true ↔ ∃ k, used k ∧ (zone k).stall = true)) ∧
    (s.alert.asserted = true ↔
      s.alert.causes.level3 = true ∧ s.alert.mask.level3 = true ∨
        s.alert.causes.overrun = true ∧ s.alert.mask.overrun = true ∨
        s.alert.causes.stall = true ∧ s.alert.mask.stall = true)

/-- The Line Intake Queue and the Stoppage History Log keep their bounds, with the cursor on a record of the log or
at end (R111, R115, R126); saturating counts stay within theirs; no render request stays latched (log 9). -/
def Obligations.StepKeepsQueueHistoryAndCountBounds : Prop :=
  (∀ s t : State, s.QueueForm → step s = .next t → t.QueueForm) ∧
    (∀ s t : State, s.HistoryForm → step s = .next t → t.HistoryForm) ∧
    (∀ s t : State, s.CountsInRange → step s = .next t → t.CountsInRange) ∧
    ∀ s t : State, s.Quiet → step s = .next t → t.Quiet

/-! ### Hard reset and its end -/

/-- What hard reset sets, block by block, where a moment of HARD_RESET leaves a condition of it present; a LOW on RSTn
shorter than its 10 µs, or with nothing timed, changes the conditions alone (R178; that the moments come as operands is
the model's choice, log 36). The straps keep their sampled values until its end (the model's reading,
log 24), and the Line Port's answer unanswered and its answers to bytes none are the model's values for outputs the
spec gives no reset value (log 29, PRESUMED). -/
def Obligations.HardResetSetsEveryBlock : Prop :=
  ∀ (input : ResetInput) (s : State),
    let c := s.conditions
    let conditions : ResetConditions := match input with
      | .rstn => ⟨c.supplyLow, true, false⟩
      | .supplyFalls => ⟨true, c.rstnLow, c.rstnTimed⟩
      | .rstnFalls => ⟨c.supplyLow, c.rstnLow, !c.rstnLow⟩
      | .rstnHeld => ⟨c.supplyLow, c.rstnLow || c.rstnTimed, false⟩
    let present := conditions.supplyLow = true ∨ conditions.rstnLow = true
    (¬present → exec (.hardReset input) s = .next { s with conditions := conditions }) ∧
    (present → ∃ t, exec (.hardReset input) s = .next t ∧
    t.conditions = conditions ∧ t.straps = s.straps ∧ t.pending = s.pending ∧
    (∀ i, t.miso i = none) ∧ t.misoLevel = none ∧ t.sdaReleased = true ∧
    -- the layout and the station records
    t.layout.used = 1 ∧
    (∀ k, t.layout.zones.at_ k = ⟨0, if k = 0 then 15 else 0, 32, 4, 1, true, 0⟩) ∧
    (∀ st : Fin 48, t.layout.stations.at_ st = ⟨decide (st.val < 16), 16⟩) ∧
    (∀ st, t.stations.at_ st = ⟨none, 0, 0, none⟩) ∧
    -- the Conveyor Tracker
    (∀ k, t.pitch.at_ k = ⟨false, false⟩) ∧
    (∀ k, t.tracker.zones.at_ k = ⟨0, ⟨false, false, false, false, false⟩, 0, false, 0, false, false⟩) ∧
    (∀ b, t.tracker.buffers.at_ b = ⟨0, false, false⟩) ∧ t.tracker.xstop = ⟨false, false⟩ ∧
    (∀ k, t.zstop k = false) ∧
    -- the Call List and the policy
    t.callList.calls = [] ∧ t.callList.allocator = 1 ∧
    t.callList.policy =
      ⟨⟨180, 420, 900⟩, ⟨120, 300, 600⟩, ⟨300, 600, 1200⟩, ⟨10, 60, 180⟩, ⟨240, 600, 0⟩, 120⟩ ∧
    -- the Shift Timer, the Pace Unit, Loss Accounting, the Archive, the History Log
    t.timer = ⟨.noShift, 0, 0, 0, none, none, none, 0, 0, 0, 0, none⟩ ∧
    t.pace = ⟨0, 0, 0, 0, ⟨0, 0, 0, 0, 0, 0, none, 0⟩⟩ ∧
    (∀ k, t.loss.zones.at_ k = ⟨⟨0, 0, 0, 0, 0⟩, ⟨0, 0, 0, 0, 0⟩⟩) ∧
    t.loss.lineLost = 0 ∧ t.loss.opened = 0 ∧ t.loss.closed = 0 ∧ t.loss.longestHold = 0 ∧
    (∀ j, t.archive.slots.at_ j = .empty) ∧ t.archive.newest = none ∧ t.history = [] ∧
    -- the ports
    t.line = ⟨.idle, .unanswered, [], [], .ok, ⟨.never, 0, some 2⟩, true, false, ⟨.stopped, [], [], 0, true⟩⟩ ∧
    t.plant = ⟨.waiting, .ok, ⟨.never, 0, some 15⟩, false, none, ⟨false, [], [], 0, true⟩⟩ ∧
    -- the Frame Store
    (∀ a, t.frame.pixels.read a = ⟨0, 0, 0⟩) ∧ t.frame.window = ⟨0, 0, 159, 47⟩ ∧
    t.frame.cursor = ⟨0, 0⟩ ∧ t.frame.mark = ⟨0, 0⟩ ∧ t.frame.control = ⟨false, false, false, true⟩ ∧
    t.frame.colourMode = .c12 ∧ t.frame.mask = ⟨false, false, false⟩ ∧
    -- the Composition Engine
    (∀ i, (t.engine.regions.at_ i).render = .idle ∧ (t.engine.regions.at_ i).headerRows = 0 ∧
      (t.engine.regions.at_ i).scrollInterval = 4) ∧
    ((List.finRange 8).map fun i =>
        ((t.engine.regions.at_ i).role, (t.engine.regions.at_ i).rect, (t.engine.regions.at_ i).enabled)) =
      [(.banner, ⟨0, 0, 159, 7⟩, true), (.pace, ⟨0, 8, 159, 23⟩, true), (.stations, ⟨0, 24, 159, 31⟩, true),
       (.ticker, ⟨0, 32, 119, 47⟩, true), (.clock, ⟨120, 32, 159, 47⟩, true), (.message, ⟨0, 0, 0, 0⟩, false),
       (.message, ⟨0, 0, 0, 0⟩, false), (.message, ⟨0, 0, 0, 0⟩, false)] ∧
    t.engine.scrollOffset = 0 ∧ t.engine.scrollCount = 0 ∧ t.engine.flashOn = true ∧
    t.engine.overflow = false ∧
    -- the Tile Driver and the Alert Logic
    (∀ i, t.tiles.tiles.at_ i = ⟨false, 0⟩) ∧ t.tiles.startCount = 0 ∧ t.tiles.target = 32 ∧
    t.tiles.actual = 0 ∧ t.tiles.rampCode = 2 ∧ t.tiles.asymmetric = false ∧ t.tiles.override = true ∧
    t.tiles.decreaseCount = 0 ∧
    t.alert = ⟨⟨false, false, false⟩, ⟨true, true, false⟩, ⟨false, false⟩⟩ ∧ t.alert.asserted = false)

/-- Hard reset ends when both conditions are gone: the straps are sampled, the sequential start begins, and every engine
role in force is requested; where one condition holds still, or no hard reset is in force, the conditions alone change
(R178; log 36 for the operand that says which go). -/
def Obligations.EndOfHardResetSamplesStrapsAndStarts : Prop :=
  ∀ (adr : BitVec 3) (tst : BitVec 2) (xtal : Bool) (gone : ResetEnd) (s : State), s.Quiet →
    let c := s.conditions
    let conditions : ResetConditions := match gone with
      | .both => ⟨false, false, false⟩
      | .supply => ⟨false, c.rstnLow, c.rstnTimed⟩
      | .rstn => ⟨c.supplyLow, false, false⟩
    let present := conditions.supplyLow = true ∨ conditions.rstnLow = true
    ∃ t, exec (.endOfHardReset adr tst xtal gone) s = .next t ∧ t.conditions = conditions ∧
      (s.inReset = false ∨ present → t = { s with conditions := conditions }) ∧
      (s.inReset = true → ¬present →
        { t with conditions := s.conditions, straps := s.straps, tiles := s.tiles, engine := s.engine } = s ∧
        t.inReset = false ∧ t.straps = ⟨adr, tst, xtal⟩ ∧ t.ownAddress = 0x38 + adr.toNat ∧
        { t.tiles with startCount := s.tiles.startCount, portion := s.tiles.portion } = s.tiles ∧
        t.tiles.startCount = (if tst = 0 then 10 else 0) ∧
        RequestedOnly [.pace, .stations, .ticker, .clock, .banner] s t)

/-! ### Conveyor Tracker (c02) -/

/-- Each PITCH input has a filter: a level other than the one taken is timed, taken once held for the 20 µs, and
dropped where it ends before (R14; that the filter's moments come as operands of STEP is the model's choice, log 20).
A HIGH level taken while the zone is used is a step: it moves its zone's accumulator, coast, OVERRUN, miss count,
stepped mark and STALL and lowers the WARN countdowns of the zone's calls (R15, R27, R28, R43, R44); the sets and
stall qualification follow (R24, R29), with the requests of all that changed (R161; logs 9 and 11). Every other moment changes the filter alone. -/
def Obligations.StepMovesItsZoneAndItsCalls : Prop :=
  ∀ (k : Fin 6) (m : PitchMoment) (s : State), s.inReset = false → s.Quiet →
    let f := s.pitch.at_ k
    let filter : PinFilter := match m with
      | .pulse => ⟨true, false⟩
      | .level high => ⟨f.taken, decide (high ≠ f.taken)⟩
      | .held => if f.timing then ⟨!f.taken, false⟩ else f
    let steps := s.layout.zoneUsed k = true ∧ (m = .pulse ∨ m = .held ∧ f = ⟨false, true⟩)
    (s.CausesCurrent → ¬steps → exec (.step ⟨k, m⟩) s = .next { s with pitch := s.pitch.put k filter }) ∧
    (steps →
      ∃ t, exec (.step ⟨k, m⟩) s = .next t ∧ t.pitch = s.pitch.put k ⟨true, false⟩ ∧
        (let z := s.tracker.zones.at_ k
         let r := s.layout.zones.at_ k
         let coast := if s.zstop k ∧ z.coast < 255 then z.coast + 1 else z.coast
         Settled (fun j =>
            if j = k then
              { accumulator := if r.pitch ≤ z.accumulator + 1 then 0 else z.accumulator + 1
                reasons := z.reasons
                coast := coast
                overrun := z.overrun || (s.zstop k && decide (r.coastAllowance < coast))
                miss := 0
                stepped := true
                stall := false }
            else s.tracker.zones.at_ j) s t) ∧
        t.SetsCurrent ∧ t.CausesCurrent ∧ t.tracker.xstop = s.tracker.xstop ∧
        t.callList =
          { s.callList with
            calls := s.callList.calls.map fun c =>
              if c.zone = k ∧ c.phase = .warn then
                if c.remaining ≤ 1 then { c with remaining := 0, phase := .hold, everHeld := true }
                else { c with remaining := c.remaining - 1 }
              else c } ∧
        RequestedOnly
          (changeRoles s t ++
            if s.callList.calls.any fun c => decide (c.zone = k ∧ c.phase = .warn ∧ c.remaining ≤ 1) then
              [.stations, .ticker]
            else []) s t ∧
        t.conditions = s.conditions ∧ t.straps = s.straps ∧ t.layout = s.layout ∧ t.stations = s.stations ∧
        t.loss = s.loss ∧ t.history = s.history ∧ t.line = s.line ∧ t.frame = s.frame ∧
        t.pending = s.pending ∧ OnlyEchoes s t)

/-- A step, given as a whole pulse or as the end of a HIGH level's 20 µs (log 20): one that completes no car moves no
buffer, no count and no shift; one that completes a car delivers into the buffer ahead, draws from the one behind
(R16, R17) and, from the last used zone in an open shift, raises the actual count (R20), which in OVERTIME may meet the
target and start the close (R79). -/
def Obligations.StepHandsCarsToBuffersAndActualCount : Prop :=
  ∀ (k : Fin 6) (m : PitchMoment) (s : State), s.inReset = false → s.layout.zoneUsed k = true →
    m = .pulse ∨ m = .held ∧ s.pitch.at_ k = ⟨false, true⟩ →
    ∃ t, exec (.step ⟨k, m⟩) s = .next t ∧
      ((s.tracker.zones.at_ k).accumulator + 1 < (s.layout.zones.at_ k).pitch →
        t.tracker.buffers = s.tracker.buffers ∧ t.pace = s.pace ∧ t.timer = s.timer ∧
          t.archive = s.archive ∧ t.plant = s.plant) ∧
      ((s.layout.zones.at_ k).pitch ≤ (s.tracker.zones.at_ k).accumulator + 1 →
        (∀ b : Fin 5, t.tracker.buffers.at_ b =
          let x := s.tracker.buffers.at_ b
          if s.layout.bufferUsed b = true ∧ upstreamZone b = k then
            if x.count < s.layout.capacity b then ⟨x.count + 1, x.overSlip, x.underSlip⟩
            else ⟨x.count, true, x.underSlip⟩
          else if s.layout.bufferUsed b = true ∧ downstreamZone b = k then
            if x.count = 0 then ⟨0, x.overSlip, true⟩ else ⟨x.count - 1, x.overSlip, x.underSlip⟩
          else x) ∧
        (k.val + 1 ≠ s.layout.used ∨ s.timer.state.isOpen = false ∨ 9999 ≤ s.pace.actual →
          t.pace = s.pace ∧ t.timer = s.timer ∧ t.archive = s.archive ∧ t.plant = s.plant) ∧
        (k.val + 1 = s.layout.used → s.timer.state.isOpen = true → s.pace.actual < 9999 →
          let u : State := { s with pace := { s.pace with actual := s.pace.actual + 1 } }
          t.pace = { u.pace with figures := u.computeFigures } ∧
          (s.timer.state = .overtime ∧ t.pace.figures.g ≤ s.pace.actual + 1 →
            t.timer = { s.timer with state := .closing } ∧ t.archive.newest = some s.archive.following ∧
            t.archive.slots =
              s.archive.slots.put s.archive.following (.writing ({ s with pace := t.pace }.snapshot .targetMet)) ∧
            t.plant = { s.plant with transaction := s.plant.transaction.slotTaken s.archive.following }) ∧
          (¬(s.timer.state = .overtime ∧ t.pace.figures.g ≤ s.pace.actual + 1) →
            t.timer = s.timer ∧ t.archive = s.archive ∧ t.plant = s.plant)))

/-- XSTOP, asserted HIGH, and XALERT, asserted LOW, each pass a filter: a level other than the one taken is timed, taken
once held for the 20 µs, and dropped where it ends before. The filtered XSTOP level enters and leaves every used zone's
set (R26); a taken change of either requests the banner (R161, R177; logs 9 and 11 for the roles of a changed set). That the filter's moments come as operands, a level
with its 20 µs among them, is the model's choice (log 20). -/
def Obligations.SafetyStopAndXalertFollowTheirInputs : Prop :=
  ∀ (m : LevelMoment) (s : State), s.inReset = false → s.Quiet → s.SetsCurrent → s.CausesCurrent →
    let filter (active : Bool) (f : PinFilter) : PinFilter := match m with
      | .taken high => ⟨decide (high = active), false⟩
      | .level high => ⟨f.taken, decide (decide (high = active) ≠ f.taken)⟩
      | .held => if f.timing then ⟨!f.taken, false⟩ else f
    (∃ t, exec (.xstopChange m) s = .next t ∧
      t.tracker.xstop = filter true s.tracker.xstop ∧ t.tracker.buffers = s.tracker.buffers ∧
      Settled s.tracker.zones.at_ s t ∧ t.SetsCurrent ∧ t.CausesCurrent ∧
      (∀ k, s.layout.zoneUsed k = true →
        (t.tracker.zones.at_ k).reasons.xstop = t.tracker.xstop.taken ∧
        (t.tracker.xstop.taken = true → t.zstop k = true)) ∧
      (t.tracker.xstop.taken = s.tracker.xstop.taken →
        t = { s with tracker := { s.tracker with xstop := t.tracker.xstop } }) ∧
      RequestedOnly
        (changeRoles s t ++ if t.tracker.xstop.taken = s.tracker.xstop.taken then [] else [.banner]) s t ∧
      { t with tracker := s.tracker, alert := s.alert, tiles := s.tiles, engine := s.engine } = s ∧
      OnlyEchoes s t) ∧
    (∃ t, exec (.xalertChange m) s = .next t ∧
      { t with alert := s.alert, engine := s.engine } = s ∧
      t.alert = { s.alert with xalert := filter false s.alert.xalert } ∧
      RequestedOnly (if t.alert.xalert.taken = s.alert.xalert.taken then [] else [.banner]) s t)

/-- A monitor second of a used zone: the miss count, STALL at the zone's stall qualification, the stepped mark
cleared (R30); of an unused zone, nothing. -/
def Obligations.StallMonitorCountsSilentSeconds : Prop :=
  ∀ (k : Fin 6) (s : State), s.inReset = false → s.Quiet → s.CausesCurrent →
    (s.layout.zoneUsed k = false → exec (.stallMonitorSecond k) s = .next s) ∧
    (s.layout.zoneUsed k = true →
      ∃ t, exec (.stallMonitorSecond k) s = .next t ∧
        (let z := s.tracker.zones.at_ k
         let q := match (s.layout.zones.at_ k).stallIndex with
           | 0 => 2
           | 1 => 3
           | 2 => 5
           | _ => 8
         let m := min q (z.miss + 1)
         (s.qualifies k = true → z.stepped = true →
            t.tracker.zones.at_ k = { z with miss := 0, stepped := false } ∧ t.engine = s.engine) ∧
         (s.qualifies k = true → z.stepped = false →
            t.tracker.zones.at_ k = { z with miss := m, stall := z.stall || decide (q ≤ m) } ∧
            RequestedOnly (if z.stall = false ∧ q ≤ m then [.stations] else []) s t) ∧
         (s.qualifies k = false →
            t.tracker.zones.at_ k = { z with miss := 0, stepped := false } ∧ t.engine = s.engine)) ∧
        (∀ j, j ≠ k → t.tracker.zones.at_ j = s.tracker.zones.at_ j) ∧
        { t.tracker with zones := s.tracker.zones } = s.tracker ∧ t.CausesCurrent ∧
        { t with tracker := s.tracker, alert := s.alert, tiles := s.tiles, engine := s.engine } = s ∧
        OnlyEchoes s t)

/-- BUFFER SET as it leaves the queue: RANGE for a buffer that is not used, else the count clamped to the
capacity and both slip flags cleared; the sets follow, with their requests (R19, R24, R161; logs 9
and 11). -/
def Obligations.BufferSetStoresClampedCount : Prop :=
  ∀ (b n : Byte) (rest : List Frame) (s : State), s.inReset = false → s.Quiet → s.SetsCurrent → s.CausesCurrent →
    s.line.queue = .bufferSet b n :: rest →
    (s.layout.used ≤ b.toNat + 1 ∨ 4 < b.toNat →
      exec .bufferSet s = .next { s with line := s.line.answered rest .range }) ∧
    (∀ i : Fin 5, i.val = b.toNat → b.toNat + 1 < s.layout.used →
      ∃ t, exec .bufferSet s = .next t ∧
        t.tracker.buffers = s.tracker.buffers.put i ⟨min n.toNat (s.layout.capacity i), false, false⟩ ∧
        t.tracker.xstop = s.tracker.xstop ∧
        Settled s.tracker.zones.at_ s t ∧ t.SetsCurrent ∧ t.CausesCurrent ∧
        t.line = s.line.answered rest .ok ∧ RequestedOnly (changeRoles s t) s t ∧
        { t with tracker := s.tracker, line := s.line, alert := s.alert, tiles := s.tiles, engine := s.engine }
          = s ∧
        OnlyEchoes s t)

/-! ### Timebase seconds of the run clock and the two links (c04, c08) -/

/-- The run clock's second (R69) with its TICKER request (R161), and the two link timers' seconds by R130's table
(R130, R141). That the minutes compared are those shown, capped at 99 (R166), is the model's reading (log 22,
DEDUCED), as is the one pass where several calls' minutes change (log 9). -/
def Obligations.TimebaseSecondsCountAndLinksFallSilent : Prop :=
  ∀ s : State, s.inReset = false → s.Quiet →
    (∃ t, exec .runClockSecond s = .next t ∧
      t.timer =
        { s.timer with
          runClock := if s.timer.runClock < 4294967295 then s.timer.runClock + 1 else s.timer.runClock } ∧
      { t with timer := s.timer, engine := s.engine } = s ∧
      RequestedOnly
        (if s.callList.calls.any fun c =>
            decide (min 99 ((s.timer.runClock - c.openedAt) / 60) ≠ min 99 ((t.timer.runClock - c.openedAt) / 60))
          then [.ticker] else []) s t) ∧
    (∃ t, exec .lineLinkSecond s = .next t ∧
      (let l := s.line.link
       let n := if l.count < 60 then l.count + 1 else l.count
       let lost := l.state = .up ∧ l.timeout.any (fun m => decide (m ≤ n)) = true
       t.line = { s.line with link := ⟨if lost then .lost else l.state, n, l.timeout⟩ } ∧
       RequestedOnly (if lost then [.stations, .ticker, .banner] else []) s t) ∧
      { t with line := s.line, engine := s.engine } = s) ∧
    (∃ t, exec .plantLinkSecond s = .next t ∧
      (let l := s.plant.link
       let n := if l.count < 60 then l.count + 1 else l.count
       let lost := l.state = .up ∧ l.timeout.any (fun m => decide (m ≤ n)) = true
       t.plant = { s.plant with link := ⟨if lost then .lost else l.state, n, l.timeout⟩ } ∧
       RequestedOnly (if lost then [.banner] else []) s t) ∧
      { t with plant := s.plant, engine := s.engine } = s)

/-! ### The Shift Timer's second (c04, c05, c06) -/

/-- A second with no correction makes one advance: the clock, the breaks, Wc and the figures, with the requests of what
changed (logs 9 and 11), where the advance comes to no end test (R75, R76, R84 to R89, R161). -/
def Obligations.ShiftSecondAdvancesClockBreaksAndFigures : Prop :=
  ∀ s : State, s.inReset = false → s.Quiet → s.timer.state.isOpen = true → s.timer.correction = 0 →
    let p := s.timer.plan
    let c := s.timer.clock + 1
    let state : ShiftState :=
      if s.timer.state = .production ∧ p.breaks.any (fun b => decide (b.start = c)) = true then .inBreak
      else if s.timer.state = .inBreak ∧ p.breaks.any (fun b => decide (b.start + b.length = c)) = true ∧
          p.breaks.any (fun b => decide (b.start = c)) = false then .production
      else s.timer.state
    let productive := s.timer.state = .production ∨ s.timer.state = .overtime
    ¬(state = .production ∧ c = p.length) → ¬(state = .overtime ∧ p.length + p.overtime ≤ c) →
    ∃ t, exec .shiftTimerSecond s = .next t ∧
      t.timer = { s.timer with clock := c, wc := if productive then s.timer.wc + 1 else s.timer.wc, state := state } ∧
      (if productive then t.pace = { s.pace with figures := t.pace.figures } ∧ t.FiguresCurrent
        else t.pace = s.pace) ∧
      (if state = s.timer.state then t.tracker = s.tracker
        else Settled s.tracker.zones.at_ s t ∧ t.tracker.buffers = s.tracker.buffers ∧
          t.tracker.xstop = s.tracker.xstop) ∧
      RequestedOnly (changeRoles s t) s t ∧
      t.archive = s.archive ∧ t.plant = s.plant ∧
      t.conditions = s.conditions ∧ t.straps = s.straps ∧ t.pitch = s.pitch ∧ t.layout = s.layout ∧
      t.callList = s.callList ∧ t.history = s.history ∧ t.line = s.line ∧ t.frame = s.frame ∧
      t.pending = s.pending ∧
      (¬productive → t.loss = s.loss ∧ t.stations = s.stations) ∧
      t.CausesCurrent ∧ OnlyEchoes s t

/-- The time correction paces the advances: none below 0, two above 0, one after the other (R75), each handing on
its own change of state (the model's reading, log 28), the requests of both served together (log 9); with no shift open
the second does nothing. -/
def Obligations.TimeCorrectionPacesShiftSeconds : Prop :=
  ∀ s : State, s.inReset = false → s.Quiet → s.CausesCurrent →
    (s.timer.state.isOpen = false → exec .shiftTimerSecond s = .next s) ∧
    (s.timer.state.isOpen = true → s.timer.correction < 0 →
      exec .shiftTimerSecond s =
        .next { s with timer := { s.timer with correction := s.timer.correction + 1 } }) ∧
    (s.timer.state.isOpen = true → 0 < s.timer.correction →
      ∃ u, exec .shiftTimerSecond { s with timer := { s.timer with correction := 0 } } = .next u ∧
        ∃ v, exec .shiftTimerSecond u = .next v ∧ ∃ t, exec .shiftTimerSecond s = .next t ∧
        t.timer = { v.timer with correction := s.timer.correction - 1 } ∧
        { t with timer := v.timer, engine := v.engine, alert := v.alert, tiles := v.tiles } = v ∧
        RequestedOnly (changeRoles s u ++ changeRoles u v) s t ∧
        t.CausesCurrent ∧ OnlyEchoes s t)

/-- The charge of a productive second: each used zone to the first cause present, HOLD also to the kind and
station of the zone's oldest HOLD call, and the line where its last used zone lost the second (R97 to R101). -/
def Obligations.ProductiveAdvanceChargesLostSeconds : Prop :=
  ∀ s : State, s.inReset = false → s.timer.state = .production ∨ s.timer.state = .overtime →
    s.timer.correction = 0 →
    ∃ t, exec .shiftTimerSecond s = .next t ∧
      -- the sets and STALL as step 1 of the advance leaves them
      (let zone (k : Fin 6) : ZoneState :=
        if t.timer.state = .inBreak then t.tracker.zones.at_ k else s.tracker.zones.at_ k
       let cause (k : Fin 6) : Option Cause :=
         let z := zone k
         if s.layout.used ≤ k.val then none
         else if z.reasons.xstop then some .xstop
         else if z.reasons.hold then some .hold
         else if z.reasons.plan then none
         else if z.stall then some .stall
         else if z.reasons.blocked then some .blocked
         else if z.reasons.starved then some .starved
         else none
       let oldest (k : Fin 6) : Option Call :=
         s.callList.calls.find? fun x => decide (x.zone = k) && decide (x.phase = .hold)
       let more (b : Prop) [Decidable b] (n : Nat) : Nat := if b ∧ n < 65535 then n + 1 else n
       (∀ k,
          let old := s.loss.zones.at_ k
          let kind := if cause k = some .hold then (oldest k).bind fun x => x.kinds.head? else none
          t.loss.zones.at_ k =
            { reasons :=
                { xstop := more (cause k = some .xstop) old.reasons.xstop
                  hold := more (cause k = some .hold) old.reasons.hold
                  stall := more (cause k = some .stall) old.reasons.stall
                  blocked := more (cause k = some .blocked) old.reasons.blocked
                  starved := more (cause k = some .starved) old.reasons.starved }
              kinds :=
                { quality := more (kind = some .quality) old.kinds.quality
                  parts := more (kind = some .parts) old.kinds.parts
                  equipment := more (kind = some .equipment) old.kinds.equipment
                  safety := more (kind = some .safety) old.kinds.safety
                  help := more (kind = some .help) old.kinds.help } }) ∧
       t.loss.lineLost =
         more (∃ k : Fin 6, k.val + 1 = s.layout.used ∧ (cause k).isSome = true) s.loss.lineLost ∧
       (∀ st,
          t.stations.at_ st =
            { s.stations.at_ st with
              chargedLoss :=
                more (∃ k : Fin 6, cause k = some .hold ∧ (oldest k).map Call.station = some st)
                  (s.stations.at_ st).chargedLoss })) ∧
      t.loss.opened = s.loss.opened ∧ t.loss.closed = s.loss.closed ∧ t.loss.longestHold = s.loss.longestHold ∧
      t.timer.wc = s.timer.wc + 1 ∧ t.callList = s.callList

/-- At L in PRODUCTION the shift closes with its target met or with no overtime allowed, else enters OVERTIME with
the target held; in OVERTIME it closes at the limit (R76, R78, R79, R80, R87). A break that ends at L is left in the
same advance, and the one resulting change is handed on (R68), with the requests of what changed (R161; logs 9 and 11). A close keeps
the figures as the second computes them, from H in OVERTIME and else from B, Wr and Wc (R85 to R88), as they stood in a
second of BREAK, which charges nothing (R76, R97); ProductiveAdvanceChargesLostSeconds states the charge of the other
seconds. -/
def Obligations.EndTestsCloseShiftOrEnterOvertime : Prop :=
  ∀ s : State, s.inReset = false → s.Quiet → s.TimerForm → s.timer.state.isOpen = true →
    s.timer.correction = 0 →
    let p := s.timer.plan
    let c := s.timer.clock + 1
    let atEnd :=
      c = p.length ∧ p.breaks.any (fun b => decide (b.start = c)) = false ∧
        (s.timer.state = .production ∨
          s.timer.state = .inBreak ∧ p.breaks.any (fun b => decide (b.start + b.length = c)) = true)
    let atLimit := s.timer.state = .overtime ∧ p.length + p.overtime ≤ c
    ∃ t, exec .shiftTimerSecond s = .next t ∧
      t.timer =
        { s.timer with
          clock := c
          wc := if s.timer.state = .inBreak then s.timer.wc else s.timer.wc + 1
          state := t.timer.state } ∧
      (atEnd → t.pace.figures.g ≤ s.pace.actual → CloseBegun .targetMet s t) ∧
      (atEnd → s.pace.actual < t.pace.figures.g → p.overtime = 0 → CloseBegun .lengthEnd s t) ∧
      (atEnd → s.pace.actual < t.pace.figures.g → 0 < p.overtime →
        t.timer.state = .overtime ∧ t.archive = s.archive ∧ t.plant = s.plant ∧
        t.pace = { s.pace with held := t.pace.held, figures := t.pace.figures } ∧ t.FiguresCurrent ∧
        t.pace.held =
          if s.timer.state = .inBreak then s.pace.figures.gm
          else s.pace.base + (t.timer.wc - s.pace.rebaseMark) * 10000 / p.takt) ∧
      (atLimit → CloseBegun .overtimeLimit s t) ∧
      (t.timer.state = .closing →
        t.pace = { s.pace with figures := t.pace.figures } ∧
        (s.timer.state = .inBreak → t.pace = s.pace) ∧
        (s.timer.state = .production →
          let m := s.pace.base + (t.timer.wc - s.pace.rebaseMark) * 10000 / p.takt
          t.pace.figures.Follow 0 m m s.pace.actual) ∧
        (s.timer.state = .overtime → t.pace.figures.Follow 0 s.pace.held s.pace.held s.pace.actual)) ∧
      (s.timer.state = .inBreak → t.loss = s.loss ∧ t.stations = s.stations) ∧
      RequestedOnly (changeRoles s t) s t ∧
      (t.timer.state = .closing → t.plant.lastResult = s.plant.lastResult ∧ t.plant.link = s.plant.link ∧
        ∀ i, i ≠ s.archive.following → t.archive.slots.at_ i = s.archive.slots.at_ i) ∧
      (if t.timer.state = s.timer.state then t.tracker = s.tracker
        else Settled s.tracker.zones.at_ s t ∧ t.tracker.buffers = s.tracker.buffers ∧
          t.tracker.xstop = s.tracker.xstop) ∧
      t.conditions = s.conditions ∧ t.straps = s.straps ∧ t.pitch = s.pitch ∧ t.pending = s.pending ∧
      t.layout = s.layout ∧ t.callList = s.callList ∧ t.history = s.history ∧ t.line = s.line ∧
      t.frame = s.frame ∧ OnlyEchoes s t

/-- The completion of a close: the slot COMPLETE, NO_SHIFT, and the pending start opened in the same event (R72,
R107), with the requests of what changed (R161; logs 9 and 11); with no close in flight nothing completes. -/
def Obligations.CloseCompletionFreesShiftAndOpensPendingStart : Prop :=
  ∀ s : State, s.inReset = false → s.Quiet → s.CausesCurrent →
    (s.timer.state ≠ .closing → exec .closeCompletion s = .next s) ∧
    (s.timer.state = .closing →
      ∃ t, exec .closeCompletion s = .next t ∧
        t.archive.newest = s.archive.newest ∧
        (∀ k, s.archive.newest = some k → ∀ r, s.archive.slots.at_ k = .writing r →
          t.archive.slots = s.archive.slots.put k (.complete r)) ∧
        (s.timer.pendingStart = none →
          t.timer = { s.timer with state := .noShift } ∧ t.pace = s.pace ∧ t.loss = s.loss ∧
          t.stations = s.stations ∧ RequestedOnly (changeRoles s t) s t) ∧
        (∀ q, s.timer.pendingStart = some q →
          ∀ p, s.timer.next.orElse (fun _ => s.timer.active) = some p →
          ShiftOpened p q.number q.offset { s with timer := { s.timer with pendingStart := none } } t) ∧
        Settled s.tracker.zones.at_ s t ∧ t.tracker.buffers = s.tracker.buffers ∧
        t.tracker.xstop = s.tracker.xstop ∧
        { t with
          archive := s.archive, timer := s.timer, pace := s.pace, loss := s.loss, stations := s.stations
          tracker := s.tracker, engine := s.engine, alert := s.alert, tiles := s.tiles } = s ∧
        t.CausesCurrent ∧ OnlyEchoes s t)

/-! ### Counts, marks and shift starts (c04, c05) -/

/-- COUNT ADJUST, TIME MARK and KEEPALIVE as they leave the queue (R77, R79, R92, R127), with the requests of what changed
(R161; logs 9 and 11). -/
def Obligations.CountAdjustTimeMarkAndKeepaliveAreJudgedAndApplied : Prop :=
  ∀ (d : Byte) (n m : Half) (rest : List Frame) (s : State), s.inReset = false → s.Quiet → s.CausesCurrent →
    s.TimerForm →
    (s.line.queue = .countAdjust d :: rest →
      (s.timer.state.isOpen = false →
        exec .countAdjust s = .next { s with line := s.line.answered rest .state }) ∧
      (s.timer.state.isOpen = true →
        let a := (max 0 (min 9999 ((s.pace.actual : Int) + d.toInt))).toNat
        (a = s.pace.actual → exec .countAdjust s = .next { s with line := s.line.answered rest .ok }) ∧
        (a ≠ s.pace.actual →
          ∃ t, exec .countAdjust s = .next t ∧
            t.line = s.line.answered rest .ok ∧
            t.pace = { s.pace with actual := a, figures := t.pace.figures } ∧
            (s.timer.state ≠ .overtime ∨ a < t.pace.figures.g →
              t.FiguresCurrent ∧
              { t with line := s.line, pace := s.pace, engine := s.engine } = s ∧
              RequestedOnly [.pace] s t) ∧
            (s.timer.state = .overtime → t.pace.figures.Follow 0 s.pace.held s.pace.held a) ∧
            (s.timer.state = .overtime → t.pace.figures.g ≤ a →
              CloseBegun .targetMet s t ∧ t.timer = { s.timer with state := .closing } ∧
              t.plant = { s.plant with transaction := t.plant.transaction } ∧
              Settled s.tracker.zones.at_ s t ∧ t.tracker.buffers = s.tracker.buffers ∧
              t.tracker.xstop = s.tracker.xstop ∧ RequestedOnly (changeRoles s t) s t ∧
              { t with
                line := s.line, pace := s.pace, timer := s.timer, archive := s.archive, plant := s.plant
                tracker := s.tracker, engine := s.engine, alert := s.alert, tiles := s.tiles } = s ∧
              OnlyEchoes s t)))) ∧
    (s.line.queue = .timeMark n m :: rest →
      let gap : Int := (m.toNat : Int) - s.timer.clock
      let refused := s.timer.state.isOpen = false ∨ n.toNat ≠ s.timer.number
      (refused → exec .timeMark s = .next { s with line := s.line.answered rest .state }) ∧
      (¬refused → gap < -60 ∨ 60 < gap →
        exec .timeMark s = .next { s with line := s.line.answered rest .range }) ∧
      (¬refused → -60 ≤ gap → gap ≤ 60 →
        exec .timeMark s =
          .next { s with line := s.line.answered rest .ok, timer := { s.timer with correction := gap } })) ∧
    (s.line.queue = .keepalive :: rest → exec .keepalive s = .next { s with line := s.line.answered rest .ok })

/-- A SHIFT START taken in NO_SHIFT from either port opens a shift under the next plan, else the active one (R70,
R83), with the requests of the open and of what changed (R161; logs 9 and 11). -/
def Obligations.ShiftStartOpensShift : Prop :=
  ∀ (n o : Half) (p : Plan) (s : State), s.inReset = false → s.Quiet → s.timer.state = .noShift → n ≠ 0 →
    s.timer.next.orElse (fun _ => s.timer.active) = some p →
    (∀ rest, s.line.queue = .shiftStart n o :: rest →
      ∃ t, exec .lineShiftStart s = .next t ∧ ShiftOpened p n.toNat o.toNat s t ∧
        t.line = s.line.answered rest .ok ∧
        Settled s.tracker.zones.at_ s t ∧ t.tracker.buffers = s.tracker.buffers ∧
        t.tracker.xstop = s.tracker.xstop ∧
        { t with
          timer := s.timer, pace := s.pace, loss := s.loss, stations := s.stations, tracker := s.tracker
          line := s.line, engine := s.engine, alert := s.alert, tiles := s.tiles } = s ∧
        OnlyEchoes s t) ∧
    (s.plant.transaction = .arguments .shiftStart →
      ∃ t, exec (.plantShiftStart n o) s = .next t ∧ ShiftOpened p n.toNat o.toNat s t ∧
        t.plant = s.plant.answered .ok ∧
        Settled s.tracker.zones.at_ s t ∧ t.tracker.buffers = s.tracker.buffers ∧
        t.tracker.xstop = s.tracker.xstop ∧
        { t with
          timer := s.timer, pace := s.pace, loss := s.loss, stations := s.stations, tracker := s.tracker
          plant := s.plant, engine := s.engine, alert := s.alert, tiles := s.tiles } = s ∧
        OnlyEchoes s t)

/-- A SHIFT START refused, taken as a time mark, held pending, or ending the open shift (R70, R71), from either
port, with the requests of what changed (R161; logs 9 and 11). -/
def Obligations.ShiftStartRefusedMarkedHeldOrEndingShift : Prop :=
  ∀ (n o : Half) (s : State), s.inReset = false → s.Quiet → s.CausesCurrent →
    let gap : Int := (o.toNat : Int) - s.timer.clock
    let noPlan := s.timer.state = .noShift ∧ s.timer.next = none ∧ s.timer.active = none
    let same := s.timer.state.isOpen = true ∧ n.toNat = s.timer.number
    let held : ShiftTimer := { s.timer with pendingStart := some ⟨n.toNat, o.toNat⟩ }
    (∀ rest, s.line.queue = .shiftStart n o :: rest →
      let done (r : LineResult) (tm : ShiftTimer) : Prop :=
        exec .lineShiftStart s = .next { s with line := s.line.answered rest r, timer := tm }
      (n = 0 → done .range s.timer) ∧
      (n ≠ 0 → noPlan → done .state s.timer) ∧
      (n ≠ 0 → same → gap < -60 ∨ 60 < gap → done .range s.timer) ∧
      (n ≠ 0 → same → -60 ≤ gap → gap ≤ 60 → done .ok { s.timer with correction := gap }) ∧
      (n ≠ 0 → s.timer.state = .closing → done .ok held) ∧
      (n ≠ 0 → s.timer.state.isOpen = true → n.toNat ≠ s.timer.number →
        ∃ t, exec .lineShiftStart s = .next t ∧ CloseBegun .newShift s t ∧
          t.timer = { held with state := .closing } ∧ t.line = s.line.answered rest .ok ∧
          t.plant = { s.plant with transaction := t.plant.transaction } ∧
          Settled s.tracker.zones.at_ s t ∧ t.tracker.buffers = s.tracker.buffers ∧
          t.tracker.xstop = s.tracker.xstop ∧ RequestedOnly (changeRoles s t) s t ∧
          { t with
            timer := s.timer, archive := s.archive, tracker := s.tracker, line := s.line, plant := s.plant
            engine := s.engine, alert := s.alert, tiles := s.tiles } = s ∧
          OnlyEchoes s t)) ∧
    (s.plant.transaction = .arguments .shiftStart →
      let done (r : PlantResult) (tm : ShiftTimer) : Prop :=
        exec (.plantShiftStart n o) s = .next { s with plant := s.plant.answered r, timer := tm }
      (n = 0 → done .range s.timer) ∧
      (n ≠ 0 → noPlan → done .state s.timer) ∧
      (n ≠ 0 → same → gap < -60 ∨ 60 < gap → done .range s.timer) ∧
      (n ≠ 0 → same → -60 ≤ gap → gap ≤ 60 → done .ok { s.timer with correction := gap }) ∧
      (n ≠ 0 → s.timer.state = .closing → done .ok held) ∧
      (n ≠ 0 → s.timer.state.isOpen = true → n.toNat ≠ s.timer.number →
        ∃ t, exec (.plantShiftStart n o) s = .next t ∧ t.timer = { held with state := .closing } ∧
          t.archive.newest = some s.archive.following ∧
          t.archive.slots = s.archive.slots.put s.archive.following (.writing (t.snapshot .newShift)) ∧
          t.plant = s.plant.answered .ok ∧
          Settled s.tracker.zones.at_ s t ∧ t.tracker.buffers = s.tracker.buffers ∧
          t.tracker.xstop = s.tracker.xstop ∧ RequestedOnly (changeRoles s t) s t ∧
          { t with
            timer := s.timer, archive := s.archive, tracker := s.tracker, plant := s.plant
            engine := s.engine, alert := s.alert, tiles := s.tiles } = s ∧
          OnlyEchoes s t))

/-! ### Plans and SHIFT CLOSE (c04, c06) -/

/-- STAGE PLAN: a count above 6 is RANGE, breaks out of order are INVALID, else the clamped plan with its breaks
fitted to L replaces the staged plan (R64, R65). -/
def Obligations.StagePlanJudgesClampsAndFits : Prop :=
  ∀ (l tk ot : Half) (n : Byte) (bs : Vector BreakArg 6) (s : State), s.inReset = false → s.Quiet →
    s.plant.transaction = .arguments .stagePlan →
    let length := max 1800 (min 43200 l.toNat)
    let used := bs.toList.take n.toNat
    let size (b : BreakArg) : Nat := max 60 (min 3600 b.length.toNat)
    let ordered := List.IsChain
      (fun a b => a.start.toNat < b.start.toNat ∧ a.start.toNat + size a ≤ b.start.toNat) used
    let plan : Plan :=
      { length := length
        takt := max 300 (min 6000 tk.toNat)
        overtime := min 7200 ot.toNat
        breaks := used.filterMap fun b =>
          if b.start.toNat < length then some ⟨b.start.toNat, min (size b) (length - b.start.toNat)⟩ else none }
    let done (r : PlantResult) (tm : ShiftTimer) : Prop :=
      exec (.stagePlan l tk ot n bs) s = .next { s with plant := s.plant.answered r, timer := tm }
    (6 < n.toNat → done .range s.timer) ∧
    (n.toNat ≤ 6 → ¬ordered → done .invalid s.timer) ∧
    (n.toNat ≤ 6 → ordered →
      done .ok { s.timer with staged := some plan })

/-- COMMIT PLAN refused or taken as NEXT, and DISCARD PLAN (R66). -/
def Obligations.CommitPlanRefusedOrNextAndDiscardPlan : Prop :=
  ∀ (m : Byte) (s : State), s.inReset = false → s.Quiet →
    (s.CausesCurrent → s.plant.transaction = .arguments .commitPlan →
      let done (r : PlantResult) (tm : ShiftTimer) : Prop :=
        exec (.commitPlan m) s = .next { s with plant := s.plant.answered r, timer := tm }
      (1 < m.toNat → done .range s.timer) ∧
      (m.toNat ≤ 1 → s.timer.staged = none → done .state s.timer) ∧
      ∀ p, s.timer.staged = some p →
        (m = 1 → s.timer.state = .closing → done .busy s.timer) ∧
        (m = 0 ∨ m = 1 ∧ s.timer.state = .noShift → done .ok { s.timer with next := some p, staged := none })) ∧
    (s.plant.transaction = .ready →
      ∃ t, exec .discardPlan s = .next t ∧ t.timer = { s.timer with staged := none } ∧
        t.plant = s.plant.linked.answered .ok ∧ { t with timer := s.timer, plant := s.plant, engine := s.engine } = s ∧
        RequestedOnly s.plantLinkRoles s t)

/-- COMMIT PLAN NOW in an open shift: rebase, replace, the state decided again, the figures, the end tests (R67,
R90); where both overtime tests hold the limit gives the reason (the model's choice, log 12). The requests are those of
what changed (R161; logs 9 and 11). -/
def Obligations.CommitPlanNowRebasesAndDecidesAgain : Prop :=
  ∀ (p : Plan) (s : State), s.inReset = false → s.Quiet → s.plant.transaction = .arguments .commitPlan →
    s.timer.state.isOpen = true → s.timer.staged = some p →
    let c := s.timer.clock
    let late := s.timer.state = .overtime
    let decided : ShiftState :=
      if late ∧ p.length ≤ c then .overtime
      else if p.breaks.any (fun b => decide (b.start ≤ c ∧ c < b.start + b.length)) then .inBreak
      else .production
    let base := if late then s.pace.held
      else s.pace.base + (s.timer.wc - s.pace.rebaseMark) * 10000 / s.timer.plan.takt
    let ended := decided = .production ∧ p.length ≤ c
    ∃ t, exec (.commitPlan 1) s = .next t ∧
      t.timer = { s.timer with active := some p, staged := none, state := t.timer.state } ∧
      t.pace.base = base ∧ t.pace.rebaseMark = s.timer.wc ∧ t.pace.actual = s.pace.actual ∧
      (decided ≠ .overtime → ¬ended → t.timer.state = decided ∧ t.FiguresCurrent ∧ t.pace.held = s.pace.held) ∧
      (decided = .overtime ∨ ended → t.pace.figures.Follow 0 base base s.pace.actual) ∧
      (ended → t.timer.state =
        (if base / 1000 ≤ s.pace.actual ∨ p.overtime = 0 ∨ p.length + p.overtime ≤ c then .closing
          else .overtime)) ∧
      (ended → t.pace.held =
        (if base / 1000 ≤ s.pace.actual ∨ p.overtime = 0 then s.pace.held else base)) ∧
      (decided = .overtime → t.pace.held = base ∧
        t.timer.state =
          (if p.length + p.overtime ≤ c ∨ base / 1000 ≤ s.pace.actual then .closing else .overtime)) ∧
      (t.timer.state = .closing →
        t.archive.newest = some s.archive.following ∧
        t.archive.slots =
          s.archive.slots.put s.archive.following (.writing (t.snapshot
            (if ended ∧ base / 1000 ≤ s.pace.actual then .targetMet
              else if ended ∧ p.overtime = 0 then .lengthEnd
              else if p.length + p.overtime ≤ c then .overtimeLimit
              else .targetMet)))) ∧
      (t.timer.state ≠ .closing → t.archive = s.archive) ∧
      (if t.timer.state = s.timer.state then t.tracker = s.tracker
        else Settled s.tracker.zones.at_ s t ∧ t.tracker.buffers = s.tracker.buffers ∧
          t.tracker.xstop = s.tracker.xstop) ∧
      RequestedOnly (changeRoles s t) s t ∧
      t.plant = s.plant.answered .ok ∧
      { t with
        timer := s.timer, pace := s.pace, archive := s.archive, tracker := s.tracker, plant := s.plant
        engine := s.engine, alert := s.alert, tiles := s.tiles } = s ∧
      OnlyEchoes s t

/-- SHIFT CLOSE starts the close with reason COMMAND, with the snapshot of R105, in an open shift; else it is
refused with STATE (R74, R80, R105), with the requests of what changed (R161; logs 9 and 11). -/
def Obligations.ShiftCloseStartsCloseWithSnapshot : Prop :=
  ∀ s : State, s.inReset = false → s.Quiet → s.plant.transaction = .ready →
    (s.timer.state.isOpen = false → s.CausesCurrent →
      ∃ t, exec .shiftClose s = .next t ∧ t.plant = s.plant.linked.answered .state ∧
        { t with plant := s.plant, engine := s.engine } = s ∧ RequestedOnly s.plantLinkRoles s t) ∧
    (s.timer.state.isOpen = true →
      ∃ t, exec .shiftClose s = .next t ∧ t.plant = s.plant.linked.answered .ok ∧
        t.timer = { s.timer with state := .closing } ∧
        t.archive.newest = some (match s.archive.newest with
          | some k => k + 1
          | none => 0) ∧
        (∀ k, t.archive.newest = some k →
          t.archive.slots = s.archive.slots.put k (.writing
            { number := s.timer.number, openedAt := s.timer.openedAt, closedAt := s.timer.runClock
              reason := .command, takt := s.timer.plan.takt, target := s.pace.figures.g
              expected := s.pace.figures.e, actual := s.pace.actual
              productive := s.timer.wc - s.timer.openingWc, used := s.layout.used
              lineLost := s.loss.lineLost, lineLostCars := s.loss.lineLost * 10 / s.timer.plan.takt
              zones := s.loss.zones, opened := s.loss.opened, closed := s.loss.closed
              carried := s.callList.calls.length, longestHold := s.loss.longestHold
              rows := .tab fun st => ⟨(s.stations.at_ st).callsShift, (s.stations.at_ st).chargedLoss⟩ })) ∧
        Settled s.tracker.zones.at_ s t ∧ t.tracker.buffers = s.tracker.buffers ∧
        t.tracker.xstop = s.tracker.xstop ∧ RequestedOnly (changeRoles s t ++ s.plantLinkRoles) s t ∧
        { t with
          plant := s.plant, timer := s.timer, archive := s.archive, tracker := s.tracker, engine := s.engine
          alert := s.alert, tiles := s.tiles } = s ∧
        t.CausesCurrent ∧ OnlyEchoes s t)

/-! ### Calls (c03) -/

/-- A PULL at an enabled station without a call opens one: its record, the allocator, the station, the tally, and
for SAFETY the zone's HOLD at once (R38 to R40, R11, R37, R45). The open and the changed set of a SAFETY pull request
the same roles; that each gets one pass and none is left pending is the model's reading (log 9, DEDUCED). -/
def Obligations.PullOpensCall : Prop :=
  ∀ (a b c : Byte) (st : Fin 48) (zone : Fin 6) (k : Kind) (rest : List Frame) (s : State),
    s.inReset = false → s.Quiet → s.CallsForm → s.line.queue = .pull a b c :: rest →
    a.toNat = st.val → s.layout.enabled st = true → s.layout.stationZone st = some zone →
    b.toNat = k.code → s.callList.atStation st = none →
    let tag := if s.timer.state.isOpen then s.timer.number else 0
    let len := (s.layout.stations.at_ st).length
    let numbers := (s.callList.calls.map Call.number) ++ [s.callList.allocator]
    let after (i : Nat) : Nat := (s.callList.allocator - 1 + i) % 9999 + 1
    ∃ t, exec .pull s = .next t ∧
      t.callList.calls = s.callList.calls ++
        [{ number := s.callList.allocator, station := st, zone := zone, kinds := [k]
           openedAt := s.timer.runClock, openedTag := tag
           phase := if k = .safety then .hold else .warn
           remaining := if k = .safety then 0 else len - min c.toNat (len - 1)
           level := 0, escalation := 0, grace := 0, ack := none, holdTime := 0
           everHeld := decide (k = .safety) }] ∧
      (∃ d : Fin 50, 0 < d.val ∧ t.callList.allocator = after d.val ∧ t.callList.allocator ∉ numbers ∧
        ∀ i : Fin 50, 0 < i.val → i.val < d.val → after i.val ∈ numbers) ∧
      t.callList.policy = s.callList.policy ∧
      t.stations = s.stations.put st
        { s.stations.at_ st with
          openCall := some s.callList.allocator, lastKind := some k
          callsShift :=
            if s.timer.state.isOpen = true ∧ (s.stations.at_ st).callsShift < 255 then
              (s.stations.at_ st).callsShift + 1
            else (s.stations.at_ st).callsShift } ∧
      t.loss =
        { s.loss with
          opened := if tag ≠ 0 ∧ s.loss.opened < 65535 then s.loss.opened + 1 else s.loss.opened } ∧
      (k = .safety → (t.tracker.zones.at_ zone).reasons.hold = true ∧ t.zstop zone = true) ∧
      Settled s.tracker.zones.at_ s t ∧ t.tracker.buffers = s.tracker.buffers ∧
      t.tracker.xstop = s.tracker.xstop ∧ t.CausesCurrent ∧
      Requested [.stations, .ticker] s t ∧ ScrollFitted s t ∧
      { t.engine with
        regions := s.engine.regions, scrollOffset := s.engine.scrollOffset, scrollCount := s.engine.scrollCount }
        = s.engine ∧
      t.line = s.line.answered rest .ok ∧
      { t with
        callList := s.callList, stations := s.stations, loss := s.loss, tracker := s.tracker, line := s.line
        engine := s.engine, alert := s.alert, tiles := s.tiles } = s ∧
      { t.alert with causes := s.alert.causes } = s.alert ∧
      { t.tiles with actual := s.tiles.actual } = s.tiles ∧ IntensityFollows s t

/-- A PULL refused, and a PULL that grows the station's open call, into HOLD where it adds SAFETY (R38, R41, R42).
The grow, the HOLD and the changed set request the same roles; that each gets one pass and none is left pending is
the model's reading (log 9, DEDUCED). -/
def Obligations.PullRefusedOrGrowsOpenCall : Prop :=
  ∀ (a b c : Byte) (rest : List Frame) (s : State), s.inReset = false → s.Quiet → s.CausesCurrent → s.CallsForm →
    s.line.queue = .pull a b c :: rest →
    (48 ≤ a.toNat → exec .pull s = .next { s with line := s.line.answered rest .range }) ∧
    (∀ st : Fin 48, st.val = a.toNat →
      (s.layout.enabled st = false ∨ 4 < b.toNat →
        exec .pull s = .next { s with line := s.line.answered rest .range }) ∧
      (∀ x : Call, s.callList.atStation st = some x →
        ∀ k : Kind, s.layout.enabled st = true → k.code = b.toNat →
        (k ∈ x.kinds → exec .pull s = .next { s with line := s.line.answered rest .duplicate }) ∧
        (k ∉ x.kinds →
          ∃ t, exec .pull s = .next t ∧
            t.callList =
              { s.callList with
                calls := s.callList.calls.map fun y =>
                  if y.number = x.number then
                    if k = .safety then
                      { y with kinds := y.kinds ++ [k], phase := .hold, remaining := 0, everHeld := true }
                    else { y with kinds := y.kinds ++ [k] }
                  else y } ∧
            t.line = s.line.answered rest .ok ∧
            Settled s.tracker.zones.at_ s t ∧ t.tracker.buffers = s.tracker.buffers ∧
            t.tracker.xstop = s.tracker.xstop ∧ t.CausesCurrent ∧
            RequestedOnly [.stations, .ticker] s t ∧
            { t with
              callList := s.callList, tracker := s.tracker, line := s.line, engine := s.engine
              alert := s.alert, tiles := s.tiles } = s ∧
            OnlyEchoes s t)))

/-- RELEASE, LEADER RESET and CLEAR CALL close the call they name (R47 to R49, R51, R61). That the close and a set
it changes give STATIONS and TICKER one pass each (log 9, DEDUCED), and that READ CALLS's notes are numbers, dropped
at the close (log 21, DESIGN CHOICE), are the model's. -/
def Obligations.ReleaseResetAndClearCloseTheirCall : Prop :=
  ∀ (x : Call) (a l : Byte) (n : Half) (rest : List Frame) (s : State), s.inReset = false → s.Quiet →
    (s.callList.atStation x.station = some x → a.toNat = x.station.val →
      let cut (t : State) : Prop :=
        t.plant =
          { s.plant with
            historyCursor := t.plant.historyCursor
            transaction :=
              match s.plant.transaction with
              | .calls noted slot => .calls (noted.filter fun n => decide (n ≠ x.number)) slot
              | .history (some sl) =>
                if 128 ≤ s.history.length ∧ s.plant.historyCursor = some 0 then
                  .history (some { sl with live := false })
                else .history (some sl)
              | other => other }
      (s.line.queue = .release a :: rest →
        ∃ t, exec .release s = .next t ∧ CallClosed x .station s t ∧ cut t ∧ t.line = s.line.answered rest .ok) ∧
      (l ≠ 0 → s.line.queue = .leaderReset a l :: rest →
        ∃ t, exec .leaderReset s = .next t ∧ CallClosed x (.leader l.toNat) s t ∧ cut t ∧
          t.line = s.line.answered rest .ok)) ∧
    (l ≠ 0 → n.toNat = x.number → s.callList.numbered x.number = some x →
      s.plant.transaction = .arguments .clearCall →
      ∃ t, exec (.clearCall n l) s = .next t ∧ CallClosed x (.plant l.toNat) s t ∧ t.line = s.line ∧
        t.plant = { s.plant.answered .ok with historyCursor := t.plant.historyCursor })

/-- LEADER ACK and ACK CALL store the first acknowledgement with its grace (R53 to R55); refusals of these and of
the closing frames and commands change only the result (R47 to R49). -/
def Obligations.AcknowledgementsStoredOnceAndRefusalsChangeNothingElse : Prop :=
  ∀ (a l : Byte) (n : Half) (rest : List Frame) (s : State), s.inReset = false → s.Quiet →
    let acked (x : Call) (source : AckSource) : CallList :=
      { s.callList with
        calls := s.callList.calls.map fun y =>
          if y.number = x.number then
            { y with ack := some ⟨source, l.toNat, s.timer.runClock⟩, grace := s.callList.policy.grace }
          else y }
    let line (c : Instr) (r : LineResult) : Prop := exec c s = .next { s with line := s.line.answered rest r }
    let plant (c : Instr) (r : PlantResult) : Prop := exec c s = .next { s with plant := s.plant.answered r }
    let noCall := ∀ st : Fin 48, st.val = a.toNat → s.callList.atStation st = none
    (s.line.queue = .leaderAck a l :: rest →
      (48 ≤ a.toNat ∨ l = 0 → line .leaderAck .range) ∧
      (a.toNat < 48 → l ≠ 0 → noCall → line .leaderAck .state) ∧
      ∀ st : Fin 48, st.val = a.toNat → ∀ x : Call, s.callList.atStation st = some x → l ≠ 0 →
        (x.ack ≠ none → line .leaderAck .already) ∧
        (x.ack = none → exec .leaderAck s =
          .next { s with line := s.line.answered rest .ok, callList := acked x .line })) ∧
    (s.CausesCurrent → s.line.queue = .release a :: rest →
      (48 ≤ a.toNat → line .release .range) ∧ (a.toNat < 48 → noCall → line .release .state)) ∧
    (s.CausesCurrent → s.line.queue = .leaderReset a l :: rest →
      (48 ≤ a.toNat ∨ l = 0 → line .leaderReset .range) ∧
      (a.toNat < 48 → l ≠ 0 → noCall → line .leaderReset .state)) ∧
    (s.plant.transaction = .arguments .ackCall →
      (l = 0 → plant (.ackCall n l) .range) ∧
      (l ≠ 0 → s.callList.numbered n.toNat = none → plant (.ackCall n l) .nocall) ∧
      ∀ x : Call, s.callList.numbered n.toNat = some x → l ≠ 0 →
        (x.ack ≠ none → plant (.ackCall n l) .already) ∧
        (x.ack = none → exec (.ackCall n l) s =
          .next { s with plant := s.plant.answered .ok, callList := acked x .plant })) ∧
    (s.CausesCurrent → s.plant.transaction = .arguments .clearCall →
      (l = 0 → plant (.clearCall n l) .range) ∧
      (l ≠ 0 → s.callList.numbered n.toNat = none → plant (.clearCall n l) .nocall))

/-- A call's second: hold time, the pause in BREAK, grace or escalation, and one level at most against the smallest
nonzero threshold of its kinds (R58 to R60); for every open call or one (log 14). Several calls that rise at once
give one pass to a role (log 9, DEDUCED). -/
def Obligations.CallSecondRaisesHoldTimeEscalationAndLevel : Prop :=
  ∀ (only : Option Nat) (s : State), s.inReset = false → s.Quiet →
    let taken (c : Call) : Bool := only.all fun n => decide (c.number = n)
    let more (n : Nat) : Nat := if n < 65535 then n + 1 else n
    let hold (c : Call) : Nat := if c.phase = .hold then more c.holdTime else c.holdTime
    let escalation (c : Call) : Nat := if c.grace = 0 then more c.escalation else c.escalation
    let threshold (c : Call) : Option Nat :=
      ((c.kinds.map fun k => (s.callList.policy.of k).at_ (c.level + 1)).filter (fun n => decide (n ≠ 0))).min?
    let rises (c : Call) : Bool :=
      taken c && decide (s.timer.state ≠ .inBreak) && decide (c.level < 3) &&
        (threshold c).any fun n => decide (n ≤ escalation c)
    ∃ t, exec (.callSecond only) s = .next t ∧
      t.callList =
        { s.callList with
          calls := s.callList.calls.map fun c =>
            if taken c = false then c
            else if s.timer.state = .inBreak then { c with holdTime := hold c }
            else
              { c with
                holdTime := hold c, grace := c.grace - 1, escalation := escalation c
                level := if rises c then c.level + 1 else c.level } } ∧
      RequestedOnly (if s.callList.calls.any rises then [.stations, .ticker] else []) s t ∧
      t.CausesCurrent ∧
      { t with callList := s.callList, engine := s.engine, alert := s.alert, tiles := s.tiles } = s ∧
      OnlyEchoes s t

/-- WRITE POLICY stores the table clamped and ordered (R57), and WRITE LINK SETTINGS its four fields, or RANGE for
a timeout code above 3 (R142). -/
def Obligations.PolicyAndLinkSettingsAreStored : Prop :=
  ∀ (v : Vector Half 15) (g : Half) (a b c : Byte) (s : State), s.inReset = false → s.Quiet →
    (s.plant.transaction = .arguments .writePolicy →
      let cut (i : Fin 15) : Nat := min 3600 (v[i]).toNat
      let row (x y z : Fin 15) (stored : Thresholds) : Prop :=
        stored.level1 = cut x ∧ stored.level2 = (if cut y = 0 then 0 else max (cut y) (cut x)) ∧
          stored.level3 = if cut z = 0 then 0 else max (cut z) (max (cut x) (cut y))
      ∃ t, exec (.writePolicy v g) s = .next t ∧
        row 0 1 2 t.callList.policy.quality ∧ row 3 4 5 t.callList.policy.parts ∧
        row 6 7 8 t.callList.policy.equipment ∧ row 9 10 11 t.callList.policy.safety ∧
        row 12 13 14 t.callList.policy.help ∧
        t.callList.policy.grace = min 600 g.toNat ∧
        { t.callList with policy := s.callList.policy } = s.callList ∧
        t.plant = s.plant.answered .ok ∧ { t with callList := s.callList, plant := s.plant } = s) ∧
    (s.CausesCurrent → s.plant.transaction = .arguments .writeLinkSettings →
      (3 < a.toNat ∨ 3 < b.toNat →
        exec (.writeLinkSettings a b c) s = .next { s with plant := s.plant.answered .range }) ∧
      (a.toNat ≤ 3 → b.toNat ≤ 3 →
        ∃ t, exec (.writeLinkSettings a b c) s = .next t ∧
          t.line =
            { s.line with
              link := { s.line.link with timeout := [none, some 1, some 2, some 5].getD a.toNat none }
              broadcastEnable := c.getLsbD 0 } ∧
          t.plant =
            { s.plant.answered .ok with
              link := { s.plant.link with timeout := [none, some 5, some 15, some 60].getD b.toNat none } } ∧
          t.alert = { s.alert with mask := ⟨c.getLsbD 1, c.getLsbD 2, c.getLsbD 3⟩ } ∧
          { t.tiles with actual := s.tiles.actual } = s.tiles ∧
          t.tiles.actual =
            (if s.tiles.rampCode = 0 ∧ t.effectiveTarget ≠ s.effectiveTarget then t.effectiveTarget
              else s.tiles.actual) ∧
          { t with line := s.line, plant := s.plant, alert := s.alert, tiles := s.tiles } = s))

/-! ### The Line Port (c08) -/

/-- An address byte, by R123's table; a read at the own address is the status read. Given edge by edge (the model's
operand, log 26): a START and a STOP are SDA's edges while SCL is HIGH, a repeated START ends the transaction as a STOP
does, each bit is taken at SCL's rise, most significant first, the eighth completing its byte (log 34, DEDUCED), the
part drives its answer or the next bit of the byte served as SCL falls, and a NACK ends a read (R122, R124). -/
def Obligations.AddressByteIsAnsweredByOwnAddressBroadcastAndQueue : Prop :=
  ∀ (b : Byte) (s : State), s.inReset = false → s.Quiet →
    let address := b.toNat / 2
    let read := b.toNat % 2 = 1
    let own := address = 0x38 + s.straps.adr.toNat
    let done (answer : BusAnswer) (phase : LinePhase) (missed : Bool) : Prop :=
      exec (.addressByte (.byte b)) s =
        .next { s with line := { s.line with
          answer := answer, phase := phase, byteAnswers := [], broadcastMissed := missed
          clock := ⟨.data, [], [], 0, true⟩ } }
    (own → read → exec (.addressByte (.byte b)) s = exec .lineStatusRead s) ∧
    (own → ¬read → s.line.queue.length < 16 → done .ack .receiving s.line.broadcastMissed) ∧
    (own → ¬read → 16 ≤ s.line.queue.length → done .nack .ignoring s.line.broadcastMissed) ∧
    (address = 0 → ¬read → s.line.broadcastEnable = true → s.line.queue.length < 16 →
      done .ack .receiving s.line.broadcastMissed) ∧
    (address = 0 → ¬read → s.line.broadcastEnable = true → 16 ≤ s.line.queue.length →
      done .unanswered .ignoring true) ∧
    (address = 0 → ¬read → s.line.broadcastEnable = false →
      done .unanswered .ignoring s.line.broadcastMissed) ∧
    (address = 0 → read → done .unanswered .ignoring s.line.broadcastMissed) ∧
    (address ≠ 0 → ¬own → done .unanswered .ignoring s.line.broadcastMissed) ∧
    -- START, STOP and the bits
    (let k := s.line.clock
     let edge (e : LineEdge) : Result := exec (.addressByte (.edge e)) s
     let clocked (e : LineEdge) (c : LineClock) : Prop := edge e = .next { s with line := { s.line with clock := c } }
     edge (.sdaFalls false) = .next s ∧ edge (.sdaRises false) = .next s ∧
     (∃ t, exec (.lineFrame k.bytes 0) s = .next t ∧ edge (.sdaRises true) = .next t ∧
       edge (.sdaFalls true) = .next { t with line := { t.line with clock := ⟨.address, [], [], 0, true⟩ } }) ∧
     (∀ sda : Bool, k.place = .stopped → edge (.sclRises sda) = .next s) ∧
     (∀ sda : Bool, k.place ≠ .stopped →
       let bits := k.bits ++ [sda]
       let whole := clockedByte bits
       (k.bits.length < 7 → clocked (.sclRises sda) { k with bits := bits }) ∧
       (k.bits.length = 7 → k.place = .address →
         ∃ t, exec (.addressByte (.byte whole)) s = .next t ∧
           edge (.sclRises sda) = .next { t with line := { t.line with clock := { k with bits := bits } } }) ∧
       (k.bits.length = 7 → k.place = .data →
         (s.line.phase = .receiving →
           ∃ t, exec (.lineFrame (k.bytes ++ [whole]) 0) s = .next t ∧
             edge (.sclRises sda) = .next { s with line := { s.line with
               byteAnswers := t.line.byteAnswers, clock := { k with bits := bits, bytes := k.bytes ++ [whole] } } }) ∧
         (∀ block, s.line.phase = .serving block →
           clocked (.sclRises sda) { k with bits := bits, sent := k.sent + 1 }) ∧
         (s.line.phase = .idle ∨ s.line.phase = .ignoring → clocked (.sclRises sda) { k with bits := bits })) ∧
       (8 ≤ k.bits.length →
         let c : LineClock := { k with place := .data, bits := [] }
         let read := k.place = .data ∧ ∃ block, s.line.phase = .serving block
         (read → sda = true →
           edge (.sclRises sda) = .next { s with line := { s.line with phase := .ignoring, clock := c } }) ∧
         (¬(read ∧ sda = true) → clocked (.sclRises sda) c))) ∧
     (let level (released : Bool) : Prop := clocked .sclFalls { k with sda := released }
      (8 ≤ k.bits.length →
        (k.place = .address → level (decide (s.line.answer ≠ .ack))) ∧
        (k.place = .data → s.line.phase = .receiving → level (decide (s.line.byteAnswers.getLast? ≠ some .ack))) ∧
        (k.place = .data → s.line.phase ≠ .receiving → level true)) ∧
      (k.bits.length < 8 →
        (∀ block, k.place = .data → s.line.phase = .serving block →
          level ((s.line.served k.sent).getMsbD k.bits.length)) ∧
        (k.place = .address ∨ k.place = .data ∧ (∀ block, s.line.phase ≠ .serving block) → level true)) ∧
      (k.place = .stopped → level true)))

/-- The status read captures the 16 bytes of R180, clears the broadcast-missed flag after the capture and restarts
the line link; past the 16th byte 0xFF is served (R129, R130, R180). -/
def Obligations.LineStatusReadCapturesBlockAndClearsMissed : Prop :=
  ∀ s : State, s.inReset = false → s.Quiet →
    ∃ t, exec .lineStatusRead s = .next t ∧
      (let byte (i : Nat) : Nat := (t.line.served i).toNat
       (∀ k : Fin 6,
          let z := s.tracker.zones.at_ k
          byte k.val =
            if k.val < s.layout.used then
              z.reasons.hold.toNat + 2 * z.reasons.plan.toNat + 4 * z.reasons.xstop.toNat +
                8 * z.reasons.blocked.toNat + 16 * z.reasons.starved.toNat + 128 * z.overrun.toNat
            else 0) ∧
       (∀ k : Fin 5,
          let b := s.tracker.buffers.at_ k
          byte (6 + k.val) =
            if k.val + 1 < s.layout.used then
              b.count % 16 + 16 * b.overSlip.toNat + 32 * b.underSlip.toNat
            else 0) ∧
       byte 11 = s.timer.state.code + 16 * s.line.lastResult.code ∧
       byte 12 =
         s.callList.calls.length % 64 + 64 * (decide (s.plant.link.state = .lost)).toNat +
           128 * s.alert.xalert.taken.toNat ∧
       byte 13 =
         (s.callList.calls.countP fun c => decide (c.phase = .hold)) % 64 + 64 * s.line.broadcastMissed.toNat +
           128 * (decide (∃ i : Fin 30, (s.tiles.tiles.at_ i).absent = true)).toNat ∧
       byte 14 = (16 - s.line.queue.length) % 32 ∧
       ((List.range 16).map byte).sum % 256 = 0 ∧
       (∀ i : Fin 64, byte (16 + i.val) = 0xFF)) ∧
      t.line =
        { s.line with
          phase := t.line.phase, answer := .ack, byteAnswers := [], broadcastMissed := false
          clock := ⟨.data, [], [], 0, true⟩
          link := ⟨.up, 0, s.line.link.timeout⟩ } ∧
      { t with line := s.line, engine := s.engine } = s ∧
      RequestedOnly (if s.line.link.state = .up then [] else [.stations, .ticker, .banner]) s t

/-- The end of a write transaction: the frame judged in R125's order, a good one queued with the link restarted, a
bad one's outcome the last line result; bytes up to the frame length ACKed (R124, R125, R179). -/
def Obligations.LineFrameIsJudgedIntoQueueOrResult : Prop :=
  ∀ (bytes : List Byte) (bits : Nat) (f : Frame) (check : Byte) (more : List Byte) (s : State),
    s.inReset = false → s.Quiet →
    let ended : LineClock := ⟨.stopped, [], [], 0, true⟩
    (s.line.phase ≠ .receiving →
      exec (.lineFrame bytes bits) s = .next { s with line := { s.line with phase := .idle, clock := ended } }) ∧
    (s.line.phase = .receiving →
      let answers (n : Nat) : List BusAnswer :=
        (List.range bytes.length).map fun i => if i < n then .ack else .nack
      let bad (r : LineResult) (n : Nat) : Prop :=
        exec (.lineFrame bytes bits) s =
          .next { s with line := { s.line with phase := .idle, byteAnswers := answers n, lastResult := r, clock := ended } }
      let lengths : List (Byte × Nat) :=
        [(0x21, 5), (0x22, 3), (0x23, 4), (0x24, 4), (0x31, 4), (0x32, 3), (0x41, 6), (0x42, 6), (0x50, 2)]
      (bytes = [] → bad .short 0) ∧
      (bytes ≠ [] → (∀ p ∈ lengths, bytes.head? ≠ some p.1) → bad .unknown 1) ∧
      (∀ p ∈ lengths, bytes.head? = some p.1 →
        (bytes.length < p.2 → bad .short p.2) ∧
        (p.2 ≤ bytes.length → ((bytes.take p.2).map BitVec.toNat).sum % 256 ≠ 0 → bad .check p.2)) ∧
      (bytes = f.bytes ++ check :: more →
        ((f.bytes.map BitVec.toNat).sum + check.toNat) % 256 = 0 →
        ∃ t, exec (.lineFrame bytes bits) s = .next t ∧
          t.line =
            { s.line with
              phase := .idle, byteAnswers := answers (f.bytes.length + 1), queue := s.line.queue ++ [f]
              link := ⟨.up, 0, s.line.link.timeout⟩, clock := ended } ∧
          { t with line := s.line, engine := s.engine } = s ∧
          RequestedOnly (if s.line.link.state = .up then [] else [.stations, .ticker, .banner]) s t))

/-! ### The Plant Port: framing and reads (c08) -/

/-- Bytes that stand where their command cannot be taken or spell another row's command, a slot, flag byte or pixel
in any transaction but the one it belongs to, and a frame's command with another frame, or none, at the queue's head,
change nothing (R126, R132, R133; log 4, log 6, log 7). -/
def Obligations.CommandsOutsideTheirPlaceChangeNothing : Prop :=
  ∀ s : State, s.inReset = false → s.Quiet → s.CausesCurrent →
    (∀ p c, Spells p c → s.plant.transaction ≠ .ready → s.plant.transaction ≠ .arguments p →
      exec c s = .next s) ∧
    (∀ ty : FrameType, (∀ f rest, s.line.queue = f :: rest → f.type ≠ ty) → exec (takerOf ty) s = .next s) ∧
    (s.plant.transaction ≠ .waiting → exec .csFalling s = .next s) ∧
    (∀ e, s.plant.transaction = .waiting → exec (.commandByte (.edge e)) s = .next s) ∧
    (∀ b, s.plant.transaction ≠ .ready ∨ decodePlantCode b ≠ none → exec (.unknownCommand b) s = .next s) ∧
    (∀ b, s.plant.transaction ≠ .ready ∨ (∀ c, decodePlantCode b = some c → c.argBytes = 0) →
      exec (.commandByte (.byte b)) s = .next s) ∧
    (let tr := s.plant.transaction
     (tr ≠ .status none → exec (.readStatus .firstByte) s = .next s) ∧
     ((∀ r, tr ≠ .status (some r)) → exec .statusFlagByteSent s = .next s) ∧
     ((∀ r, tr = .status (some r) → r.extension ≠ none) → exec .presenceExtension s = .next s) ∧
     ((∀ n, tr ≠ .station n none) → exec (.readStation .firstByte) s = .next s) ∧
     ((∀ noted slot, tr ≠ .calls noted slot) → exec .callRecordSlot s = .next s) ∧
     (tr ≠ .pace none → exec (.readPace .firstByte) s = .next s) ∧
     ((∀ n e, tr ≠ .loss n e) → exec (.readLoss .firstByte) s = .next s) ∧
     ((∀ slot, tr ≠ .summary slot none) → exec (.readSummary .firstByte) s = .next s) ∧
     ((∀ sl, tr ≠ .history sl) → exec (.historySlot .begins) s = .next s) ∧
     ((∀ sl, tr ≠ .history (some sl)) → exec (.historySlot .ends) s = .next s) ∧
     (∀ bytes, (∀ mode, tr ≠ .pixelsIn mode) → exec (.pixelGroup bytes) s = .next s) ∧
     ((∀ p, tr ≠ .pixelsOut p) → exec (.pixelRead .begins) s = .next s) ∧
     ((∀ p, tr ≠ .pixelsOut (some p)) → exec (.pixelRead .ends) s = .next s))

/-- CS falling and rising, an unknown code, and a command byte whose arguments follow (R132, R133, R141); MISO is
high-impedance where no transaction has begun and drives 0xFF where no reply is served (R132; log 32 for a CS held
LOW since hard reset). A command with arguments taken straight from the ready decoder is its command byte followed
by its arguments (the model's choice of one command for both, log 6). That CS rising discards the bits of a byte cut
short, and that a WRITE PIXELS cut with bits alone is OK and not ABORTED, is the model's reading (log 8, DEDUCED).
Given edge by edge (the model's operand, log 26): a bit is taken from MOSI at SCK's rise, most significant first, the
eighth completing a command byte, an argument byte, a byte of a pixel group or a byte of a reply, and MISO changes as
SCK falls, to the first bit of the next byte where one has ended, with what that byte captures (R132, R133, R135; the
edge at which each happens is the model's reading, log 34, DEDUCED). -/
def Obligations.CsEdgesAndCommandBytesFrameTransactions : Prop :=
  ∀ (code : Byte) (bytes bits : Nat) (s : State), s.inReset = false → s.Quiet →
    (s.misoLevel = none ↔ s.plant.transaction = .waiting) ∧
    (∀ i, (s.miso i = none ↔ s.plant.transaction = .waiting) ∧
      (s.plant.transaction = .ready ∨ (∃ c, s.plant.transaction = .arguments c) ∨
          s.plant.transaction = .ignoring ∨ (∃ m, s.plant.transaction = .pixelsIn m) ∨
          s.plant.transaction = .pixelsRefused →
        s.miso i = some 0xFF)) ∧
    (s.plant.transaction = .waiting →
      exec .csFalling s =
        .next { s with plant := { s.plant with transaction := .ready, clock := ⟨false, [], [], 0, true⟩ } }) ∧
    (let ended (r : PlantResult) : Prop :=
       exec (.csRising bytes bits) s =
         .next { s with plant := { s.plant with
           transaction := .waiting, lastResult := r, clock := ⟨false, [], [], 0, true⟩ } }
     (∀ c : PlantCommand, s.plant.transaction = .arguments c →
       ended (if c = .readStation ∨ c = .readSummary ∨ c.argBytes = 0 ∧ c.changesState = false then
         s.plant.lastResult else .aborted)) ∧
     (∀ m, s.plant.transaction = .pixelsIn m → ended (if 0 < bytes + s.plant.clock.bytes.length then .aborted else .ok)) ∧
     ((∀ c, s.plant.transaction ≠ .arguments c) → (∀ m, s.plant.transaction ≠ .pixelsIn m) →
       ended s.plant.lastResult)) ∧
    (s.plant.transaction = .ready → decodePlantCode code = none →
      exec (.unknownCommand code) s = .next { s with plant := { s.plant with transaction := .ignoring } }) ∧
    (∀ c : PlantCommand, s.plant.transaction = .ready → decodePlantCode code = some c → 0 < c.argBytes →
      ∃ t, exec (.commandByte (.byte code)) s = .next t ∧
        t.plant = { s.plant.linked with transaction := .arguments c } ∧
        { t with plant := s.plant, engine := s.engine } = s ∧ RequestedOnly s.plantLinkRoles s t ∧
        ∀ command : Instr, Spells c command → exec command s = exec command t) ∧
    -- the bits
    (let k := s.plant.clock
     let tr := s.plant.transaction
     let edge (e : SckEdge) : Result := exec (.commandByte (.edge e)) s
     let clocked (c : PlantClock) : State := { s with plant := { s.plant with clock := c } }
     (∀ mosi, tr = .waiting ∨ k.sck = true → edge (.rises mosi) = .next s) ∧
     (tr = .waiting ∨ k.sck = false → edge .falls = .next s) ∧
     (∀ mosi, tr ≠ .waiting → k.sck = false →
       let bits := k.bits ++ [mosi]
       let whole := clockedByte bits
       let c : PlantClock := { k with sck := true, bits := [] }
       let kept := k.bytes ++ [whole]
       let only (c : PlantClock) : Prop := edge (.rises mosi) = .next (clocked c)
       let runs (i : Instr) (c : PlantClock) : Prop := edge (.rises mosi) = exec i (clocked c)
       (k.bits.length < 7 → only { k with sck := true, bits := bits }) ∧
       (7 ≤ k.bits.length →
         (tr = .ready → decodePlantCode whole = none → runs (.unknownCommand whole) c) ∧
         (tr = .ready → ∀ p, decodePlantCode whole = some p → 0 < p.argBytes →
           runs (.commandByte (.byte whole)) c) ∧
         (tr = .ready → ∀ p i, decodePlantCode whole = some p → SpelledBy p [] i → runs i c) ∧
         (∀ p i, tr = .arguments p → SpelledBy p kept i → runs i { c with bytes := [] }) ∧
         (∀ p, tr = .arguments p → kept.length < p.argBytes → only { c with bytes := kept }) ∧
         (∀ m, tr = .pixelsIn m →
           let size := match m with
             | .c8 => 1
             | .c12 => 3
             | .c16 => 2
           (kept.length < size → only { c with bytes := kept }) ∧
           (size ≤ kept.length → runs (.pixelGroup kept) { c with bytes := [] })) ∧
         (tr = .ignoring ∨ tr = .pixelsRefused → only c) ∧
         -- the last bit of a reply's byte
         (let after (length : Nat) : PlantClock :=
            { c with sent := if k.sent + 1 < length then k.sent + 1 else 0 }
          (∀ r, tr = .status (some r) →
            (k.sent = 1 → runs .statusFlagByteSent { c with sent := 2 }) ∧
            (k.sent ≠ 1 → only { c with sent := k.sent + 1 })) ∧
          ((∃ n r, tr = .station n (some r)) ∨ (∃ r, tr = .pace (some r)) ∨ (∃ x r, tr = .summary x (some r)) →
            only { c with sent := k.sent + 1 }) ∧
          (∀ notes slot, tr = .calls notes slot → only (after slot.length)) ∧
          (∀ n e, tr = .loss n e → only (after e.length)) ∧
          (∀ sl, tr = .history (some sl) →
            let length := match sl.record with
              | some r => r.bytes.length
              | none => 1
            (k.sent + 1 < length → only (after length)) ∧
            (length ≤ k.sent + 1 → runs (.historySlot .ends) (after length))) ∧
          (∀ p, tr = .pixelsOut (some p) →
            (k.sent = 0 → only { c with sent := 1 }) ∧
            (k.sent ≠ 0 → runs (.pixelRead .ends) { c with sent := 0 })) ∧
          (tr = .status none ∨ (∃ n, tr = .station n none) ∨ tr = .pace none ∨ (∃ x, tr = .summary x none) ∨
              tr = .history none ∨ tr = .pixelsOut none →
            only { c with sent := 0 })))) ∧
     (tr ≠ .waiting → k.sck = true →
       -- the first bit of a reply's byte begins its capture, and MISO takes the bit
       let begins : Option Instr :=
         if k.bits ≠ [] then none
         else match tr with
           | .status none => some (.readStatus .firstByte)
           | .status (some _) => if k.sent = 8 then some .presenceExtension else none
           | .station _ none => some (.readStation .firstByte)
           | .calls _ _ => if k.sent = 0 then some .callRecordSlot else none
           | .pace none => some (.readPace .firstByte)
           | .loss _ _ => if k.sent = 0 then some (.readLoss .firstByte) else none
           | .summary _ none => some (.readSummary .firstByte)
           | .history none => some (.historySlot .begins)
           | .pixelsOut none => some (.pixelRead .begins)
           | _ => none
       let u := clocked { k with sck := false }
       ∃ t, (match begins with
           | some i => exec i u = .next t
           | none => t = u) ∧
         ∀ b, t.miso k.sent = some b →
           edge .falls = .next { t with plant := { t.plant with
             clock := { k with sck := false, miso := b.getMsbD k.bits.length } } }))

/-- A read as it is taken: its reply is ready to begin, the link restarted by its command byte, no result set
(R133 to R135, R139, R109, R141). That READ CALLS's notes are held as call numbers, where R139 notes the calls
themselves, is the model's choice (log 21, DESIGN CHOICE), and that an age no close has used selects an EMPTY slot,
where R109 says none, its reading (log 25, DEDUCED). -/
def Obligations.ReadsAreTakenWithoutResult : Prop :=
  ∀ s : State, s.inReset = false → s.Quiet →
    (s.plant.transaction = .ready →
      let taken (c : Instr) (reply : Transaction) : Prop :=
        ∃ t, exec c s = .next t ∧ t.plant = { s.plant.linked with transaction := reply } ∧
          { t with plant := s.plant, engine := s.engine } = s ∧ RequestedOnly s.plantLinkRoles s t
      taken (.readStatus .taken) (.status none) ∧
      taken .readCalls (.calls (s.callList.calls.map fun c => c.number) []) ∧
      taken (.readPace .taken) (.pace none) ∧ taken (.readLoss .taken) (.loss 0 []) ∧
      taken .readHistory (.history none)) ∧
    (∀ n : Byte, s.plant.transaction = .arguments .readStation →
      exec (.readStation (.taken n)) s =
        .next { s with plant := { s.plant with transaction := .station n none } }) ∧
    (∀ n : Byte, s.plant.transaction = .arguments .readSummary →
      ∃ slot, exec (.readSummary (.taken n)) s =
          .next { s with plant := { s.plant with transaction := .summary slot none } } ∧
        (3 < n.toNat ∨ s.archive.newest = none → slot = none) ∧
        ∀ j d : Fin 4, s.archive.newest = some j → d.val = n.toNat → slot = some (j - d))

/-- READ STATUS: the eight bytes and the presence extension, each captured at its first byte; the collision flag
cleared by the flag byte where it was shown and no collision came since (R137, R181). -/
def Obligations.ReadStatusCapturesAndClearsShownCollision : Prop :=
  ∀ s : State, s.inReset = false → s.Quiet →
    (s.plant.transaction = .status none →
      ∃ t, exec (.readStatus .firstByte) s = .next t ∧ ∃ r, t.plant.transaction = .status (some r) ∧
        r.bytes =
          [BitVec.ofNat 8 s.timer.state.code,
           BitVec.ofNat 8 (s.plant.collision.toNat + 2 * (decide (s.line.link.state ≠ .up)).toNat +
             4 * (decide (s.plant.link.state ≠ .up)).toNat + 8 * s.alert.xalert.taken.toNat +
             16 * s.alert.asserted.toNat + 32 * (decide (s.timer.state = .closing)).toNat +
             64 * s.engine.overflow.toNat +
             128 * (decide (∃ i : Fin 30, (s.tiles.tiles.at_ i).absent = true)).toNat),
           BitVec.ofNat 8 s.plant.lastResult.code, BitVec.ofNat 8 s.callList.calls.length] ++
            be32 s.timer.runClock ∧
        r.shownCollision = s.plant.collision ∧ r.collisionSince = false ∧ r.extension = none ∧
        { t with plant := { t.plant with transaction := s.plant.transaction } } = s) ∧
    (∀ r, s.plant.transaction = .status (some r) →
      exec .statusFlagByteSent s =
        .next { s with plant := { s.plant with
          collision := s.plant.collision && !(r.shownCollision && !r.collisionSince) } } ∧
      (r.extension = none →
        ∃ t, exec .presenceExtension s = .next t ∧ ∃ ext, t.plant.transaction =
          .status (some { r with extension := some ext }) ∧ ext.length = 4 ∧
          (∀ i : Fin 30, (ext.getD (i.val / 8) 0).getLsbD (i.val % 8) = (s.tiles.tiles.at_ i).absent) ∧
          ext.getD 3 0 < 64 ∧
          { t with plant := { t.plant with transaction := s.plant.transaction } } = s) ∧
      (r.extension ≠ none → exec .presenceExtension s = .next s))

/-- The replies of READ STATION, READ CALLS, READ PACE and READ LOSS as captured, byte by byte (R138 to R140, R32,
R110, R181, R182). That the notes of READ CALLS are numbers, looked up by number, where R139 notes the calls
themselves, is the model's choice (log 21, DESIGN CHOICE), and that READ LOSS's first-byte command comes once an
entry and past the last takes none, its reading (log 7, DEDUCED). -/
def Obligations.StationCallPaceAndLossRepliesAreCaptured : Prop :=
  ∀ s : State, s.inReset = false → s.Quiet →
    let served (c : Instr) (reply : Transaction) : Prop :=
      exec c s = .next { s with plant := { s.plant with transaction := reply } }
    (∀ n : Byte, s.plant.transaction = .station n none →
      (48 ≤ n.toNat → served (.readStation .firstByte) (.station n (some (List.replicate 8 0xFF)))) ∧
      ∀ st : Fin 48, st.val = n.toNat →
        served (.readStation .firstByte) (.station n (some (
          [BitVec.ofNat 8 ((s.layout.enabled st).toNat * 128 +
              match s.layout.stationZone st with
              | some k => 64 + k.val
              | none => 0),
           BitVec.ofNat 8 (s.layout.stations.at_ st).length] ++
          be16 ((s.stations.at_ st).openCall.getD 0) ++ [BitVec.ofNat 8 (s.stations.at_ st).callsShift] ++
          be16 (s.stations.at_ st).chargedLoss ++
          [match (s.stations.at_ st).lastKind with
            | some k => BitVec.ofNat 8 k.code
            | none => 0xFF])))) ∧
    (∀ notes slot, s.plant.transaction = .calls notes slot →
      let isOpen (n : Nat) : Bool := (s.callList.numbered n).isSome
      ((∀ n ∈ notes, isOpen n = false) → served .callRecordSlot (.calls [] [0])) ∧
      (notes = [] → ∀ i, slot.length ≤ i → s.miso i = some 0) ∧
      (notes = [] → slot = [0] → ∀ i, s.miso i = some 0) ∧
      (∀ i < slot.length, s.miso i = some (slot.getD i 0)) ∧
      (∀ i < notes.length, (∀ j < i, isOpen (notes.getD j 0) = false) →
        ∀ c, s.callList.numbered (notes.getD i 0) = some c →
        let ack : List Byte := match c.ack with
          | none => [0]
          | some a => [BitVec.ofNat 8 a.source.code, BitVec.ofNat 8 a.id] ++ be32 a.time
        let rest : List Byte :=
          be16 c.number ++ [BitVec.ofNat 8 c.station.val, BitVec.ofNat 8 c.zone.val] ++
            [BitVec.ofNat 8 (128 * (decide (c.phase = .hold)).toNat + 64 * c.everHeld.toNat + c.level % 4)] ++
            [BitVec.ofNat 8 c.remaining] ++ be32 c.openedAt ++ be16 c.openedTag ++ be16 c.escalation ++
            be16 c.grace ++ be16 c.holdTime ++ [BitVec.ofNat 8 c.kinds.length] ++
            (c.kinds.map fun k => BitVec.ofNat 8 k.code) ++ ack
        let length := 21 + c.kinds.length + if c.ack = none then 0 else 5
        served .callRecordSlot (.calls (notes.drop (i + 1)) (BitVec.ofNat 8 length :: rest)) ∧
          rest.length + 1 = length)) ∧
    (s.plant.transaction = .pace none →
      let f := s.pace.figures
      let p := s.timer.plan
      let block : List Byte :=
        be16 s.timer.number ++ be16 s.timer.clock ++ be16 s.timer.wc ++ [BitVec.ofInt 8 s.timer.correction] ++
          be16 p.length ++ be16 p.takt ++ be16 p.overtime ++
          [BitVec.ofNat 8 (s.timer.staged.isSome.toNat + 2 * s.timer.next.isSome.toNat)] ++
          be32 s.pace.base ++ be16 s.pace.rebaseMark ++ be16 s.pace.actual ++ be16 f.rp ++ be32 f.em ++
          be32 f.gm ++ be16 f.e ++ be16 f.g ++ be16 (BitVec.ofInt 16 f.gap).toNat ++
          be16 (f.pace.getD 0xFFFF)
      served (.readPace .firstByte) (.pace (some block)) ∧ block.length = 40) ∧
    (∀ n slot, s.plant.transaction = .loss n slot →
      let entry (e : List Byte) : Prop := served (.readLoss .firstByte) (.loss (n + 1) e)
      let cars (seconds : Nat) : Nat := seconds * 10 / s.timer.plan.takt
      (∀ k : Fin 6,
        let z := s.tracker.zones.at_ k
        let r := (s.loss.zones.at_ k).reasons
        let d := (s.loss.zones.at_ k).kinds
        (n = k.val → entry [BitVec.ofNat 8 (z.reasons.hold.toNat + 2 * z.reasons.plan.toNat +
            4 * z.reasons.xstop.toNat + 8 * z.reasons.blocked.toNat + 16 * z.reasons.starved.toNat +
            32 * z.stall.toNat + 128 * z.overrun.toNat)]) ∧
        (∀ i : Fin 5, n = 11 + 5 * k.val + i.val →
          entry (be16 ([r.xstop, r.hold, r.stall, r.blocked, r.starved].getD i.val 0))) ∧
        (∀ i : Fin 5, n = 41 + 5 * k.val + i.val →
          entry (be16 ([d.quality, d.parts, d.equipment, d.safety, d.help].getD i.val 0))) ∧
        (n = 71 + k.val → entry (be16 (cars (r.xstop + r.hold + r.stall + r.blocked + r.starved))))) ∧
      (∀ i : Fin 5, n = 6 + i.val →
        let b := s.tracker.buffers.at_ i
        entry [BitVec.ofNat 8 (b.count % 16 + 16 * b.overSlip.toNat + 32 * b.underSlip.toNat)]) ∧
      (∀ i : Fin 5, n = 77 + i.val →
        entry (be16 ([s.loss.lineLost, cars s.loss.lineLost, s.loss.opened, s.loss.closed,
          s.loss.longestHold].getD i.val 0))) ∧
      (82 ≤ n → served (.readLoss .firstByte) (.loss n [])))

/-- READ SUMMARY serves the selected slot: its state and header at the first byte, the body of a COMPLETE slot with
its marker, and 0xFF past the end and, for a COMPLETE slot alone, after a close takes it (R109, R181). That the body
is captured with the header, and that no slot gives the header of an EMPTY one with zeros, is the model's reading
(log 25, DEDUCED). -/
def Obligations.ReadSummaryServesSelectedSlot : Prop :=
  ∀ (slot : Option (Fin 4)) (s : State), s.inReset = false → s.Quiet → s.plant.transaction = .summary slot none →
    ∃ t, exec (.readSummary .firstByte) s = .next t ∧
      { t with plant := { t.plant with transaction := s.plant.transaction } } = s ∧
      ∃ reply, t.plant.transaction = .summary slot (some reply) ∧ reply.cut = false ∧
      (let head (state : Nat) (r : Summary) : List Byte :=
         [BitVec.ofNat 8 state] ++ be16 r.number ++ be32 r.openedAt ++ [BitVec.ofNat 8 r.reason.code]
       let content (k : Fin 4) : Slot := s.archive.slots.at_ k
       (slot = none → reply.header = List.replicate 8 0 ∧ reply.body = []) ∧
       (∀ k, slot = some k → content k = .empty → reply.header = List.replicate 8 0 ∧ reply.body = []) ∧
       (∀ k, slot = some k → ∀ r, content k = .writing r → reply.header = head 1 r ∧ reply.body = []) ∧
       (∀ k, slot = some k → ∀ r, content k = .complete r →
         reply.header = head 2 r ∧
         reply.body =
           be32 r.closedAt ++ be16 r.takt ++ be16 r.target ++ be16 r.expected ++ be16 r.actual ++
             be16 r.productive ++ [BitVec.ofNat 8 r.used] ++ be16 r.lineLost ++ be16 r.lineLostCars ++
             ((List.finRange 6).flatMap fun k =>
               let x := (r.zones.at_ k).reasons
               be16 x.xstop ++ be16 x.hold ++ be16 x.stall ++ be16 x.blocked ++ be16 x.starved) ++
             ((List.finRange 6).flatMap fun k =>
               let x := (r.zones.at_ k).kinds
               be16 x.quality ++ be16 x.parts ++ be16 x.equipment ++ be16 x.safety ++ be16 x.help) ++
             be16 r.opened ++ be16 r.closed ++ [BitVec.ofNat 8 r.carried] ++ be16 r.longestHold ++
             ((List.finRange 48).flatMap fun st =>
               [BitVec.ofNat 8 (r.rows.at_ st).calls] ++ be16 (r.rows.at_ st).loss) ++ [0xA5] ∧
         (reply.header ++ reply.body).length = 299)) ∧
      (∀ i, t.plant.transaction.served i = some ((reply.header ++ reply.body).getD i 0xFF)) ∧
      (∀ k, slot = some k → ∀ r, s.archive.slots.at_ k = .complete r →
        ∀ i, (t.plant.transaction.slotTaken k).served i = some 0xFF) ∧
      (∀ k, (slot = some k → ∀ r, s.archive.slots.at_ k ≠ .complete r) →
        t.plant.transaction.slotTaken k = t.plant.transaction)

/-- READ HISTORY's slots follow the cursor, which moves past a record clocked out whole while it designates it
(R115, R116, R120, R182); REWIND HISTORY puts it on the oldest record (R119). That the cursor is held as the record's
place from the oldest is the model's choice (log 21, DESIGN CHOICE). -/
def Obligations.HistorySlotsFollowCursorAndRewind : Prop :=
  ∀ s : State, s.inReset = false → s.Quiet → s.HistoryForm →
    (∀ slot, s.plant.transaction = .history slot →
      (s.plant.historyCursor = none →
        ∃ t, exec (.historySlot .begins) s = .next t ∧
          t = { s with plant := { s.plant with transaction := .history (some ⟨none, true⟩) } } ∧
          ∀ i, t.miso i = some 0) ∧
      (∀ n, s.plant.historyCursor = some n → ∀ r, s.history[n]? = some r →
        ∃ t, exec (.historySlot .begins) s = .next t ∧
          t = { s with plant := { s.plant with transaction := .history (some ⟨some r, true⟩) } } ∧
          (let ack : List Byte := match r.ack with
             | none => [0]
             | some a => [BitVec.ofNat 8 a.source.code, BitVec.ofNat 8 a.id] ++ be32 a.time
           let closer : List Byte := match r.closedBy with
             | .station => [1]
             | .leader i => [2, BitVec.ofNat 8 i]
             | .plant i => [3, BitVec.ofNat 8 i]
           let rest : List Byte :=
             be16 r.number ++ [BitVec.ofNat 8 r.station.val, BitVec.ofNat 8 r.zone.val] ++
               [BitVec.ofNat 8 r.kinds.length] ++ (r.kinds.map fun k => BitVec.ofNat 8 k.code) ++
               be32 r.openedAt ++ be16 r.openedTag ++ be32 r.closedAt ++ be16 r.closedTag ++ be16 r.holdTime ++
               [BitVec.ofNat 8 (128 * r.everHeld.toNat + 64 * r.droppedBefore.toNat + r.maxLevel % 4)] ++
               closer ++ ack
           ∀ i, t.miso i = some ((BitVec.ofNat 8 (rest.length + 1) :: rest).getD i 0xFF)))) ∧
    (∀ record live, s.plant.transaction = .history (some ⟨record, live⟩) →
      let after : Option Nat := match s.plant.historyCursor with
        | some n => if n + 1 < s.history.length then some (n + 1) else none
        | none => none
      exec (.historySlot .ends) s =
        .next { s with plant := { s.plant with
          transaction := .history none
          historyCursor := if record.isSome && live then after else s.plant.historyCursor } }) ∧
    (s.plant.transaction = .history none → exec (.historySlot .ends) s = .next s) ∧
    (s.plant.transaction = .ready →
      ∃ t, exec .rewindHistory s = .next t ∧
        t.plant =
          { s.plant.linked.answered .ok with
            historyCursor := if s.history = [] then none else some 0 } ∧
        { t with plant := s.plant, engine := s.engine } = s ∧ RequestedOnly s.plantLinkRoles s t)

/-! ### Layout writes (c01) -/

/-- WRITE LAYOUT ZONE, judged in R4's order by the tests of R6 and R7, and its effect on layout, zones and buffers
(R4 to R8). The write and a set it changes request the same roles; that each gets one pass and none is left pending
is the model's reading (log 9, DEDUCED), and a zone's stepped mark at a change of service is cleared by the model's
choice (log 30). A pulse in qualification on the input of a zone brought out of service is dropped (R14), the input
staying taken as LOW (log 33, DEDUCED). -/
def Obligations.LayoutZoneWriteIsJudgedAndApplied : Prop :=
  ∀ (zn un fs ls pt cs st cp : Byte) (s : State), s.inReset = false → s.Quiet → s.CausesCurrent →
    s.plant.transaction = .arguments .writeLayoutZone →
    let refused (r : PlantResult) : Prop :=
      exec (.writeLayoutZone zn un fs ls pt cs st cp) s = .next { s with plant := s.plant.answered r }
    (s.timer.state ≠ .noShift → refused .state) ∧
    (s.timer.state = .noShift → 5 < zn.toNat → refused .range) ∧
    (∀ k : Fin 6, s.timer.state = .noShift → k.val = zn.toNat →
      let used := max 1 (min 6 un.toNat)
      let first := min 47 fs.toNat
      let last := min 47 ls.toNat
      let pitch := max 8 (min 255 pt.toNat)
      let coast := min 31 cs.toNat
      let capacity := min 15 cp.toNat
      let layout : Layout :=
        { s.layout with
          used := used
          zones := s.layout.zones.put k ⟨first, last, pitch, coast, st.toNat % 4, st.getLsbD 7, capacity⟩ }
      let meets := k.val < used ∧ k.val ≤ s.layout.used ∧ first ≤ last ∧
        (used ≤ s.layout.used ∨ used = k.val + 1) ∧ (k.val = 0 → first = 0) ∧
        (∀ j : Fin 6, j.val + 1 = k.val → first = (s.layout.zones.at_ j).last + 1) ∧
        (∀ j : Fin 6, j.val = k.val + 1 → k.val + 1 < used → (s.layout.zones.at_ j).first = last + 1)
      let strands := used ≠ s.layout.used ∧ s.callList.calls ≠ [] ∨
        ∃ c ∈ s.callList.calls, layout.stationZone c.station ≠ s.layout.stationZone c.station
      (¬meets → refused .invalid) ∧ (meets → strands → refused .state) ∧
      (meets → ¬strands →
        ∃ t, exec (.writeLayoutZone zn un fs ls pt cs st cp) s = .next t ∧ t.layout = layout ∧
          t.plant = s.plant.answered .ok ∧
          Settled (fun j =>
            let z := s.tracker.zones.at_ j
            if decide (j.val < s.layout.used) ≠ decide (j.val < used) then
              ⟨0, ⟨false, false, false, false, false⟩, 0, false, 0, false, false⟩
            else if j = k then
              { z with
                accumulator := min z.accumulator (pitch - 1)
                overrun := z.overrun || decide (coast < z.coast) }
            else z) s t ∧
          (∀ b : Fin 5, t.tracker.buffers.at_ b =
            let x := s.tracker.buffers.at_ b
            if decide (b.val + 1 < s.layout.used) ≠ decide (b.val + 1 < used) then ⟨0, false, false⟩
            else if b.val + 1 < used then { x with count := min x.count (layout.capacity b) }
            else x) ∧
          (∀ j : Fin 6, t.pitch.at_ j =
            let f := s.pitch.at_ j
            if used ≤ j.val ∧ j.val < s.layout.used ∧ f.taken = false then ⟨false, false⟩ else f) ∧
          t.tracker.xstop = s.tracker.xstop ∧ t.SetsCurrent ∧ t.CausesCurrent ∧
          RequestedOnly [.stations, .ticker] s t ∧
          { t with
            layout := s.layout, pitch := s.pitch, tracker := s.tracker, plant := s.plant, engine := s.engine
            alert := s.alert, tiles := s.tiles } = s ∧
          OnlyEchoes s t))

/-- WRITE LAYOUT STATION, judged in R4's order, stores the flag and the clamped length of one station (R4, R9). -/
def Obligations.LayoutStationWriteIsJudgedAndApplied : Prop :=
  ∀ (sn fl ln : Byte) (s : State), s.inReset = false → s.Quiet → s.CausesCurrent →
    s.plant.transaction = .arguments .writeLayoutStation →
    let refused (r : PlantResult) : Prop :=
      exec (.writeLayoutStation sn fl ln) s = .next { s with plant := s.plant.answered r }
    let length := max 4 (min 64 ln.toNat)
    (s.timer.state ≠ .noShift → refused .state) ∧
    (s.timer.state = .noShift → 47 < sn.toNat → refused .range) ∧
    (∀ st : Fin 48, s.timer.state = .noShift → st.val = sn.toNat →
      let held := s.callList.atStation st ≠ none ∧ (fl = 0 ∨ length ≠ (s.layout.stations.at_ st).length)
      (held → refused .state) ∧
      (¬held →
        ∃ t, exec (.writeLayoutStation sn fl ln) s = .next t ∧
          t.layout = { s.layout with stations := s.layout.stations.put st ⟨decide (fl ≠ 0), length⟩ } ∧
          t.plant = s.plant.answered .ok ∧
          Settled s.tracker.zones.at_ s t ∧ t.tracker.buffers = s.tracker.buffers ∧
          t.tracker.xstop = s.tracker.xstop ∧ t.CausesCurrent ∧
          RequestedOnly [.stations, .ticker] s t ∧
          { t with
            layout := s.layout, tracker := s.tracker, plant := s.plant, engine := s.engine, alert := s.alert
            tiles := s.tiles } = s ∧
          OnlyEchoes s t))

/-! ### The Frame Store (c09) -/

/-- SET WINDOW clamps and orders its corners, SET CURSOR clamps, SET MARK and RETURN TO MARK copy (R145, R146,
R154); SET ADDRESS CONTROL and SET COLOUR MODE store their codes or refuse with RANGE, and SET MASK stores its three
flags (R147, R149, R150). -/
def Obligations.WindowCursorMarkControlModeAndMaskAreSet : Prop :=
  ∀ (x0 y0 x1 y1 : Byte) (s : State), s.inReset = false → s.Quiet →
    (s.plant.transaction = .arguments .setWindow →
      let a := min x0.toNat 159
      let b := min x1.toNat 159
      let c := min y0.toNat 47
      let d := min y1.toNat 47
      exec (.setWindow x0 y0 x1 y1) s =
        .next { s with
          plant := s.plant.answered .ok
          frame := { s.frame with
            window :=
              { x0 := if b < a then b else a, y0 := if d < c then d else c
                x1 := if b < a then a else b, y1 := if d < c then c else d } } }) ∧
    (s.plant.transaction = .arguments .setCursor →
      exec (.setCursor x0 y0) s =
        .next { s with
          plant := s.plant.answered .ok
          frame := { s.frame with cursor := ⟨min x0.toNat 159, min y0.toNat 47⟩ } }) ∧
    (s.plant.transaction = .ready →
      (∃ t, exec .setMark s = .next t ∧ t.frame = { s.frame with mark := s.frame.cursor } ∧
        t.plant = s.plant.linked.answered .ok ∧
        { t with frame := s.frame, plant := s.plant, engine := s.engine } = s ∧
        RequestedOnly s.plantLinkRoles s t) ∧
      ∃ t, exec .returnToMark s = .next t ∧ t.frame = { s.frame with cursor := s.frame.mark } ∧
        t.plant = s.plant.linked.answered .ok ∧
        { t with frame := s.frame, plant := s.plant, engine := s.engine } = s ∧
        RequestedOnly s.plantLinkRoles s t) ∧
    (s.plant.transaction = .arguments .setAddressControl →
      (1 < x0.toNat ∨ 1 < y0.toNat ∨ 1 < x1.toNat ∨ 1 < y1.toNat →
        exec (.setAddressControl x0 y0 x1 y1) s = .next { s with plant := s.plant.answered .range }) ∧
      (x0.toNat ≤ 1 → y0.toNat ≤ 1 → x1.toNat ≤ 1 → y1.toNat ≤ 1 →
        exec (.setAddressControl x0 y0 x1 y1) s =
          .next { s with
            plant := s.plant.answered .ok
            frame := { s.frame with
              control := ⟨decide (x0 = 1), decide (y0 = 1), decide (x1 = 1), decide (y1 = 1)⟩ } })) ∧
    (s.plant.transaction = .arguments .setColourMode →
      let stored (m : ColourMode) : Prop :=
        exec (.setColourMode x0) s =
          .next { s with plant := s.plant.answered .ok, frame := { s.frame with colourMode := m } }
      (x0 = 0 → stored .c8) ∧ (x0 = 1 → stored .c12) ∧ (x0 = 2 → stored .c16) ∧
      (2 < x0.toNat → exec (.setColourMode x0) s = .next { s with plant := s.plant.answered .range })) ∧
    (s.plant.transaction = .arguments .setMask →
      exec (.setMask x0) s =
        .next { s with
          plant := s.plant.answered .ok
          frame := { s.frame with mask := ⟨x0.getLsbD 0, x0.getLsbD 1, x0.getLsbD 2⟩ } })

/-- A transfer begins with the cursor clamped into the window or at its start corner (WRITE PIXELS refuses an
origin above 1), and READ PIXELS serves the pixel at the cursor, which advances after its second byte (R146, R148,
R151, R153). -/
def Obligations.PixelTransfersBeginAtCursorAndReadsAdvance : Prop :=
  ∀ (origin : Byte) (s : State), s.inReset = false → s.Quiet → s.frame.window.InFrame →
    let f := s.frame
    let w := f.window
    let clamped : Point := ⟨max w.x0 (min w.x1 f.cursor.x), max w.y0 (min w.y1 f.cursor.y)⟩
    let start : Point :=
      ⟨if f.control.columnMinus then w.x1 else w.x0, if f.control.rowMinus then w.y1 else w.y0⟩
    let last : Point :=
      ⟨if f.control.columnMinus then w.x0 else w.x1, if f.control.rowMinus then w.y0 else w.y1⟩
    let along (minus : Bool) (n : Nat) : Nat := if minus then n - 1 else n + 1
    let c := f.cursor
    let advanced : Point :=
      if c = last then (if f.control.wrap then start else c)
      else if f.control.rowFirst then
        if c.y = last.y then ⟨along f.control.columnMinus c.x, start.y⟩ else ⟨c.x, along f.control.rowMinus c.y⟩
      else
        if c.x = last.x then ⟨start.x, along f.control.rowMinus c.y⟩ else ⟨along f.control.columnMinus c.x, c.y⟩
    (s.plant.transaction = .arguments .writePixels →
      let begun (p : Point) : Prop :=
        exec (.writePixels origin) s =
          .next { s with
            frame := { f with cursor := p }
            plant := { s.plant with transaction := .pixelsIn f.colourMode } }
      (origin = 0 → begun clamped) ∧ (origin = 1 → begun start) ∧
      (1 < origin.toNat →
        exec (.writePixels origin) s =
          .next { s with plant := { s.plant with transaction := .pixelsRefused, lastResult := .range } })) ∧
    (s.plant.transaction = .ready →
      ∃ t, exec .readPixels s = .next t ∧ t.frame = { f with cursor := clamped } ∧
        t.plant = { s.plant.linked with transaction := .pixelsOut none } ∧
        { t with frame := s.frame, plant := s.plant, engine := s.engine } = s ∧
        RequestedOnly s.plantLinkRoles s t) ∧
    (∀ p, s.plant.transaction = .pixelsOut p →
      (let q := f.pixels.read (160 * c.y + c.x)
       ∃ t, exec (.pixelRead .begins) s = .next t ∧
         t = { s with plant := { s.plant with transaction := .pixelsOut (some q) } } ∧
         t.miso 0 = some (BitVec.ofNat 8 (q.r.toNat * 16 + q.g.toNat)) ∧
         t.miso 1 = some (BitVec.ofNat 8 (q.b.toNat * 16))) ∧
      (p = none → exec (.pixelRead .ends) s = .next s) ∧
      (p ≠ none →
        exec (.pixelRead .ends) s =
          .next { s with
            frame := { f with cursor := advanced }
            plant := { s.plant with transaction := .pixelsOut none } }))

/-- A complete pixel group is its pixels in sending order, each with its own ownership test, mask and advance: a
plant-owned pixel is written through the mask, an engine-owned one dropped with the collision flag set; bytes that
are no complete group of the mode apply nothing (R144, R149 to R152). -/
def Obligations.PixelGroupsAreWrittenOrDroppedPixelByPixel : Prop :=
  ∀ (m : ColourMode) (bytes : List Byte) (p : Pixel) (s : State), s.inReset = false → s.Quiet →
    s.plant.transaction = .pixelsIn m →
    let at_ (i : Nat) : Byte := bytes.getD i 0
    let word : BitVec 16 := at_ 0 ++ at_ 1
    let high (i : Nat) : BitVec 4 := (at_ i).extractLsb' 4 4
    let low (i : Nat) : BitVec 4 := (at_ i).extractLsb' 0 4
    let groupLength := match m with
      | .c8 => 1
      | .c12 => 3
      | .c16 => 2
    (bytes.length ≠ groupLength → exec (.pixelGroup bytes) s = .next s) ∧
    (bytes.length = groupLength → m = .c8 →
      exec (.pixelGroup bytes) s = .next (writePixel s
        ⟨(at_ 0).extractLsb' 5 3 ++ (at_ 0).extractLsb' 7 1, (at_ 0).extractLsb' 2 3 ++ (at_ 0).extractLsb' 4 1,
         (at_ 0).extractLsb' 0 2 ++ (at_ 0).extractLsb' 0 2⟩)) ∧
    (bytes.length = groupLength → m = .c12 →
      exec (.pixelGroup bytes) s =
        .next (writePixel (writePixel s ⟨high 0, low 0, high 1⟩) ⟨low 1, high 2, low 2⟩)) ∧
    (bytes.length = groupLength → m = .c16 →
      exec (.pixelGroup bytes) s = .next (writePixel s
        ⟨word.extractLsb' 12 4, word.extractLsb' 7 4, word.extractLsb' 1 4⟩)) ∧
    -- one pixel of any of these groups
    (let t := writePixel s p
     let c := s.frame.cursor
     let owned := ∃ i : Fin 8, (s.engine.regions.at_ i).enabled = true ∧
       (s.engine.regions.at_ i).role ≠ .message ∧ (s.engine.regions.at_ i).rect.holds c.x c.y = true
     (owned → t.frame.pixels = s.frame.pixels ∧ t.plant = { s.plant with collision := true }) ∧
     (¬owned → s.frame.pixels.wf = true → c.InFrame →
       (∀ a, t.frame.pixels.read a =
         if a = 160 * c.y + c.x then
           ⟨if s.frame.mask.r then (s.frame.pixels.read a).r else p.r,
            if s.frame.mask.g then (s.frame.pixels.read a).g else p.g,
            if s.frame.mask.b then (s.frame.pixels.read a).b else p.b⟩
         else s.frame.pixels.read a) ∧ t.plant = s.plant) ∧
     t.frame.cursor = s.frame.advanced ∧
     { t.frame with pixels := s.frame.pixels, cursor := s.frame.cursor } = s.frame ∧
     { t with frame := s.frame, plant := s.plant } = s)

/-! ### The Composition Engine (c10) -/

/-- What a pass of each role captures at its start (R160): the figures of PACE (R168), the lamps of STATIONS by
R164's table, the ordered call lines of TICKER (R166), the time of CLOCK (R169) and the message of BANNER by R170's
table. -/
def Obligations.PassCapturesWhatItsRoleShows : Prop :=
  ∀ s : State,
    let down := s.line.link.state ≠ .up
    let timer := s.timer.state
    (∀ (r : Region) (c : Capture), s.captureFor r.role = some c → s.startedPass r = .busy c 0 false ∧
      s.requested r = match r.render with
        | .idle => .busy c 0 false
        | .busy c' n _ => .busy c' n true) ∧
    s.captureFor .message = none ∧
    (let f := s.pace.figures
     s.captureFor .pace = some (.pace f.g f.e s.pace.actual (max (-999) (min 999 f.gap)) f.pace
       (match s.timer.active with
         | none => 0
         | some p => s.loss.lineLost * 10 / p.takt))) ∧
    s.captureFor .stations = some (.stations
      (((List.finRange 48).filter fun st =>
        (s.layout.stations.at_ st).flag &&
          (List.finRange 6).any fun k =>
            decide (k.val < s.layout.used ∧ (s.layout.zones.at_ k).first ≤ st.val ∧
              st.val ≤ (s.layout.zones.at_ k).last)).map s.lamp) s.engine.flashOn) ∧
    (∀ st : Fin 48,
      (down → s.lamp st = ⟨.white, false⟩) ∧
      (¬down → ∀ x, s.callList.atStation st = some x →
        s.lamp st = ⟨if x.phase = .hold then .red else .yellow, decide (2 ≤ x.level)⟩) ∧
      (¬down → s.callList.atStation st = none → ∀ k : Fin 6, s.layout.stationZone st = some k →
        let z := s.tracker.zones.at_ k
        let other := z.reasons.hold ∨ z.reasons.xstop ∨ z.reasons.blocked ∨ z.reasons.starved
        (z.stall = true → s.lamp st = ⟨.magenta, true⟩) ∧
        (z.stall = false → z.reasons.plan = true → s.lamp st = ⟨.dimWhite, false⟩) ∧
        (z.stall = false → z.reasons.plan = false → other → s.lamp st = ⟨.blue, false⟩) ∧
        (z.stall = false → z.reasons.plan = false → ¬other → s.lamp st = ⟨.green, false⟩))) ∧
    (let line (x : Call) : TickerLine :=
       { station := x.station.val, kinds := x.kinds
         minutes := min 99 ((s.timer.runClock - x.openedAt) / 60), level := x.level
         colour := if down then .white else if x.phase = .hold then .red else .yellow }
     let inPhase (p : Phase) : List Call := s.callList.calls.filter fun x => decide (x.phase = p)
     s.captureFor .ticker = some (.ticker s.callList.calls.length (inPhase .hold).length
       ((inPhase .hold ++ inPhase .warn).map line) s.engine.scrollOffset)) ∧
    s.captureFor .clock = some (.clock (if timer = .noShift then none else some s.timer.clock)) ∧
    (let shows (m : Option BannerMessage) : Prop := s.captureFor .banner = some (.banner m s.engine.flashOn)
     let stop := s.tracker.xstop.taken = true
     let elsewhere := s.alert.xalert.taken = true
     let lost := s.plant.link.state = .lost
     (stop → shows (some .safetyStop)) ∧
     (¬stop → down → shows (some .lineLink)) ∧
     (¬stop → ¬down → elsewhere → shows (some .stopElsewhere)) ∧
     (¬stop → ¬down → ¬elsewhere → lost → shows (some .plantLink)) ∧
     (¬stop → ¬down → ¬elsewhere → ¬lost → timer = .inBreak → shows (some .inBreak)) ∧
     (¬stop → ¬down → ¬elsewhere → ¬lost → timer = .overtime → shows (some .overtime)) ∧
     (¬stop → ¬down → ¬elsewhere → ¬lost → timer ≠ .inBreak → timer ≠ .overtime → shows none))

/-- What a pass draws from its capture: the cells of STATIONS (R165), and the text lines of PACE, TICKER, CLOCK and
BANNER, character by character in R163's font and colours, over black (R163, R166, R168 to R170; log 23 for the
placing of text). -/
def Obligations.PictureDrawsCellsAndTextLines : Prop :=
  ∀ (r : Region) (x y : Nat),
    let w := r.rect.x1 + 1 - r.rect.x0
    let h := r.rect.y1 + 1 - r.rect.y0
    x < w → y < h →
    -- the figures, the font's signs and the colours
    (∀ n < 10 ^ 10, decimal n = if n = 0 then [digitGlyph 0] else ((Nat.digits 10 n).map digitGlyph).reverse) ∧
    ([Colour.black, .white, .dimWhite, .red, .yellow, .magenta, .blue, .green].map Colour.pixel =
      [⟨0, 0, 0⟩, ⟨15, 15, 15⟩, ⟨4, 4, 4⟩, ⟨15, 0, 0⟩, ⟨15, 12, 0⟩, ⟨15, 0, 15⟩, ⟨0, 4, 15⟩, ⟨0, 15, 0⟩]) ∧
    (List.range 10).map digitGlyph = [.d0, .d1, .d2, .d3, .d4, .d5, .d6, .d7, .d8, .d9] ∧
    (let font : List (Glyph × List Nat) :=
       [(.d0, [0x0E, 0x11, 0x13, 0x15, 0x19, 0x11, 0x0E]), (.d1, [0x04, 0x0C, 0x04, 0x04, 0x04, 0x04, 0x0E]),
        (.d2, [0x0E, 0x11, 0x01, 0x02, 0x04, 0x08, 0x1F]), (.d3, [0x1F, 0x02, 0x04, 0x02, 0x01, 0x11, 0x0E]),
        (.d4, [0x02, 0x06, 0x0A, 0x12, 0x1F, 0x02, 0x02]), (.d5, [0x1F, 0x10, 0x1E, 0x01, 0x01, 0x11, 0x0E]),
        (.d6, [0x06, 0x08, 0x10, 0x1E, 0x11, 0x11, 0x0E]), (.d7, [0x1F, 0x01, 0x02, 0x04, 0x08, 0x08, 0x08]),
        (.d8, [0x0E, 0x11, 0x11, 0x0E, 0x11, 0x11, 0x0E]), (.d9, [0x0E, 0x11, 0x11, 0x0F, 0x01, 0x02, 0x0C])] ++
       [(.gA, [0x0E, 0x11, 0x11, 0x11, 0x1F, 0x11, 0x11]), (.gB, [0x1E, 0x11, 0x11, 0x1E, 0x11, 0x11, 0x1E]),
        (.gC, [0x0E, 0x11, 0x10, 0x10, 0x10, 0x11, 0x0E]), (.gD, [0x1C, 0x12, 0x11, 0x11, 0x11, 0x12, 0x1C]),
        (.gE, [0x1F, 0x10, 0x10, 0x1E, 0x10, 0x10, 0x1F]), (.gF, [0x1F, 0x10, 0x10, 0x1E, 0x10, 0x10, 0x10]),
        (.gG, [0x0E, 0x11, 0x10, 0x17, 0x11, 0x11, 0x0F]), (.gH, [0x11, 0x11, 0x11, 0x1F, 0x11, 0x11, 0x11]),
        (.gI, [0x0E, 0x04, 0x04, 0x04, 0x04, 0x04, 0x0E]), (.gJ, [0x07, 0x02, 0x02, 0x02, 0x02, 0x12, 0x0C])] ++
       [(.gK, [0x11, 0x12, 0x14, 0x18, 0x14, 0x12, 0x11]), (.gL, [0x10, 0x10, 0x10, 0x10, 0x10, 0x10, 0x1F]),
        (.gM, [0x11, 0x1B, 0x15, 0x15, 0x11, 0x11, 0x11]), (.gN, [0x11, 0x11, 0x19, 0x15, 0x13, 0x11, 0x11]),
        (.gO, [0x0E, 0x11, 0x11, 0x11, 0x11, 0x11, 0x0E]), (.gP, [0x1E, 0x11, 0x11, 0x1E, 0x10, 0x10, 0x10]),
        (.gQ, [0x0E, 0x11, 0x11, 0x11, 0x15, 0x12, 0x0D]), (.gR, [0x1E, 0x11, 0x11, 0x1E, 0x14, 0x12, 0x11]),
        (.gS, [0x0F, 0x10, 0x10, 0x0E, 0x01, 0x01, 0x1E]), (.gT, [0x1F, 0x04, 0x04, 0x04, 0x04, 0x04, 0x04])] ++
       [(.gU, [0x11, 0x11, 0x11, 0x11, 0x11, 0x11, 0x0E]), (.gV, [0x11, 0x11, 0x11, 0x11, 0x11, 0x0A, 0x04]),
        (.gW, [0x11, 0x11, 0x11, 0x15, 0x15, 0x15, 0x0A]), (.gX, [0x11, 0x11, 0x0A, 0x04, 0x0A, 0x11, 0x11]),
        (.gY, [0x11, 0x11, 0x11, 0x0A, 0x04, 0x04, 0x04]), (.gZ, [0x1F, 0x01, 0x02, 0x04, 0x08, 0x10, 0x1F]),
        (.space, [0x00, 0x00, 0x00, 0x00, 0x00, 0x00, 0x00]), (.minus, [0x00, 0x00, 0x00, 0x1F, 0x00, 0x00, 0x00]),
        (.plus, [0x00, 0x04, 0x04, 0x1F, 0x04, 0x04, 0x00]), (.colon, [0x00, 0x0C, 0x0C, 0x00, 0x0C, 0x0C, 0x00])] ++
       [(.percent, [0x18, 0x19, 0x02, 0x04, 0x08, 0x13, 0x03])]
     ∀ p ∈ font, p.1.rows = p.2) ∧
    -- the STATIONS region
    (∀ lamps flashOn,
      let c := max 2 (w / lamps.length)
      let shown := r.pictureAt (.stations lamps flashOn) x y
      let fits := (x / c + 1) * c ≤ w
      (lamps.length ≤ x / c ∨ ¬fits → shown = ⟨0, 0, 0⟩) ∧
      ∀ l, lamps[x / c]? = some l → fits →
        shown = if 3 ≤ c ∧ x % c + 1 = c ∨ l.flashing = true ∧ flashOn = false then ⟨0, 0, 0⟩ else l.colour.pixel) ∧
    -- the text lines: a character with its whole glyph in the columns, on a line with its eight rows in the region
    (let draws (capture : Capture) (lines : List TextLine) : Prop :=
       let shown := r.pictureAt capture x y
       let covers (t : TextLine) (j row col : Nat) : Prop :=
         t.top + 8 ≤ h ∧ t.left + 6 * j + 5 ≤ w ∧ row < 7 ∧ col < 5 ∧ x = t.left + 6 * j + col ∧ y = t.top + row
       (∀ t ∈ lines, ∀ j row col g colour, covers t j row col → t.cells[j]? = some (g, colour) →
         shown = if (g.rows.getD row 0).testBit (4 - col) then colour.pixel else ⟨0, 0, 0⟩) ∧
       ((∀ t ∈ lines, ∀ j row col, j < t.cells.length → ¬covers t j row col) → shown = ⟨0, 0, 0⟩)
     let white (t : List Glyph) : List (Glyph × Colour) := t.map fun g => (g, .white)
     let two (n : Nat) : List Glyph := [digitGlyph (n / 10 % 10), digitGlyph (n % 10)]
     (∀ target expected actual gap pace lost,
       draws (.pace target expected actual gap pace lost)
         [⟨0, 0, white ([.gG, .space] ++ decimal target ++ [.space, .gE, .space] ++ decimal expected ++
             [.space, .gA, .space] ++ decimal actual)⟩,
          ⟨8, 0, white [.gG, .gA, .gP, .space] ++
             ((if gap < 0 then [Glyph.minus] else if gap = 0 then [] else [.plus]) ++ decimal gap.natAbs).map
               (fun g => (g, if gap < 0 then .red else .green)) ++
             white ([.space, .gP, .gA, .gC, .gE] ++
               (match pace with
                 | none => []
                 | some p => [.space] ++ decimal p ++ [.percent]) ++
               [.space, .gL, .gO, .gS, .gT, .space] ++ decimal lost)⟩]) ∧
     (∀ openCount held lines offset,
       let total := h / 8
       let headers := min r.headerRows total
       let headerText : List (List Glyph) :=
         [[.gC, .gA, .gL, .gL, .gS, .space] ++ decimal openCount, [.gH, .gO, .gL, .gD, .space] ++ decimal held]
       let callText (t : TickerLine) : List Glyph :=
         two t.station ++ [.space] ++
           t.kinds.map (fun
             | .quality => Glyph.gQ
             | .parts => .gP
             | .equipment => .gE
             | .safety => .gS
             | .help => .gH) ++
           [.space] ++ two t.minutes ++ [.space, .gL, digitGlyph t.level]
       r.headerRows ≤ 2 →
       draws (.ticker openCount held lines offset)
         ((List.range total).map fun k =>
           ⟨8 * k, 0,
             if k < headers then white (headerText.getD k [])
             else
               match lines[offset + (k - headers)]? with
               | some t => (callText t).map fun g => (g, t.colour)
               | none => []⟩)) ∧
     (∀ shown : Option Nat,
       draws (.clock shown)
         [⟨(h - 7) / 2, (w - 29) / 2, white (match shown with
           | none => [.minus, .minus, .colon, .minus, .minus]
           | some c => two (c / 3600) ++ [.colon] ++ two (c % 3600 / 60))⟩]) ∧
     (∀ flashOn,
       let banner (m : BannerMessage) (text : List Glyph) (colour : Colour) : Prop :=
         draws (.banner (some m) flashOn) [⟨0, 0, text.map fun g => (g, colour)⟩]
       banner .safetyStop [.gS, .gA, .gF, .gE, .gT, .gY, .space, .gS, .gT, .gO, .gP]
         (if flashOn then .red else .black) ∧
       banner .lineLink [.gL, .gI, .gN, .gE, .space, .gL, .gI, .gN, .gK] .white ∧
       banner .stopElsewhere
         [.gS, .gT, .gO, .gP, .space, .gE, .gL, .gS, .gE, .gW, .gH, .gE, .gR, .gE] .red ∧
       banner .plantLink [.gP, .gL, .gA, .gN, .gT, .space, .gL, .gI, .gN, .gK] .yellow ∧
       banner .inBreak [.gB, .gR, .gE, .gA, .gK] .dimWhite ∧
       banner .overtime [.gO, .gV, .gE, .gR, .gT, .gI, .gM, .gE] .blue ∧
       draws (.banner none flashOn) []))

/-- WRITE REGION, judged in R157's order, and its effect: the entry, the cleared pixels, the fresh pass, the scroll
and the overflow flag (R157, R158); the pass captures before the scroll returns to 0, and the overflow flag falls
only where the entry held STATIONS in force (the model's readings, log 10). -/
def Obligations.RegionWriteIsJudgedAndApplied : Prop :=
  ∀ (en ro x0 y0 x1 y1 fl hd sc : Byte) (s : State), s.inReset = false → s.Quiet → s.frame.pixels.wf = true →
    s.plant.transaction = .arguments .writeRegion →
    let c : Instr := .writeRegion en ro x0 y0 x1 y1 fl hd sc
    let refused (r : PlantResult) : Prop := exec c s = .next { s with plant := s.plant.answered r }
    (7 < en.toNat ∨ 5 < ro.toNat → refused .range) ∧
    (∀ (i : Fin 8) (role : Role), i.val = en.toNat →
      [Role.pace, .stations, .ticker, .clock, .banner, .message][ro.toNat]? = some role →
      let old := s.engine.regions.at_ i
      let rect : Rect :=
        ⟨min (min x0.toNat 159) (min x1.toNat 159), min (min y0.toNat 47) (min y1.toNat 47),
         max (min x0.toNat 159) (min x1.toNat 159), max (min y0.toNat 47) (min y1.toNat 47)⟩
      let others (p : Region → Prop) : Prop :=
        ∃ j : Fin 8, j ≠ i ∧ (s.engine.regions.at_ j).enabled = true ∧ p (s.engine.regions.at_ j)
      let overlap := fl ≠ 0 ∧ others fun q =>
        rect.x0 ≤ q.rect.x1 ∧ q.rect.x0 ≤ rect.x1 ∧ rect.y0 ≤ q.rect.y1 ∧ q.rect.y0 ≤ rect.y1
      let held := fl ≠ 0 ∧ role ≠ .message ∧ others fun q => q.role = role
      let owns := fl ≠ 0 ∧ role ≠ .message
      let oldOwns := old.enabled = true ∧ old.role ≠ .message
      (overlap → refused .overlap) ∧ (¬overlap → held → refused .invalid) ∧
      (¬overlap → ¬held →
        ∃ t, exec c s = .next t ∧ t.plant = s.plant.answered .ok ∧
          { t.engine.regions.at_ i with render := .idle } =
            ⟨role, rect, decide (fl ≠ 0), min 2 hd.toNat, max 1 (min 10 sc.toNat), .idle⟩ ∧
          (¬owns → (t.engine.regions.at_ i).render = .idle) ∧
          (owns → ∃ capture, s.captureFor role = some capture ∧
            (t.engine.regions.at_ i).render = .busy capture 0 false) ∧
          (∀ j, j ≠ i → t.engine.regions.at_ j = s.engine.regions.at_ j) ∧
          (∀ a, t.frame.pixels.read a =
            if (oldOwns ∧ old.rect.holds (a % 160) (a / 160) = true) ∧
                ¬(owns ∧ rect.holds (a % 160) (a / 160) = true) then ⟨0, 0, 0⟩
            else s.frame.pixels.read a) ∧
          (let scroll := role = .ticker ∨ old.role = .ticker
           t.engine.scrollOffset = (if scroll then 0 else s.engine.scrollOffset) ∧
           t.engine.scrollCount = (if scroll then 0 else s.engine.scrollCount)) ∧
          t.engine.overflow =
            (if (old.enabled = true ∧ old.role = .stations) ∧ ¬(fl ≠ 0 ∧ role = .stations) then false
              else s.engine.overflow) ∧
          t.engine.flashOn = s.engine.flashOn ∧
          { t.frame with pixels := s.frame.pixels } = s.frame ∧
          { t with plant := s.plant, frame := s.frame, engine := s.engine } = s))

/-- The completion of a pass leaves its picture in its rectangle from the pixel reached on, sets or clears the
overflow flag for STATIONS, and starts the pending pass or goes idle (R159, R160, R165; log 16). -/
def Obligations.PassCompletionLeavesPictureAndServesPending : Prop :=
  ∀ (i : Fin 8) (s : State), s.inReset = false → s.Quiet → s.frame.pixels.wf = true →
    let r := s.engine.regions.at_ i
    r.rect.InFrame →
    (r.render = .idle → exec (.renderPassComplete i) s = .next s) ∧
    (∀ capture n again, r.render = .busy capture n again →
      ∃ t, exec (.renderPassComplete i) s = .next t ∧
        (∀ x y, r.rect.holds x y = true →
          t.frame.pixels.read (160 * y + x) =
            if n ≤ (y - r.rect.y0) * (r.rect.x1 + 1 - r.rect.x0) + (x - r.rect.x0) then
              r.pictureAt capture (x - r.rect.x0) (y - r.rect.y0)
            else s.frame.pixels.read (160 * y + x)) ∧
        (∀ x y, x < 160 → r.rect.holds x y = false →
          t.frame.pixels.read (160 * y + x) = s.frame.pixels.read (160 * y + x)) ∧
        (again = false → t.engine.regions.at_ i = { r with render := .idle }) ∧
        (again = true → ∀ fresh, t.captureFor r.role = some fresh →
          t.engine.regions.at_ i = { r with render := .busy fresh 0 false }) ∧
        (∀ j, j ≠ i → t.engine.regions.at_ j = s.engine.regions.at_ j) ∧
        t.engine.overflow =
          (match capture with
            | .stations lamps _ =>
              let w := r.rect.x1 + 1 - r.rect.x0
              decide (w / max 2 (w / lamps.length) < lamps.length)
            | .pace _ _ _ _ _ _ | .ticker _ _ _ _ | .clock _ | .banner _ _ => s.engine.overflow) ∧
        { t.engine with regions := s.engine.regions, overflow := s.engine.overflow } = s.engine ∧
        { t.frame with pixels := s.frame.pixels } = s.frame ∧
        { t with frame := s.frame, engine := s.engine } = s)

/-- The ticker's scroll second and step while the calls do not fit, and the flash toggle with its requests (R162,
R167; the count capped at the interval, log 13). -/
def Obligations.TickerScrollsAndFlashToggles : Prop :=
  ∀ s : State, s.inReset = false → s.Quiet →
    let n := s.callList.calls.length
    let lines (r : Region) : Nat := r.rect.height / 8 - min r.headerRows (r.rect.height / 8)
    ((∀ r, s.engine.inForce .ticker = some r → n ≤ lines r) →
      exec .scrollSecond s = .next s ∧ exec .scrollStep s = .next s) ∧
    (∀ r, s.engine.inForce .ticker = some r → lines r < n →
      exec .scrollSecond s =
        .next { s with engine := { s.engine with
          scrollCount := min r.scrollInterval (s.engine.scrollCount + 1) } } ∧
      (s.engine.scrollCount < r.scrollInterval → exec .scrollStep s = .next s) ∧
      (r.scrollInterval ≤ s.engine.scrollCount →
        ∃ t, exec .scrollStep s = .next t ∧ t.engine.scrollCount = 0 ∧
          t.engine.scrollOffset =
            (if n - lines r < s.engine.scrollOffset + 1 then 0 else s.engine.scrollOffset + 1) ∧
          Requested [.ticker] s t ∧
          { t.engine with
            regions := s.engine.regions, scrollOffset := s.engine.scrollOffset
            scrollCount := s.engine.scrollCount } = s.engine ∧
          { t with engine := s.engine } = s)) ∧
    (let drawn : Bool := match s.engine.inForce .stations with
       | none => false
       | some r =>
         let w := r.rect.width
         let k := s.layout.enabledStations.length
         ((s.layout.enabledStations.map s.lamp).take (min k (w / max 2 (w / k)))).any fun l => l.flashing
     ∃ t, exec .flashToggle s = .next t ∧ t.engine.flashOn = !s.engine.flashOn ∧
       Requested ((if drawn then [.stations] else []) ++ if s.tracker.xstop.taken then [.banner] else []) s t ∧
       { t.engine with regions := s.engine.regions, flashOn := s.engine.flashOn } = s.engine ∧
       { t with engine := s.engine } = s)

/-! ### The tile chain (c11) -/

/-- A tile's return at the end of its portion: PRESENT at once, ABSENT at the third missing return, disabled tiles
untouched, and the next portion begins, whatever was sent of the one before; the sequential start counts to 10, at
once where its interval is 0 (R171 to R173; log 15, and log 31 for a return before the 256th pixel and the portion
in flight at RESTART TILES with TST 0). -/
def Obligations.TileReturnsAndStartCountFollowTheChain : Prop :=
  ∀ (i : Fin 30) (present : Bool) (s : State), s.inReset = false → s.Quiet →
    (∃ t, exec (.presenceReturn i present) s = .next t ∧
      (i.val / 3 < s.tiles.startCount →
        t.tiles.tiles.at_ i =
          let p := s.tiles.tiles.at_ i
          if present then ⟨false, 0⟩ else if p.miss < 2 then ⟨p.absent, p.miss + 1⟩ else ⟨true, 3⟩) ∧
      (s.tiles.startCount ≤ i.val / 3 → t.tiles.tiles.at_ i = s.tiles.tiles.at_ i) ∧
      (∀ j, j ≠ i → t.tiles.tiles.at_ j = s.tiles.tiles.at_ j) ∧
      t.tiles.portion =
        { tile := i + 1, intensity := s.tiles.actual
          lit := decide ((i + 1 : Fin 30).val / 3 < s.tiles.startCount), pixels := t.tiles.portion.pixels
          sent := 0, levels := ⟨0, 0, 0⟩ } ∧
      (∀ n < 256,
        let a := 160 * (16 * ((i + 1 : Fin 30).val % 3) + n / 16) + (16 * ((i + 1 : Fin 30).val / 3) + n % 16)
        t.tiles.portion.pixels.read a = s.frame.pixels.read a) ∧
      { t.tiles with tiles := s.tiles.tiles, portion := s.tiles.portion } = s.tiles ∧
      { t with tiles := s.tiles } = s) ∧
    exec .startTimerExpiry s =
      .next { s with tiles := { s.tiles with
        startCount := if s.tiles.startCount < 10 then s.tiles.startCount + 1 else s.tiles.startCount } } ∧
    (s.plant.transaction = .ready →
      ∃ t, exec .restartTiles s = .next t ∧
        t.tiles =
          { s.tiles with
            startCount := if s.straps.tst = 0 then 10 else 0
            portion := { s.tiles.portion with lit := s.tiles.portion.lit && decide (s.straps.tst = 0) } } ∧
        t.plant = s.plant.linked.answered .ok ∧
        { t with tiles := s.tiles, plant := s.plant, engine := s.engine } = s ∧
        RequestedOnly s.plantLinkRoles s t)

/-- SET INTENSITY stores its fields or refuses a ramp code above 5, and each ramp expiry moves the actual intensity
one step toward the effective target, down every fourth expiry under the asymmetric flag (R174, R175). -/
def Obligations.IntensityIsSetAndRampsTowardTarget : Prop :=
  ∀ (tg rc fl : Byte) (s : State), s.inReset = false → s.Quiet →
    (s.plant.transaction = .arguments .setIntensity →
      (5 < rc.toNat → exec (.setIntensity tg rc fl) s = .next { s with plant := s.plant.answered .range }) ∧
      (rc.toNat ≤ 5 →
        let alert := (s.alert.causes.level3 && s.alert.mask.level3) ||
          (s.alert.causes.overrun && s.alert.mask.overrun) || (s.alert.causes.stall && s.alert.mask.stall)
        exec (.setIntensity tg rc fl) s =
          .next { s with
            plant := s.plant.answered .ok
            tiles := { s.tiles with
              target := min 63 tg.toNat
              rampCode := rc.toNat
              asymmetric := fl.getLsbD 0
              override := fl.getLsbD 1
              decreaseCount := 0
              actual :=
                if rc.toNat = 0 then if fl.getLsbD 1 && alert then 63 else min 63 tg.toNat
                else s.tiles.actual } })) ∧
    (let d := s.tiles
     let target := if d.override && ((s.alert.causes.level3 && s.alert.mask.level3) ||
         (s.alert.causes.overrun && s.alert.mask.overrun) || (s.alert.causes.stall && s.alert.mask.stall))
       then 63 else d.target
     s.effectiveTarget = target ∧
     let moved (actual count : Nat) : Prop :=
       exec .rampExpiry s = .next { s with tiles := { d with actual := actual, decreaseCount := count } }
     (d.rampCode = 0 → moved d.actual d.decreaseCount) ∧
     (d.rampCode ≠ 0 → d.actual < target → moved (d.actual + 1) 0) ∧
     (d.rampCode ≠ 0 → d.actual = target → moved d.actual 0) ∧
     (d.rampCode ≠ 0 → target < d.actual → d.asymmetric = false → moved (d.actual - 1) 0) ∧
     (d.rampCode ≠ 0 → target < d.actual → d.asymmetric = true → d.decreaseCount < 3 →
       moved d.actual (d.decreaseCount + 1)) ∧
     (d.rampCode ≠ 0 → target < d.actual → d.asymmetric = true → 3 ≤ d.decreaseCount → moved (d.actual - 1) 0))

end
end

