-- ==== Sys2Proof/Laws/State.lean ====
section
/-! SUPPORT. What each update of one block leaves unchanged and what it puts there: one lemma an update, its
conjuncts true by rfl, so that no proof unfolds a record update. -/

namespace Sys2Proof.Machine

variable (s : State)

@[simp] theorem onCalls_fields (f : CallList → CallList) :
      (s.onCalls f).conditions = s.conditions ∧
      (s.onCalls f).straps = s.straps ∧
      (s.onCalls f).pitch = s.pitch ∧
      (s.onCalls f).layout = s.layout ∧
      (s.onCalls f).stations = s.stations ∧
      (s.onCalls f).tracker = s.tracker ∧
      (s.onCalls f).callList = f s.callList ∧
      (s.onCalls f).timer = s.timer ∧
      (s.onCalls f).pace = s.pace ∧
      (s.onCalls f).loss = s.loss ∧
      (s.onCalls f).archive = s.archive ∧
      (s.onCalls f).history = s.history ∧
      (s.onCalls f).line = s.line ∧
      (s.onCalls f).plant = s.plant ∧
      (s.onCalls f).frame = s.frame ∧
      (s.onCalls f).engine = s.engine ∧
      (s.onCalls f).tiles = s.tiles ∧
      (s.onCalls f).alert = s.alert ∧
      (s.onCalls f).pending = s.pending :=
    ⟨rfl, rfl, rfl, rfl, rfl, rfl, rfl, rfl, rfl, rfl, rfl, rfl, rfl, rfl, rfl, rfl, rfl, rfl, rfl⟩

@[simp] theorem onTimer_fields (f : ShiftTimer → ShiftTimer) :
      (s.onTimer f).conditions = s.conditions ∧
      (s.onTimer f).straps = s.straps ∧
      (s.onTimer f).pitch = s.pitch ∧
      (s.onTimer f).layout = s.layout ∧
      (s.onTimer f).stations = s.stations ∧
      (s.onTimer f).tracker = s.tracker ∧
      (s.onTimer f).callList = s.callList ∧
      (s.onTimer f).timer = f s.timer ∧
      (s.onTimer f).pace = s.pace ∧
      (s.onTimer f).loss = s.loss ∧
      (s.onTimer f).archive = s.archive ∧
      (s.onTimer f).history = s.history ∧
      (s.onTimer f).line = s.line ∧
      (s.onTimer f).plant = s.plant ∧
      (s.onTimer f).frame = s.frame ∧
      (s.onTimer f).engine = s.engine ∧
      (s.onTimer f).tiles = s.tiles ∧
      (s.onTimer f).alert = s.alert ∧
      (s.onTimer f).pending = s.pending :=
    ⟨rfl, rfl, rfl, rfl, rfl, rfl, rfl, rfl, rfl, rfl, rfl, rfl, rfl, rfl, rfl, rfl, rfl, rfl, rfl⟩

@[simp] theorem onPace_fields (f : PaceUnit → PaceUnit) :
      (s.onPace f).conditions = s.conditions ∧
      (s.onPace f).straps = s.straps ∧
      (s.onPace f).pitch = s.pitch ∧
      (s.onPace f).layout = s.layout ∧
      (s.onPace f).stations = s.stations ∧
      (s.onPace f).tracker = s.tracker ∧
      (s.onPace f).callList = s.callList ∧
      (s.onPace f).timer = s.timer ∧
      (s.onPace f).pace = f s.pace ∧
      (s.onPace f).loss = s.loss ∧
      (s.onPace f).archive = s.archive ∧
      (s.onPace f).history = s.history ∧
      (s.onPace f).line = s.line ∧
      (s.onPace f).plant = s.plant ∧
      (s.onPace f).frame = s.frame ∧
      (s.onPace f).engine = s.engine ∧
      (s.onPace f).tiles = s.tiles ∧
      (s.onPace f).alert = s.alert ∧
      (s.onPace f).pending = s.pending :=
    ⟨rfl, rfl, rfl, rfl, rfl, rfl, rfl, rfl, rfl, rfl, rfl, rfl, rfl, rfl, rfl, rfl, rfl, rfl, rfl⟩

@[simp] theorem onLoss_fields (f : Loss → Loss) :
      (s.onLoss f).conditions = s.conditions ∧
      (s.onLoss f).straps = s.straps ∧
      (s.onLoss f).pitch = s.pitch ∧
      (s.onLoss f).layout = s.layout ∧
      (s.onLoss f).stations = s.stations ∧
      (s.onLoss f).tracker = s.tracker ∧
      (s.onLoss f).callList = s.callList ∧
      (s.onLoss f).timer = s.timer ∧
      (s.onLoss f).pace = s.pace ∧
      (s.onLoss f).loss = f s.loss ∧
      (s.onLoss f).archive = s.archive ∧
      (s.onLoss f).history = s.history ∧
      (s.onLoss f).line = s.line ∧
      (s.onLoss f).plant = s.plant ∧
      (s.onLoss f).frame = s.frame ∧
      (s.onLoss f).engine = s.engine ∧
      (s.onLoss f).tiles = s.tiles ∧
      (s.onLoss f).alert = s.alert ∧
      (s.onLoss f).pending = s.pending :=
    ⟨rfl, rfl, rfl, rfl, rfl, rfl, rfl, rfl, rfl, rfl, rfl, rfl, rfl, rfl, rfl, rfl, rfl, rfl, rfl⟩

@[simp] theorem onArchive_fields (f : Archive → Archive) :
      (s.onArchive f).conditions = s.conditions ∧
      (s.onArchive f).straps = s.straps ∧
      (s.onArchive f).pitch = s.pitch ∧
      (s.onArchive f).layout = s.layout ∧
      (s.onArchive f).stations = s.stations ∧
      (s.onArchive f).tracker = s.tracker ∧
      (s.onArchive f).callList = s.callList ∧
      (s.onArchive f).timer = s.timer ∧
      (s.onArchive f).pace = s.pace ∧
      (s.onArchive f).loss = s.loss ∧
      (s.onArchive f).archive = f s.archive ∧
      (s.onArchive f).history = s.history ∧
      (s.onArchive f).line = s.line ∧
      (s.onArchive f).plant = s.plant ∧
      (s.onArchive f).frame = s.frame ∧
      (s.onArchive f).engine = s.engine ∧
      (s.onArchive f).tiles = s.tiles ∧
      (s.onArchive f).alert = s.alert ∧
      (s.onArchive f).pending = s.pending :=
    ⟨rfl, rfl, rfl, rfl, rfl, rfl, rfl, rfl, rfl, rfl, rfl, rfl, rfl, rfl, rfl, rfl, rfl, rfl, rfl⟩

@[simp] theorem onLine_fields (f : LinePort → LinePort) :
      (s.onLine f).conditions = s.conditions ∧
      (s.onLine f).straps = s.straps ∧
      (s.onLine f).pitch = s.pitch ∧
      (s.onLine f).layout = s.layout ∧
      (s.onLine f).stations = s.stations ∧
      (s.onLine f).tracker = s.tracker ∧
      (s.onLine f).callList = s.callList ∧
      (s.onLine f).timer = s.timer ∧
      (s.onLine f).pace = s.pace ∧
      (s.onLine f).loss = s.loss ∧
      (s.onLine f).archive = s.archive ∧
      (s.onLine f).history = s.history ∧
      (s.onLine f).line = f s.line ∧
      (s.onLine f).plant = s.plant ∧
      (s.onLine f).frame = s.frame ∧
      (s.onLine f).engine = s.engine ∧
      (s.onLine f).tiles = s.tiles ∧
      (s.onLine f).alert = s.alert ∧
      (s.onLine f).pending = s.pending :=
    ⟨rfl, rfl, rfl, rfl, rfl, rfl, rfl, rfl, rfl, rfl, rfl, rfl, rfl, rfl, rfl, rfl, rfl, rfl, rfl⟩

@[simp] theorem onPlant_fields (f : PlantPort → PlantPort) :
      (s.onPlant f).conditions = s.conditions ∧
      (s.onPlant f).straps = s.straps ∧
      (s.onPlant f).pitch = s.pitch ∧
      (s.onPlant f).layout = s.layout ∧
      (s.onPlant f).stations = s.stations ∧
      (s.onPlant f).tracker = s.tracker ∧
      (s.onPlant f).callList = s.callList ∧
      (s.onPlant f).timer = s.timer ∧
      (s.onPlant f).pace = s.pace ∧
      (s.onPlant f).loss = s.loss ∧
      (s.onPlant f).archive = s.archive ∧
      (s.onPlant f).history = s.history ∧
      (s.onPlant f).line = s.line ∧
      (s.onPlant f).plant = f s.plant ∧
      (s.onPlant f).frame = s.frame ∧
      (s.onPlant f).engine = s.engine ∧
      (s.onPlant f).tiles = s.tiles ∧
      (s.onPlant f).alert = s.alert ∧
      (s.onPlant f).pending = s.pending :=
    ⟨rfl, rfl, rfl, rfl, rfl, rfl, rfl, rfl, rfl, rfl, rfl, rfl, rfl, rfl, rfl, rfl, rfl, rfl, rfl⟩

@[simp] theorem onFrame_fields (f : FrameStore → FrameStore) :
      (s.onFrame f).conditions = s.conditions ∧
      (s.onFrame f).straps = s.straps ∧
      (s.onFrame f).pitch = s.pitch ∧
      (s.onFrame f).layout = s.layout ∧
      (s.onFrame f).stations = s.stations ∧
      (s.onFrame f).tracker = s.tracker ∧
      (s.onFrame f).callList = s.callList ∧
      (s.onFrame f).timer = s.timer ∧
      (s.onFrame f).pace = s.pace ∧
      (s.onFrame f).loss = s.loss ∧
      (s.onFrame f).archive = s.archive ∧
      (s.onFrame f).history = s.history ∧
      (s.onFrame f).line = s.line ∧
      (s.onFrame f).plant = s.plant ∧
      (s.onFrame f).frame = f s.frame ∧
      (s.onFrame f).engine = s.engine ∧
      (s.onFrame f).tiles = s.tiles ∧
      (s.onFrame f).alert = s.alert ∧
      (s.onFrame f).pending = s.pending :=
    ⟨rfl, rfl, rfl, rfl, rfl, rfl, rfl, rfl, rfl, rfl, rfl, rfl, rfl, rfl, rfl, rfl, rfl, rfl, rfl⟩

@[simp] theorem onEngine_fields (f : Engine → Engine) :
      (s.onEngine f).conditions = s.conditions ∧
      (s.onEngine f).straps = s.straps ∧
      (s.onEngine f).pitch = s.pitch ∧
      (s.onEngine f).layout = s.layout ∧
      (s.onEngine f).stations = s.stations ∧
      (s.onEngine f).tracker = s.tracker ∧
      (s.onEngine f).callList = s.callList ∧
      (s.onEngine f).timer = s.timer ∧
      (s.onEngine f).pace = s.pace ∧
      (s.onEngine f).loss = s.loss ∧
      (s.onEngine f).archive = s.archive ∧
      (s.onEngine f).history = s.history ∧
      (s.onEngine f).line = s.line ∧
      (s.onEngine f).plant = s.plant ∧
      (s.onEngine f).frame = s.frame ∧
      (s.onEngine f).engine = f s.engine ∧
      (s.onEngine f).tiles = s.tiles ∧
      (s.onEngine f).alert = s.alert ∧
      (s.onEngine f).pending = s.pending :=
    ⟨rfl, rfl, rfl, rfl, rfl, rfl, rfl, rfl, rfl, rfl, rfl, rfl, rfl, rfl, rfl, rfl, rfl, rfl, rfl⟩

@[simp] theorem onTiles_fields (f : TileDriver → TileDriver) :
      (s.onTiles f).conditions = s.conditions ∧
      (s.onTiles f).straps = s.straps ∧
      (s.onTiles f).pitch = s.pitch ∧
      (s.onTiles f).layout = s.layout ∧
      (s.onTiles f).stations = s.stations ∧
      (s.onTiles f).tracker = s.tracker ∧
      (s.onTiles f).callList = s.callList ∧
      (s.onTiles f).timer = s.timer ∧
      (s.onTiles f).pace = s.pace ∧
      (s.onTiles f).loss = s.loss ∧
      (s.onTiles f).archive = s.archive ∧
      (s.onTiles f).history = s.history ∧
      (s.onTiles f).line = s.line ∧
      (s.onTiles f).plant = s.plant ∧
      (s.onTiles f).frame = s.frame ∧
      (s.onTiles f).engine = s.engine ∧
      (s.onTiles f).tiles = f s.tiles ∧
      (s.onTiles f).alert = s.alert ∧
      (s.onTiles f).pending = s.pending :=
    ⟨rfl, rfl, rfl, rfl, rfl, rfl, rfl, rfl, rfl, rfl, rfl, rfl, rfl, rfl, rfl, rfl, rfl, rfl, rfl⟩

@[simp] theorem onAlert_fields (f : AlertLogic → AlertLogic) :
      (s.onAlert f).conditions = s.conditions ∧
      (s.onAlert f).straps = s.straps ∧
      (s.onAlert f).pitch = s.pitch ∧
      (s.onAlert f).layout = s.layout ∧
      (s.onAlert f).stations = s.stations ∧
      (s.onAlert f).tracker = s.tracker ∧
      (s.onAlert f).callList = s.callList ∧
      (s.onAlert f).timer = s.timer ∧
      (s.onAlert f).pace = s.pace ∧
      (s.onAlert f).loss = s.loss ∧
      (s.onAlert f).archive = s.archive ∧
      (s.onAlert f).history = s.history ∧
      (s.onAlert f).line = s.line ∧
      (s.onAlert f).plant = s.plant ∧
      (s.onAlert f).frame = s.frame ∧
      (s.onAlert f).engine = s.engine ∧
      (s.onAlert f).tiles = s.tiles ∧
      (s.onAlert f).alert = f s.alert ∧
      (s.onAlert f).pending = s.pending :=
    ⟨rfl, rfl, rfl, rfl, rfl, rfl, rfl, rfl, rfl, rfl, rfl, rfl, rfl, rfl, rfl, rfl, rfl, rfl, rfl⟩

@[simp] theorem onZone_fields (k : Fin 6) (f : ZoneState → ZoneState) :
      (s.onZone k f).conditions = s.conditions ∧
      (s.onZone k f).straps = s.straps ∧
      (s.onZone k f).pitch = s.pitch ∧
      (s.onZone k f).layout = s.layout ∧
      (s.onZone k f).stations = s.stations ∧
      (s.onZone k f).tracker = { s.tracker with zones := s.tracker.zones.upd k f } ∧
      (s.onZone k f).callList = s.callList ∧
      (s.onZone k f).timer = s.timer ∧
      (s.onZone k f).pace = s.pace ∧
      (s.onZone k f).loss = s.loss ∧
      (s.onZone k f).archive = s.archive ∧
      (s.onZone k f).history = s.history ∧
      (s.onZone k f).line = s.line ∧
      (s.onZone k f).plant = s.plant ∧
      (s.onZone k f).frame = s.frame ∧
      (s.onZone k f).engine = s.engine ∧
      (s.onZone k f).tiles = s.tiles ∧
      (s.onZone k f).alert = s.alert ∧
      (s.onZone k f).pending = s.pending :=
    ⟨rfl, rfl, rfl, rfl, rfl, rfl, rfl, rfl, rfl, rfl, rfl, rfl, rfl, rfl, rfl, rfl, rfl, rfl, rfl⟩

@[simp] theorem onBuffer_fields (k : Fin 5) (f : Buffer → Buffer) :
      (s.onBuffer k f).conditions = s.conditions ∧
      (s.onBuffer k f).straps = s.straps ∧
      (s.onBuffer k f).pitch = s.pitch ∧
      (s.onBuffer k f).layout = s.layout ∧
      (s.onBuffer k f).stations = s.stations ∧
      (s.onBuffer k f).tracker = { s.tracker with buffers := s.tracker.buffers.upd k f } ∧
      (s.onBuffer k f).callList = s.callList ∧
      (s.onBuffer k f).timer = s.timer ∧
      (s.onBuffer k f).pace = s.pace ∧
      (s.onBuffer k f).loss = s.loss ∧
      (s.onBuffer k f).archive = s.archive ∧
      (s.onBuffer k f).history = s.history ∧
      (s.onBuffer k f).line = s.line ∧
      (s.onBuffer k f).plant = s.plant ∧
      (s.onBuffer k f).frame = s.frame ∧
      (s.onBuffer k f).engine = s.engine ∧
      (s.onBuffer k f).tiles = s.tiles ∧
      (s.onBuffer k f).alert = s.alert ∧
      (s.onBuffer k f).pending = s.pending :=
    ⟨rfl, rfl, rfl, rfl, rfl, rfl, rfl, rfl, rfl, rfl, rfl, rfl, rfl, rfl, rfl, rfl, rfl, rfl, rfl⟩

@[simp] theorem onPitch_fields (k : Fin 6) (f : PinFilter → PinFilter) :
      (s.onPitch k f).conditions = s.conditions ∧
      (s.onPitch k f).straps = s.straps ∧
      (s.onPitch k f).pitch = s.pitch.upd k f ∧
      (s.onPitch k f).layout = s.layout ∧
      (s.onPitch k f).stations = s.stations ∧
      (s.onPitch k f).tracker = s.tracker ∧
      (s.onPitch k f).callList = s.callList ∧
      (s.onPitch k f).timer = s.timer ∧
      (s.onPitch k f).pace = s.pace ∧
      (s.onPitch k f).loss = s.loss ∧
      (s.onPitch k f).archive = s.archive ∧
      (s.onPitch k f).history = s.history ∧
      (s.onPitch k f).line = s.line ∧
      (s.onPitch k f).plant = s.plant ∧
      (s.onPitch k f).frame = s.frame ∧
      (s.onPitch k f).engine = s.engine ∧
      (s.onPitch k f).tiles = s.tiles ∧
      (s.onPitch k f).alert = s.alert ∧
      (s.onPitch k f).pending = s.pending :=
    ⟨rfl, rfl, rfl, rfl, rfl, rfl, rfl, rfl, rfl, rfl, rfl, rfl, rfl, rfl, rfl, rfl, rfl, rfl, rfl⟩

@[simp] theorem onStation_fields (st : Fin 48) (f : StationRecord → StationRecord) :
      (s.onStation st f).conditions = s.conditions ∧
      (s.onStation st f).straps = s.straps ∧
      (s.onStation st f).pitch = s.pitch ∧
      (s.onStation st f).layout = s.layout ∧
      (s.onStation st f).stations = s.stations.upd st f ∧
      (s.onStation st f).tracker = s.tracker ∧
      (s.onStation st f).callList = s.callList ∧
      (s.onStation st f).timer = s.timer ∧
      (s.onStation st f).pace = s.pace ∧
      (s.onStation st f).loss = s.loss ∧
      (s.onStation st f).archive = s.archive ∧
      (s.onStation st f).history = s.history ∧
      (s.onStation st f).line = s.line ∧
      (s.onStation st f).plant = s.plant ∧
      (s.onStation st f).frame = s.frame ∧
      (s.onStation st f).engine = s.engine ∧
      (s.onStation st f).tiles = s.tiles ∧
      (s.onStation st f).alert = s.alert ∧
      (s.onStation st f).pending = s.pending :=
    ⟨rfl, rfl, rfl, rfl, rfl, rfl, rfl, rfl, rfl, rfl, rfl, rfl, rfl, rfl, rfl, rfl, rfl, rfl, rfl⟩

@[simp] theorem raise_fields (r : Role) :
      (s.raise r).conditions = s.conditions ∧
      (s.raise r).straps = s.straps ∧
      (s.raise r).pitch = s.pitch ∧
      (s.raise r).layout = s.layout ∧
      (s.raise r).stations = s.stations ∧
      (s.raise r).tracker = s.tracker ∧
      (s.raise r).callList = s.callList ∧
      (s.raise r).timer = s.timer ∧
      (s.raise r).pace = s.pace ∧
      (s.raise r).loss = s.loss ∧
      (s.raise r).archive = s.archive ∧
      (s.raise r).history = s.history ∧
      (s.raise r).line = s.line ∧
      (s.raise r).plant = s.plant ∧
      (s.raise r).frame = s.frame ∧
      (s.raise r).engine = { s.engine with requests := s.engine.requests.add r } ∧
      (s.raise r).tiles = s.tiles ∧
      (s.raise r).alert = s.alert ∧
      (s.raise r).pending = s.pending :=
    ⟨rfl, rfl, rfl, rfl, rfl, rfl, rfl, rfl, rfl, rfl, rfl, rfl, rfl, rfl, rfl, rfl, rfl, rfl, rfl⟩

@[simp] theorem setTransaction_fields (x : Transaction) :
      (setTransaction x s).conditions = s.conditions ∧
      (setTransaction x s).straps = s.straps ∧
      (setTransaction x s).pitch = s.pitch ∧
      (setTransaction x s).layout = s.layout ∧
      (setTransaction x s).stations = s.stations ∧
      (setTransaction x s).tracker = s.tracker ∧
      (setTransaction x s).callList = s.callList ∧
      (setTransaction x s).timer = s.timer ∧
      (setTransaction x s).pace = s.pace ∧
      (setTransaction x s).loss = s.loss ∧
      (setTransaction x s).archive = s.archive ∧
      (setTransaction x s).history = s.history ∧
      (setTransaction x s).line = s.line ∧
      (setTransaction x s).plant = { s.plant with transaction := x } ∧
      (setTransaction x s).frame = s.frame ∧
      (setTransaction x s).engine = s.engine ∧
      (setTransaction x s).tiles = s.tiles ∧
      (setTransaction x s).alert = s.alert ∧
      (setTransaction x s).pending = s.pending :=
    ⟨rfl, rfl, rfl, rfl, rfl, rfl, rfl, rfl, rfl, rfl, rfl, rfl, rfl, rfl, rfl, rfl, rfl, rfl, rfl⟩

@[simp] theorem setPlantResult_fields (r : PlantResult) :
      (setPlantResult r s).conditions = s.conditions ∧
      (setPlantResult r s).straps = s.straps ∧
      (setPlantResult r s).pitch = s.pitch ∧
      (setPlantResult r s).layout = s.layout ∧
      (setPlantResult r s).stations = s.stations ∧
      (setPlantResult r s).tracker = s.tracker ∧
      (setPlantResult r s).callList = s.callList ∧
      (setPlantResult r s).timer = s.timer ∧
      (setPlantResult r s).pace = s.pace ∧
      (setPlantResult r s).loss = s.loss ∧
      (setPlantResult r s).archive = s.archive ∧
      (setPlantResult r s).history = s.history ∧
      (setPlantResult r s).line = s.line ∧
      (setPlantResult r s).plant = { s.plant with lastResult := r } ∧
      (setPlantResult r s).frame = s.frame ∧
      (setPlantResult r s).engine = s.engine ∧
      (setPlantResult r s).tiles = s.tiles ∧
      (setPlantResult r s).alert = s.alert ∧
      (setPlantResult r s).pending = s.pending :=
    ⟨rfl, rfl, rfl, rfl, rfl, rfl, rfl, rfl, rfl, rfl, rfl, rfl, rfl, rfl, rfl, rfl, rfl, rfl, rfl⟩

@[simp] theorem setCorrection_fields (c : Int) :
      (setCorrection c s).conditions = s.conditions ∧
      (setCorrection c s).straps = s.straps ∧
      (setCorrection c s).pitch = s.pitch ∧
      (setCorrection c s).layout = s.layout ∧
      (setCorrection c s).stations = s.stations ∧
      (setCorrection c s).tracker = s.tracker ∧
      (setCorrection c s).callList = s.callList ∧
      (setCorrection c s).timer = { s.timer with correction := c } ∧
      (setCorrection c s).pace = s.pace ∧
      (setCorrection c s).loss = s.loss ∧
      (setCorrection c s).archive = s.archive ∧
      (setCorrection c s).history = s.history ∧
      (setCorrection c s).line = s.line ∧
      (setCorrection c s).plant = s.plant ∧
      (setCorrection c s).frame = s.frame ∧
      (setCorrection c s).engine = s.engine ∧
      (setCorrection c s).tiles = s.tiles ∧
      (setCorrection c s).alert = s.alert ∧
      (setCorrection c s).pending = s.pending :=
    ⟨rfl, rfl, rfl, rfl, rfl, rfl, rfl, rfl, rfl, rfl, rfl, rfl, rfl, rfl, rfl, rfl, rfl, rfl, rfl⟩

end Sys2Proof.Machine
end

