-- ==== Sys2Proof/Laws/Frames.lean ====
section
/-! SUPPORT. What each shared operation leaves unchanged: one lemma an operation, cited in place of its
definition. -/

namespace Sys2Proof.Machine

variable (s : State)

/-- A conditional request changes the request latch alone. -/
@[simp] theorem raiseIf_engine (b : Bool) (r : Role) :
    (s.raiseIf b r).engine =
      { s.engine with requests := if b then s.engine.requests.add r else s.engine.requests } := by
  cases b <;> rfl

@[simp] theorem raiseIf_keeps (b : Bool) (r : Role) :
      (s.raiseIf b r).conditions = s.conditions ∧
      (s.raiseIf b r).straps = s.straps ∧
      (s.raiseIf b r).pitch = s.pitch ∧
      (s.raiseIf b r).layout = s.layout ∧
      (s.raiseIf b r).stations = s.stations ∧
      (s.raiseIf b r).tracker = s.tracker ∧
      (s.raiseIf b r).callList = s.callList ∧
      (s.raiseIf b r).timer = s.timer ∧
      (s.raiseIf b r).pace = s.pace ∧
      (s.raiseIf b r).loss = s.loss ∧
      (s.raiseIf b r).archive = s.archive ∧
      (s.raiseIf b r).history = s.history ∧
      (s.raiseIf b r).line = s.line ∧
      (s.raiseIf b r).plant = s.plant ∧
      (s.raiseIf b r).frame = s.frame ∧
      (s.raiseIf b r).tiles = s.tiles ∧
      (s.raiseIf b r).alert = s.alert ∧
      (s.raiseIf b r).pending = s.pending := by
  cases b <;> simp [State.raiseIf]

@[simp] theorem serve_keeps  :
      (serve s).conditions = s.conditions ∧
      (serve s).straps = s.straps ∧
      (serve s).pitch = s.pitch ∧
      (serve s).layout = s.layout ∧
      (serve s).stations = s.stations ∧
      (serve s).tracker = s.tracker ∧
      (serve s).callList = s.callList ∧
      (serve s).timer = s.timer ∧
      (serve s).pace = s.pace ∧
      (serve s).loss = s.loss ∧
      (serve s).archive = s.archive ∧
      (serve s).history = s.history ∧
      (serve s).line = s.line ∧
      (serve s).plant = s.plant ∧
      (serve s).frame = s.frame ∧
      (serve s).tiles = s.tiles ∧
      (serve s).alert = s.alert ∧
      (serve s).pending = s.pending := by
  simp [serve]

@[simp] theorem decideAlert_keeps (old : State) :
      (decideAlert old s).conditions = s.conditions ∧
      (decideAlert old s).straps = s.straps ∧
      (decideAlert old s).pitch = s.pitch ∧
      (decideAlert old s).layout = s.layout ∧
      (decideAlert old s).stations = s.stations ∧
      (decideAlert old s).tracker = s.tracker ∧
      (decideAlert old s).callList = s.callList ∧
      (decideAlert old s).timer = s.timer ∧
      (decideAlert old s).pace = s.pace ∧
      (decideAlert old s).loss = s.loss ∧
      (decideAlert old s).archive = s.archive ∧
      (decideAlert old s).history = s.history ∧
      (decideAlert old s).line = s.line ∧
      (decideAlert old s).plant = s.plant ∧
      (decideAlert old s).frame = s.frame ∧
      (decideAlert old s).engine = s.engine ∧
      (decideAlert old s).pending = s.pending := by
  unfold decideAlert; (try dsimp only); (repeat' split) <;> simp

@[simp] theorem rederive_keeps  :
      (rederive s).conditions = s.conditions ∧
      (rederive s).straps = s.straps ∧
      (rederive s).pitch = s.pitch ∧
      (rederive s).layout = s.layout ∧
      (rederive s).stations = s.stations ∧
      (rederive s).callList = s.callList ∧
      (rederive s).timer = s.timer ∧
      (rederive s).pace = s.pace ∧
      (rederive s).loss = s.loss ∧
      (rederive s).archive = s.archive ∧
      (rederive s).history = s.history ∧
      (rederive s).line = s.line ∧
      (rederive s).plant = s.plant ∧
      (rederive s).frame = s.frame ∧
      (rederive s).tiles = s.tiles ∧
      (rederive s).alert = s.alert ∧
      (rederive s).pending = s.pending := by
  unfold rederive; (try dsimp only); (repeat' split) <;> simp

@[simp] theorem requalify_keeps (old : State) :
      (requalify old s).conditions = s.conditions ∧
      (requalify old s).straps = s.straps ∧
      (requalify old s).pitch = s.pitch ∧
      (requalify old s).layout = s.layout ∧
      (requalify old s).stations = s.stations ∧
      (requalify old s).callList = s.callList ∧
      (requalify old s).timer = s.timer ∧
      (requalify old s).pace = s.pace ∧
      (requalify old s).loss = s.loss ∧
      (requalify old s).archive = s.archive ∧
      (requalify old s).history = s.history ∧
      (requalify old s).line = s.line ∧
      (requalify old s).plant = s.plant ∧
      (requalify old s).frame = s.frame ∧
      (requalify old s).tiles = s.tiles ∧
      (requalify old s).alert = s.alert ∧
      (requalify old s).pending = s.pending := by
  simp [requalify]

@[simp] theorem settleTracker_keeps (old : State) :
      (settleTracker old s).conditions = s.conditions ∧
      (settleTracker old s).straps = s.straps ∧
      (settleTracker old s).pitch = s.pitch ∧
      (settleTracker old s).layout = s.layout ∧
      (settleTracker old s).stations = s.stations ∧
      (settleTracker old s).callList = s.callList ∧
      (settleTracker old s).timer = s.timer ∧
      (settleTracker old s).pace = s.pace ∧
      (settleTracker old s).loss = s.loss ∧
      (settleTracker old s).archive = s.archive ∧
      (settleTracker old s).history = s.history ∧
      (settleTracker old s).line = s.line ∧
      (settleTracker old s).plant = s.plant ∧
      (settleTracker old s).frame = s.frame ∧
      (settleTracker old s).tiles = s.tiles ∧
      (settleTracker old s).alert = s.alert ∧
      (settleTracker old s).pending = s.pending := by
  simp [settleTracker]

@[simp] theorem handOn_keeps (old : State) :
      (handOn old s).conditions = s.conditions ∧
      (handOn old s).straps = s.straps ∧
      (handOn old s).pitch = s.pitch ∧
      (handOn old s).layout = s.layout ∧
      (handOn old s).stations = s.stations ∧
      (handOn old s).callList = s.callList ∧
      (handOn old s).timer = s.timer ∧
      (handOn old s).pace = s.pace ∧
      (handOn old s).loss = s.loss ∧
      (handOn old s).archive = s.archive ∧
      (handOn old s).history = s.history ∧
      (handOn old s).line = s.line ∧
      (handOn old s).plant = s.plant ∧
      (handOn old s).frame = s.frame ∧
      (handOn old s).tiles = s.tiles ∧
      (handOn old s).alert = s.alert ∧
      (handOn old s).pending = s.pending := by
  unfold handOn; (repeat' split) <;> simp

@[simp] theorem recompute_keeps  :
      (recompute s).conditions = s.conditions ∧
      (recompute s).straps = s.straps ∧
      (recompute s).pitch = s.pitch ∧
      (recompute s).layout = s.layout ∧
      (recompute s).stations = s.stations ∧
      (recompute s).tracker = s.tracker ∧
      (recompute s).callList = s.callList ∧
      (recompute s).timer = s.timer ∧
      (recompute s).loss = s.loss ∧
      (recompute s).archive = s.archive ∧
      (recompute s).history = s.history ∧
      (recompute s).line = s.line ∧
      (recompute s).plant = s.plant ∧
      (recompute s).frame = s.frame ∧
      (recompute s).tiles = s.tiles ∧
      (recompute s).alert = s.alert ∧
      (recompute s).pending = s.pending := by
  simp [recompute]

@[simp] theorem raiseLostCars_keeps (old : State) :
      (raiseLostCars old s).conditions = s.conditions ∧
      (raiseLostCars old s).straps = s.straps ∧
      (raiseLostCars old s).pitch = s.pitch ∧
      (raiseLostCars old s).layout = s.layout ∧
      (raiseLostCars old s).stations = s.stations ∧
      (raiseLostCars old s).tracker = s.tracker ∧
      (raiseLostCars old s).callList = s.callList ∧
      (raiseLostCars old s).timer = s.timer ∧
      (raiseLostCars old s).pace = s.pace ∧
      (raiseLostCars old s).loss = s.loss ∧
      (raiseLostCars old s).archive = s.archive ∧
      (raiseLostCars old s).history = s.history ∧
      (raiseLostCars old s).line = s.line ∧
      (raiseLostCars old s).plant = s.plant ∧
      (raiseLostCars old s).frame = s.frame ∧
      (raiseLostCars old s).tiles = s.tiles ∧
      (raiseLostCars old s).alert = s.alert ∧
      (raiseLostCars old s).pending = s.pending := by
  simp [raiseLostCars]

@[simp] theorem enterOvertime_keeps  :
      (enterOvertime s).conditions = s.conditions ∧
      (enterOvertime s).straps = s.straps ∧
      (enterOvertime s).pitch = s.pitch ∧
      (enterOvertime s).layout = s.layout ∧
      (enterOvertime s).stations = s.stations ∧
      (enterOvertime s).tracker = s.tracker ∧
      (enterOvertime s).callList = s.callList ∧
      (enterOvertime s).loss = s.loss ∧
      (enterOvertime s).archive = s.archive ∧
      (enterOvertime s).history = s.history ∧
      (enterOvertime s).line = s.line ∧
      (enterOvertime s).plant = s.plant ∧
      (enterOvertime s).frame = s.frame ∧
      (enterOvertime s).tiles = s.tiles ∧
      (enterOvertime s).alert = s.alert ∧
      (enterOvertime s).pending = s.pending := by
  simp [enterOvertime]

@[simp] theorem startClose_keeps (r : CloseReason) :
      (startClose r s).conditions = s.conditions ∧
      (startClose r s).straps = s.straps ∧
      (startClose r s).pitch = s.pitch ∧
      (startClose r s).layout = s.layout ∧
      (startClose r s).stations = s.stations ∧
      (startClose r s).tracker = s.tracker ∧
      (startClose r s).callList = s.callList ∧
      (startClose r s).pace = s.pace ∧
      (startClose r s).loss = s.loss ∧
      (startClose r s).history = s.history ∧
      (startClose r s).line = s.line ∧
      (startClose r s).frame = s.frame ∧
      (startClose r s).engine = s.engine ∧
      (startClose r s).tiles = s.tiles ∧
      (startClose r s).alert = s.alert ∧
      (startClose r s).pending = s.pending := by
  simp [startClose]

@[simp] theorem endOfShiftTest_keeps  :
      (endOfShiftTest s).conditions = s.conditions ∧
      (endOfShiftTest s).straps = s.straps ∧
      (endOfShiftTest s).pitch = s.pitch ∧
      (endOfShiftTest s).layout = s.layout ∧
      (endOfShiftTest s).stations = s.stations ∧
      (endOfShiftTest s).tracker = s.tracker ∧
      (endOfShiftTest s).callList = s.callList ∧
      (endOfShiftTest s).loss = s.loss ∧
      (endOfShiftTest s).history = s.history ∧
      (endOfShiftTest s).line = s.line ∧
      (endOfShiftTest s).frame = s.frame ∧
      (endOfShiftTest s).tiles = s.tiles ∧
      (endOfShiftTest s).alert = s.alert ∧
      (endOfShiftTest s).pending = s.pending := by
  unfold endOfShiftTest; (repeat' split) <;> simp

@[simp] theorem advanceEndTest_keeps  :
      (advanceEndTest s).conditions = s.conditions ∧
      (advanceEndTest s).straps = s.straps ∧
      (advanceEndTest s).pitch = s.pitch ∧
      (advanceEndTest s).layout = s.layout ∧
      (advanceEndTest s).stations = s.stations ∧
      (advanceEndTest s).tracker = s.tracker ∧
      (advanceEndTest s).callList = s.callList ∧
      (advanceEndTest s).loss = s.loss ∧
      (advanceEndTest s).history = s.history ∧
      (advanceEndTest s).line = s.line ∧
      (advanceEndTest s).frame = s.frame ∧
      (advanceEndTest s).tiles = s.tiles ∧
      (advanceEndTest s).alert = s.alert ∧
      (advanceEndTest s).pending = s.pending := by
  unfold advanceEndTest; (repeat' split) <;> simp

@[simp] theorem targetTest_keeps  :
      (targetTest s).conditions = s.conditions ∧
      (targetTest s).straps = s.straps ∧
      (targetTest s).pitch = s.pitch ∧
      (targetTest s).layout = s.layout ∧
      (targetTest s).stations = s.stations ∧
      (targetTest s).tracker = s.tracker ∧
      (targetTest s).callList = s.callList ∧
      (targetTest s).pace = s.pace ∧
      (targetTest s).loss = s.loss ∧
      (targetTest s).history = s.history ∧
      (targetTest s).line = s.line ∧
      (targetTest s).frame = s.frame ∧
      (targetTest s).engine = s.engine ∧
      (targetTest s).tiles = s.tiles ∧
      (targetTest s).alert = s.alert ∧
      (targetTest s).pending = s.pending := by
  unfold targetTest; (repeat' split) <;> simp

@[simp] theorem changeActual_keeps (a : Nat) :
      (changeActual a s).conditions = s.conditions ∧
      (changeActual a s).straps = s.straps ∧
      (changeActual a s).pitch = s.pitch ∧
      (changeActual a s).layout = s.layout ∧
      (changeActual a s).stations = s.stations ∧
      (changeActual a s).callList = s.callList ∧
      (changeActual a s).loss = s.loss ∧
      (changeActual a s).history = s.history ∧
      (changeActual a s).line = s.line ∧
      (changeActual a s).frame = s.frame ∧
      (changeActual a s).tiles = s.tiles ∧
      (changeActual a s).alert = s.alert ∧
      (changeActual a s).pending = s.pending := by
  unfold changeActual; (repeat' split) <;> simp

@[simp] theorem endOfLineCar_keeps  :
      (endOfLineCar s).conditions = s.conditions ∧
      (endOfLineCar s).straps = s.straps ∧
      (endOfLineCar s).pitch = s.pitch ∧
      (endOfLineCar s).layout = s.layout ∧
      (endOfLineCar s).stations = s.stations ∧
      (endOfLineCar s).callList = s.callList ∧
      (endOfLineCar s).loss = s.loss ∧
      (endOfLineCar s).history = s.history ∧
      (endOfLineCar s).line = s.line ∧
      (endOfLineCar s).frame = s.frame ∧
      (endOfLineCar s).tiles = s.tiles ∧
      (endOfLineCar s).alert = s.alert ∧
      (endOfLineCar s).pending = s.pending := by
  unfold endOfLineCar; (repeat' split) <;> simp

@[simp] theorem advanceClock_keeps  :
      (advanceClock s).conditions = s.conditions ∧
      (advanceClock s).straps = s.straps ∧
      (advanceClock s).pitch = s.pitch ∧
      (advanceClock s).layout = s.layout ∧
      (advanceClock s).stations = s.stations ∧
      (advanceClock s).tracker = s.tracker ∧
      (advanceClock s).callList = s.callList ∧
      (advanceClock s).pace = s.pace ∧
      (advanceClock s).loss = s.loss ∧
      (advanceClock s).archive = s.archive ∧
      (advanceClock s).history = s.history ∧
      (advanceClock s).line = s.line ∧
      (advanceClock s).plant = s.plant ∧
      (advanceClock s).frame = s.frame ∧
      (advanceClock s).tiles = s.tiles ∧
      (advanceClock s).alert = s.alert ∧
      (advanceClock s).pending = s.pending := by
  simp [advanceClock]

@[simp] theorem chargeSecond_keeps  :
      (chargeSecond s).conditions = s.conditions ∧
      (chargeSecond s).straps = s.straps ∧
      (chargeSecond s).pitch = s.pitch ∧
      (chargeSecond s).layout = s.layout ∧
      (chargeSecond s).tracker = s.tracker ∧
      (chargeSecond s).callList = s.callList ∧
      (chargeSecond s).timer = s.timer ∧
      (chargeSecond s).pace = s.pace ∧
      (chargeSecond s).archive = s.archive ∧
      (chargeSecond s).history = s.history ∧
      (chargeSecond s).line = s.line ∧
      (chargeSecond s).plant = s.plant ∧
      (chargeSecond s).frame = s.frame ∧
      (chargeSecond s).engine = s.engine ∧
      (chargeSecond s).tiles = s.tiles ∧
      (chargeSecond s).alert = s.alert ∧
      (chargeSecond s).pending = s.pending := by
  simp [chargeSecond]

@[simp] theorem productiveSecond_keeps  :
      (productiveSecond s).conditions = s.conditions ∧
      (productiveSecond s).straps = s.straps ∧
      (productiveSecond s).pitch = s.pitch ∧
      (productiveSecond s).layout = s.layout ∧
      (productiveSecond s).tracker = s.tracker ∧
      (productiveSecond s).callList = s.callList ∧
      (productiveSecond s).archive = s.archive ∧
      (productiveSecond s).history = s.history ∧
      (productiveSecond s).line = s.line ∧
      (productiveSecond s).plant = s.plant ∧
      (productiveSecond s).frame = s.frame ∧
      (productiveSecond s).tiles = s.tiles ∧
      (productiveSecond s).alert = s.alert ∧
      (productiveSecond s).pending = s.pending := by
  simp [productiveSecond]

@[simp] theorem advance_keeps  :
      (advance s).conditions = s.conditions ∧
      (advance s).straps = s.straps ∧
      (advance s).pitch = s.pitch ∧
      (advance s).layout = s.layout ∧
      (advance s).callList = s.callList ∧
      (advance s).history = s.history ∧
      (advance s).line = s.line ∧
      (advance s).frame = s.frame ∧
      (advance s).tiles = s.tiles ∧
      (advance s).alert = s.alert ∧
      (advance s).pending = s.pending := by
  unfold advance; split <;> simp

@[simp] theorem advanceIfOpen_keeps  :
      (advanceIfOpen s).conditions = s.conditions ∧
      (advanceIfOpen s).straps = s.straps ∧
      (advanceIfOpen s).pitch = s.pitch ∧
      (advanceIfOpen s).layout = s.layout ∧
      (advanceIfOpen s).callList = s.callList ∧
      (advanceIfOpen s).history = s.history ∧
      (advanceIfOpen s).line = s.line ∧
      (advanceIfOpen s).frame = s.frame ∧
      (advanceIfOpen s).tiles = s.tiles ∧
      (advanceIfOpen s).alert = s.alert ∧
      (advanceIfOpen s).pending = s.pending := by
  unfold advanceIfOpen; (repeat' split) <;> simp

@[simp] theorem shiftSecond_keeps  :
      (shiftSecond s).conditions = s.conditions ∧
      (shiftSecond s).straps = s.straps ∧
      (shiftSecond s).pitch = s.pitch ∧
      (shiftSecond s).layout = s.layout ∧
      (shiftSecond s).callList = s.callList ∧
      (shiftSecond s).history = s.history ∧
      (shiftSecond s).line = s.line ∧
      (shiftSecond s).frame = s.frame ∧
      (shiftSecond s).tiles = s.tiles ∧
      (shiftSecond s).alert = s.alert ∧
      (shiftSecond s).pending = s.pending := by
  unfold shiftSecond; (repeat' split) <;> simp

@[simp] theorem openShift_keeps (p : Plan) (n o : Nat) :
      (openShift p n o s).conditions = s.conditions ∧
      (openShift p n o s).straps = s.straps ∧
      (openShift p n o s).pitch = s.pitch ∧
      (openShift p n o s).layout = s.layout ∧
      (openShift p n o s).tracker = s.tracker ∧
      (openShift p n o s).callList = s.callList ∧
      (openShift p n o s).archive = s.archive ∧
      (openShift p n o s).history = s.history ∧
      (openShift p n o s).line = s.line ∧
      (openShift p n o s).plant = s.plant ∧
      (openShift p n o s).frame = s.frame ∧
      (openShift p n o s).tiles = s.tiles ∧
      (openShift p n o s).alert = s.alert ∧
      (openShift p n o s).pending = s.pending := by
  simp [openShift]

@[simp] theorem applyTimeMark_keeps (n o : Nat) :
      ((applyTimeMark n o s).1).conditions = s.conditions ∧
      ((applyTimeMark n o s).1).straps = s.straps ∧
      ((applyTimeMark n o s).1).pitch = s.pitch ∧
      ((applyTimeMark n o s).1).layout = s.layout ∧
      ((applyTimeMark n o s).1).stations = s.stations ∧
      ((applyTimeMark n o s).1).tracker = s.tracker ∧
      ((applyTimeMark n o s).1).callList = s.callList ∧
      ((applyTimeMark n o s).1).pace = s.pace ∧
      ((applyTimeMark n o s).1).loss = s.loss ∧
      ((applyTimeMark n o s).1).archive = s.archive ∧
      ((applyTimeMark n o s).1).history = s.history ∧
      ((applyTimeMark n o s).1).line = s.line ∧
      ((applyTimeMark n o s).1).plant = s.plant ∧
      ((applyTimeMark n o s).1).frame = s.frame ∧
      ((applyTimeMark n o s).1).engine = s.engine ∧
      ((applyTimeMark n o s).1).tiles = s.tiles ∧
      ((applyTimeMark n o s).1).alert = s.alert ∧
      ((applyTimeMark n o s).1).pending = s.pending := by
  unfold applyTimeMark; (repeat' split) <;> simp

@[simp] theorem holdStart_keeps (n o : Nat) :
      (holdStart n o s).conditions = s.conditions ∧
      (holdStart n o s).straps = s.straps ∧
      (holdStart n o s).pitch = s.pitch ∧
      (holdStart n o s).layout = s.layout ∧
      (holdStart n o s).stations = s.stations ∧
      (holdStart n o s).tracker = s.tracker ∧
      (holdStart n o s).callList = s.callList ∧
      (holdStart n o s).pace = s.pace ∧
      (holdStart n o s).loss = s.loss ∧
      (holdStart n o s).archive = s.archive ∧
      (holdStart n o s).history = s.history ∧
      (holdStart n o s).line = s.line ∧
      (holdStart n o s).plant = s.plant ∧
      (holdStart n o s).frame = s.frame ∧
      (holdStart n o s).engine = s.engine ∧
      (holdStart n o s).tiles = s.tiles ∧
      (holdStart n o s).alert = s.alert ∧
      (holdStart n o s).pending = s.pending := by
  simp [holdStart]

@[simp] theorem applyShiftStart_keeps (n o : Nat) :
      ((applyShiftStart n o s).1).conditions = s.conditions ∧
      ((applyShiftStart n o s).1).straps = s.straps ∧
      ((applyShiftStart n o s).1).pitch = s.pitch ∧
      ((applyShiftStart n o s).1).layout = s.layout ∧
      ((applyShiftStart n o s).1).callList = s.callList ∧
      ((applyShiftStart n o s).1).history = s.history ∧
      ((applyShiftStart n o s).1).line = s.line ∧
      ((applyShiftStart n o s).1).frame = s.frame ∧
      ((applyShiftStart n o s).1).tiles = s.tiles ∧
      ((applyShiftStart n o s).1).alert = s.alert ∧
      ((applyShiftStart n o s).1).pending = s.pending := by
  unfold applyShiftStart; split
  · simp
  · split
    · split <;> simp
    · simp
    all_goals (split <;> simp)

@[simp] theorem takePending_keeps  :
      (takePending s).conditions = s.conditions ∧
      (takePending s).straps = s.straps ∧
      (takePending s).pitch = s.pitch ∧
      (takePending s).layout = s.layout ∧
      (takePending s).tracker = s.tracker ∧
      (takePending s).callList = s.callList ∧
      (takePending s).archive = s.archive ∧
      (takePending s).history = s.history ∧
      (takePending s).line = s.line ∧
      (takePending s).plant = s.plant ∧
      (takePending s).frame = s.frame ∧
      (takePending s).tiles = s.tiles ∧
      (takePending s).alert = s.alert ∧
      (takePending s).pending = s.pending := by
  unfold takePending; (repeat' split) <;> simp

@[simp] theorem completeClose_keeps  :
      (completeClose s).conditions = s.conditions ∧
      (completeClose s).straps = s.straps ∧
      (completeClose s).pitch = s.pitch ∧
      (completeClose s).layout = s.layout ∧
      (completeClose s).callList = s.callList ∧
      (completeClose s).history = s.history ∧
      (completeClose s).line = s.line ∧
      (completeClose s).plant = s.plant ∧
      (completeClose s).frame = s.frame ∧
      (completeClose s).tiles = s.tiles ∧
      (completeClose s).alert = s.alert ∧
      (completeClose s).pending = s.pending := by
  unfold completeClose; (try dsimp only); (repeat' split) <;> simp

@[simp] theorem rebase_keeps  :
      (rebase s).conditions = s.conditions ∧
      (rebase s).straps = s.straps ∧
      (rebase s).pitch = s.pitch ∧
      (rebase s).layout = s.layout ∧
      (rebase s).stations = s.stations ∧
      (rebase s).tracker = s.tracker ∧
      (rebase s).callList = s.callList ∧
      (rebase s).timer = s.timer ∧
      (rebase s).loss = s.loss ∧
      (rebase s).archive = s.archive ∧
      (rebase s).history = s.history ∧
      (rebase s).line = s.line ∧
      (rebase s).plant = s.plant ∧
      (rebase s).frame = s.frame ∧
      (rebase s).engine = s.engine ∧
      (rebase s).tiles = s.tiles ∧
      (rebase s).alert = s.alert ∧
      (rebase s).pending = s.pending := by
  simp [rebase]

@[simp] theorem holdAtCommit_keeps  :
      (holdAtCommit s).conditions = s.conditions ∧
      (holdAtCommit s).straps = s.straps ∧
      (holdAtCommit s).pitch = s.pitch ∧
      (holdAtCommit s).layout = s.layout ∧
      (holdAtCommit s).stations = s.stations ∧
      (holdAtCommit s).tracker = s.tracker ∧
      (holdAtCommit s).callList = s.callList ∧
      (holdAtCommit s).timer = s.timer ∧
      (holdAtCommit s).loss = s.loss ∧
      (holdAtCommit s).archive = s.archive ∧
      (holdAtCommit s).history = s.history ∧
      (holdAtCommit s).line = s.line ∧
      (holdAtCommit s).plant = s.plant ∧
      (holdAtCommit s).frame = s.frame ∧
      (holdAtCommit s).engine = s.engine ∧
      (holdAtCommit s).tiles = s.tiles ∧
      (holdAtCommit s).alert = s.alert ∧
      (holdAtCommit s).pending = s.pending := by
  unfold holdAtCommit; (repeat' split) <;> simp

@[simp] theorem commitEndTest_keeps  :
      (commitEndTest s).conditions = s.conditions ∧
      (commitEndTest s).straps = s.straps ∧
      (commitEndTest s).pitch = s.pitch ∧
      (commitEndTest s).layout = s.layout ∧
      (commitEndTest s).stations = s.stations ∧
      (commitEndTest s).tracker = s.tracker ∧
      (commitEndTest s).callList = s.callList ∧
      (commitEndTest s).loss = s.loss ∧
      (commitEndTest s).history = s.history ∧
      (commitEndTest s).line = s.line ∧
      (commitEndTest s).frame = s.frame ∧
      (commitEndTest s).tiles = s.tiles ∧
      (commitEndTest s).alert = s.alert ∧
      (commitEndTest s).pending = s.pending := by
  unfold commitEndTest; (repeat' split) <;> simp

@[simp] theorem commitOvertimeTests_keeps  :
      (commitOvertimeTests s).conditions = s.conditions ∧
      (commitOvertimeTests s).straps = s.straps ∧
      (commitOvertimeTests s).pitch = s.pitch ∧
      (commitOvertimeTests s).layout = s.layout ∧
      (commitOvertimeTests s).stations = s.stations ∧
      (commitOvertimeTests s).tracker = s.tracker ∧
      (commitOvertimeTests s).callList = s.callList ∧
      (commitOvertimeTests s).pace = s.pace ∧
      (commitOvertimeTests s).loss = s.loss ∧
      (commitOvertimeTests s).history = s.history ∧
      (commitOvertimeTests s).line = s.line ∧
      (commitOvertimeTests s).frame = s.frame ∧
      (commitOvertimeTests s).engine = s.engine ∧
      (commitOvertimeTests s).tiles = s.tiles ∧
      (commitOvertimeTests s).alert = s.alert ∧
      (commitOvertimeTests s).pending = s.pending := by
  unfold commitOvertimeTests; (repeat' split) <;> simp

@[simp] theorem commitNow_keeps (p : Plan) :
      (commitNow p s).conditions = s.conditions ∧
      (commitNow p s).straps = s.straps ∧
      (commitNow p s).pitch = s.pitch ∧
      (commitNow p s).layout = s.layout ∧
      (commitNow p s).stations = s.stations ∧
      (commitNow p s).callList = s.callList ∧
      (commitNow p s).loss = s.loss ∧
      (commitNow p s).history = s.history ∧
      (commitNow p s).line = s.line ∧
      (commitNow p s).frame = s.frame ∧
      (commitNow p s).tiles = s.tiles ∧
      (commitNow p s).alert = s.alert ∧
      (commitNow p s).pending = s.pending := by
  simp [commitNow]

@[simp] theorem applyCommit_keeps (m : Nat) :
      ((applyCommit m s).1).conditions = s.conditions ∧
      ((applyCommit m s).1).straps = s.straps ∧
      ((applyCommit m s).1).pitch = s.pitch ∧
      ((applyCommit m s).1).layout = s.layout ∧
      ((applyCommit m s).1).stations = s.stations ∧
      ((applyCommit m s).1).callList = s.callList ∧
      ((applyCommit m s).1).loss = s.loss ∧
      ((applyCommit m s).1).history = s.history ∧
      ((applyCommit m s).1).line = s.line ∧
      ((applyCommit m s).1).frame = s.frame ∧
      ((applyCommit m s).1).tiles = s.tiles ∧
      ((applyCommit m s).1).alert = s.alert ∧
      ((applyCommit m s).1).pending = s.pending := by
  unfold applyCommit; split
  · simp
  · split
    · simp
    · (repeat' split) <;> simp

@[simp] theorem removeOldest_keeps  :
      (removeOldest s).conditions = s.conditions ∧
      (removeOldest s).straps = s.straps ∧
      (removeOldest s).pitch = s.pitch ∧
      (removeOldest s).layout = s.layout ∧
      (removeOldest s).stations = s.stations ∧
      (removeOldest s).tracker = s.tracker ∧
      (removeOldest s).callList = s.callList ∧
      (removeOldest s).timer = s.timer ∧
      (removeOldest s).pace = s.pace ∧
      (removeOldest s).loss = s.loss ∧
      (removeOldest s).archive = s.archive ∧
      (removeOldest s).line = s.line ∧
      (removeOldest s).frame = s.frame ∧
      (removeOldest s).engine = s.engine ∧
      (removeOldest s).tiles = s.tiles ∧
      (removeOldest s).alert = s.alert ∧
      (removeOldest s).pending = s.pending := by
  simp [removeOldest]

@[simp] theorem appendRecord_keeps (r : HistoryRecord) :
      (appendRecord r s).conditions = s.conditions ∧
      (appendRecord r s).straps = s.straps ∧
      (appendRecord r s).pitch = s.pitch ∧
      (appendRecord r s).layout = s.layout ∧
      (appendRecord r s).stations = s.stations ∧
      (appendRecord r s).tracker = s.tracker ∧
      (appendRecord r s).callList = s.callList ∧
      (appendRecord r s).timer = s.timer ∧
      (appendRecord r s).pace = s.pace ∧
      (appendRecord r s).loss = s.loss ∧
      (appendRecord r s).archive = s.archive ∧
      (appendRecord r s).line = s.line ∧
      (appendRecord r s).frame = s.frame ∧
      (appendRecord r s).engine = s.engine ∧
      (appendRecord r s).tiles = s.tiles ∧
      (appendRecord r s).alert = s.alert ∧
      (appendRecord r s).pending = s.pending := by
  simp [appendRecord]

@[simp] theorem storeRecord_keeps (r : HistoryRecord) :
      (storeRecord r s).conditions = s.conditions ∧
      (storeRecord r s).straps = s.straps ∧
      (storeRecord r s).pitch = s.pitch ∧
      (storeRecord r s).layout = s.layout ∧
      (storeRecord r s).stations = s.stations ∧
      (storeRecord r s).tracker = s.tracker ∧
      (storeRecord r s).callList = s.callList ∧
      (storeRecord r s).timer = s.timer ∧
      (storeRecord r s).pace = s.pace ∧
      (storeRecord r s).loss = s.loss ∧
      (storeRecord r s).archive = s.archive ∧
      (storeRecord r s).line = s.line ∧
      (storeRecord r s).frame = s.frame ∧
      (storeRecord r s).engine = s.engine ∧
      (storeRecord r s).tiles = s.tiles ∧
      (storeRecord r s).alert = s.alert ∧
      (storeRecord r s).pending = s.pending := by
  unfold storeRecord; (repeat' split) <;> simp

@[simp] theorem fitScroll_keeps  :
      (fitScroll s).conditions = s.conditions ∧
      (fitScroll s).straps = s.straps ∧
      (fitScroll s).pitch = s.pitch ∧
      (fitScroll s).layout = s.layout ∧
      (fitScroll s).stations = s.stations ∧
      (fitScroll s).tracker = s.tracker ∧
      (fitScroll s).callList = s.callList ∧
      (fitScroll s).timer = s.timer ∧
      (fitScroll s).pace = s.pace ∧
      (fitScroll s).loss = s.loss ∧
      (fitScroll s).archive = s.archive ∧
      (fitScroll s).history = s.history ∧
      (fitScroll s).line = s.line ∧
      (fitScroll s).plant = s.plant ∧
      (fitScroll s).frame = s.frame ∧
      (fitScroll s).tiles = s.tiles ∧
      (fitScroll s).alert = s.alert ∧
      (fitScroll s).pending = s.pending := by
  unfold fitScroll; split
  · simp
  · dsimp only; split <;> simp

@[simp] theorem raiseCallChange_keeps  :
      (raiseCallChange s).conditions = s.conditions ∧
      (raiseCallChange s).straps = s.straps ∧
      (raiseCallChange s).pitch = s.pitch ∧
      (raiseCallChange s).layout = s.layout ∧
      (raiseCallChange s).stations = s.stations ∧
      (raiseCallChange s).tracker = s.tracker ∧
      (raiseCallChange s).callList = s.callList ∧
      (raiseCallChange s).timer = s.timer ∧
      (raiseCallChange s).pace = s.pace ∧
      (raiseCallChange s).loss = s.loss ∧
      (raiseCallChange s).archive = s.archive ∧
      (raiseCallChange s).history = s.history ∧
      (raiseCallChange s).line = s.line ∧
      (raiseCallChange s).plant = s.plant ∧
      (raiseCallChange s).frame = s.frame ∧
      (raiseCallChange s).tiles = s.tiles ∧
      (raiseCallChange s).alert = s.alert ∧
      (raiseCallChange s).pending = s.pending := by
  simp [raiseCallChange]

@[simp] theorem openCall_keeps (st : Fin 48) (z : Fin 6) (k : Kind) (p : Nat) :
      (openCall st z k p s).conditions = s.conditions ∧
      (openCall st z k p s).straps = s.straps ∧
      (openCall st z k p s).pitch = s.pitch ∧
      (openCall st z k p s).layout = s.layout ∧
      (openCall st z k p s).timer = s.timer ∧
      (openCall st z k p s).pace = s.pace ∧
      (openCall st z k p s).archive = s.archive ∧
      (openCall st z k p s).history = s.history ∧
      (openCall st z k p s).line = s.line ∧
      (openCall st z k p s).plant = s.plant ∧
      (openCall st z k p s).frame = s.frame ∧
      (openCall st z k p s).tiles = s.tiles ∧
      (openCall st z k p s).alert = s.alert ∧
      (openCall st z k p s).pending = s.pending := by
  simp [openCall]

@[simp] theorem growCall_keeps (c : Call) (k : Kind) :
      (growCall c k s).conditions = s.conditions ∧
      (growCall c k s).straps = s.straps ∧
      (growCall c k s).pitch = s.pitch ∧
      (growCall c k s).layout = s.layout ∧
      (growCall c k s).stations = s.stations ∧
      (growCall c k s).timer = s.timer ∧
      (growCall c k s).pace = s.pace ∧
      (growCall c k s).loss = s.loss ∧
      (growCall c k s).archive = s.archive ∧
      (growCall c k s).history = s.history ∧
      (growCall c k s).line = s.line ∧
      (growCall c k s).plant = s.plant ∧
      (growCall c k s).frame = s.frame ∧
      (growCall c k s).tiles = s.tiles ∧
      (growCall c k s).alert = s.alert ∧
      (growCall c k s).pending = s.pending := by
  simp [growCall]

@[simp] theorem closeCall_keeps (c : Call) (b : ClosedBy) :
      (closeCall c b s).conditions = s.conditions ∧
      (closeCall c b s).straps = s.straps ∧
      (closeCall c b s).pitch = s.pitch ∧
      (closeCall c b s).layout = s.layout ∧
      (closeCall c b s).timer = s.timer ∧
      (closeCall c b s).pace = s.pace ∧
      (closeCall c b s).archive = s.archive ∧
      (closeCall c b s).line = s.line ∧
      (closeCall c b s).frame = s.frame ∧
      (closeCall c b s).tiles = s.tiles ∧
      (closeCall c b s).alert = s.alert ∧
      (closeCall c b s).pending = s.pending := by
  simp [closeCall]

@[simp] theorem acknowledge_keeps (c : Call) (a : AckSource) (i : Nat) :
      (acknowledge c a i s).conditions = s.conditions ∧
      (acknowledge c a i s).straps = s.straps ∧
      (acknowledge c a i s).pitch = s.pitch ∧
      (acknowledge c a i s).layout = s.layout ∧
      (acknowledge c a i s).stations = s.stations ∧
      (acknowledge c a i s).tracker = s.tracker ∧
      (acknowledge c a i s).timer = s.timer ∧
      (acknowledge c a i s).pace = s.pace ∧
      (acknowledge c a i s).loss = s.loss ∧
      (acknowledge c a i s).archive = s.archive ∧
      (acknowledge c a i s).history = s.history ∧
      (acknowledge c a i s).line = s.line ∧
      (acknowledge c a i s).plant = s.plant ∧
      (acknowledge c a i s).frame = s.frame ∧
      (acknowledge c a i s).engine = s.engine ∧
      (acknowledge c a i s).tiles = s.tiles ∧
      (acknowledge c a i s).alert = s.alert ∧
      (acknowledge c a i s).pending = s.pending := by
  simp [acknowledge]

@[simp] theorem callSeconds_keeps (o : Option Nat) :
      (callSeconds o s).conditions = s.conditions ∧
      (callSeconds o s).straps = s.straps ∧
      (callSeconds o s).pitch = s.pitch ∧
      (callSeconds o s).layout = s.layout ∧
      (callSeconds o s).stations = s.stations ∧
      (callSeconds o s).tracker = s.tracker ∧
      (callSeconds o s).timer = s.timer ∧
      (callSeconds o s).pace = s.pace ∧
      (callSeconds o s).loss = s.loss ∧
      (callSeconds o s).archive = s.archive ∧
      (callSeconds o s).history = s.history ∧
      (callSeconds o s).line = s.line ∧
      (callSeconds o s).plant = s.plant ∧
      (callSeconds o s).frame = s.frame ∧
      (callSeconds o s).tiles = s.tiles ∧
      (callSeconds o s).alert = s.alert ∧
      (callSeconds o s).pending = s.pending := by
  simp [callSeconds]

@[simp] theorem deliverFrom_keeps (k : Fin 6) :
      (deliverFrom k s).conditions = s.conditions ∧
      (deliverFrom k s).straps = s.straps ∧
      (deliverFrom k s).pitch = s.pitch ∧
      (deliverFrom k s).layout = s.layout ∧
      (deliverFrom k s).stations = s.stations ∧
      (deliverFrom k s).callList = s.callList ∧
      (deliverFrom k s).timer = s.timer ∧
      (deliverFrom k s).pace = s.pace ∧
      (deliverFrom k s).loss = s.loss ∧
      (deliverFrom k s).archive = s.archive ∧
      (deliverFrom k s).history = s.history ∧
      (deliverFrom k s).line = s.line ∧
      (deliverFrom k s).plant = s.plant ∧
      (deliverFrom k s).frame = s.frame ∧
      (deliverFrom k s).engine = s.engine ∧
      (deliverFrom k s).tiles = s.tiles ∧
      (deliverFrom k s).alert = s.alert ∧
      (deliverFrom k s).pending = s.pending := by
  unfold deliverFrom; (repeat' split) <;> simp

@[simp] theorem drawInto_keeps (k : Fin 6) :
      (drawInto k s).conditions = s.conditions ∧
      (drawInto k s).straps = s.straps ∧
      (drawInto k s).pitch = s.pitch ∧
      (drawInto k s).layout = s.layout ∧
      (drawInto k s).stations = s.stations ∧
      (drawInto k s).callList = s.callList ∧
      (drawInto k s).timer = s.timer ∧
      (drawInto k s).pace = s.pace ∧
      (drawInto k s).loss = s.loss ∧
      (drawInto k s).archive = s.archive ∧
      (drawInto k s).history = s.history ∧
      (drawInto k s).line = s.line ∧
      (drawInto k s).plant = s.plant ∧
      (drawInto k s).frame = s.frame ∧
      (drawInto k s).engine = s.engine ∧
      (drawInto k s).tiles = s.tiles ∧
      (drawInto k s).alert = s.alert ∧
      (drawInto k s).pending = s.pending := by
  unfold drawInto; (repeat' split) <;> simp

@[simp] theorem completeCar_keeps (k : Fin 6) :
      (completeCar k s).conditions = s.conditions ∧
      (completeCar k s).straps = s.straps ∧
      (completeCar k s).pitch = s.pitch ∧
      (completeCar k s).layout = s.layout ∧
      (completeCar k s).stations = s.stations ∧
      (completeCar k s).callList = s.callList ∧
      (completeCar k s).loss = s.loss ∧
      (completeCar k s).history = s.history ∧
      (completeCar k s).line = s.line ∧
      (completeCar k s).frame = s.frame ∧
      (completeCar k s).tiles = s.tiles ∧
      (completeCar k s).alert = s.alert ∧
      (completeCar k s).pending = s.pending := by
  unfold completeCar; dsimp only; split <;> simp

@[simp] theorem stepCalls_keeps (k : Fin 6) :
      (stepCalls k s).conditions = s.conditions ∧
      (stepCalls k s).straps = s.straps ∧
      (stepCalls k s).pitch = s.pitch ∧
      (stepCalls k s).layout = s.layout ∧
      (stepCalls k s).stations = s.stations ∧
      (stepCalls k s).tracker = s.tracker ∧
      (stepCalls k s).timer = s.timer ∧
      (stepCalls k s).pace = s.pace ∧
      (stepCalls k s).loss = s.loss ∧
      (stepCalls k s).archive = s.archive ∧
      (stepCalls k s).history = s.history ∧
      (stepCalls k s).line = s.line ∧
      (stepCalls k s).plant = s.plant ∧
      (stepCalls k s).frame = s.frame ∧
      (stepCalls k s).tiles = s.tiles ∧
      (stepCalls k s).alert = s.alert ∧
      (stepCalls k s).pending = s.pending := by
  unfold stepCalls; dsimp only; split <;> simp

@[simp] theorem stepZone_keeps (k : Fin 6) :
      (stepZone k s).conditions = s.conditions ∧
      (stepZone k s).straps = s.straps ∧
      (stepZone k s).pitch = s.pitch ∧
      (stepZone k s).layout = s.layout ∧
      (stepZone k s).stations = s.stations ∧
      (stepZone k s).loss = s.loss ∧
      (stepZone k s).history = s.history ∧
      (stepZone k s).line = s.line ∧
      (stepZone k s).frame = s.frame ∧
      (stepZone k s).tiles = s.tiles ∧
      (stepZone k s).alert = s.alert ∧
      (stepZone k s).pending = s.pending := by
  unfold stepZone; dsimp only; split <;> simp

@[simp] theorem giveXstop_keeps (m : LevelMoment) :
      (giveXstop m s).conditions = s.conditions ∧
      (giveXstop m s).straps = s.straps ∧
      (giveXstop m s).pitch = s.pitch ∧
      (giveXstop m s).layout = s.layout ∧
      (giveXstop m s).stations = s.stations ∧
      (giveXstop m s).callList = s.callList ∧
      (giveXstop m s).timer = s.timer ∧
      (giveXstop m s).pace = s.pace ∧
      (giveXstop m s).loss = s.loss ∧
      (giveXstop m s).archive = s.archive ∧
      (giveXstop m s).history = s.history ∧
      (giveXstop m s).line = s.line ∧
      (giveXstop m s).plant = s.plant ∧
      (giveXstop m s).frame = s.frame ∧
      (giveXstop m s).tiles = s.tiles ∧
      (giveXstop m s).alert = s.alert ∧
      (giveXstop m s).pending = s.pending := by
  unfold giveXstop; (try dsimp only); (repeat' split) <;> simp

@[simp] theorem monitorSecond_keeps (k : Fin 6) :
      (monitorSecond k s).conditions = s.conditions ∧
      (monitorSecond k s).straps = s.straps ∧
      (monitorSecond k s).pitch = s.pitch ∧
      (monitorSecond k s).layout = s.layout ∧
      (monitorSecond k s).stations = s.stations ∧
      (monitorSecond k s).callList = s.callList ∧
      (monitorSecond k s).timer = s.timer ∧
      (monitorSecond k s).pace = s.pace ∧
      (monitorSecond k s).loss = s.loss ∧
      (monitorSecond k s).archive = s.archive ∧
      (monitorSecond k s).history = s.history ∧
      (monitorSecond k s).line = s.line ∧
      (monitorSecond k s).plant = s.plant ∧
      (monitorSecond k s).frame = s.frame ∧
      (monitorSecond k s).tiles = s.tiles ∧
      (monitorSecond k s).alert = s.alert ∧
      (monitorSecond k s).pending = s.pending := by
  simp [monitorSecond]

@[simp] theorem applyBufferSet_keeps (b n : Nat) :
      ((applyBufferSet b n s).1).conditions = s.conditions ∧
      ((applyBufferSet b n s).1).straps = s.straps ∧
      ((applyBufferSet b n s).1).pitch = s.pitch ∧
      ((applyBufferSet b n s).1).layout = s.layout ∧
      ((applyBufferSet b n s).1).stations = s.stations ∧
      ((applyBufferSet b n s).1).callList = s.callList ∧
      ((applyBufferSet b n s).1).timer = s.timer ∧
      ((applyBufferSet b n s).1).pace = s.pace ∧
      ((applyBufferSet b n s).1).loss = s.loss ∧
      ((applyBufferSet b n s).1).archive = s.archive ∧
      ((applyBufferSet b n s).1).history = s.history ∧
      ((applyBufferSet b n s).1).line = s.line ∧
      ((applyBufferSet b n s).1).plant = s.plant ∧
      ((applyBufferSet b n s).1).frame = s.frame ∧
      ((applyBufferSet b n s).1).tiles = s.tiles ∧
      ((applyBufferSet b n s).1).alert = s.alert ∧
      ((applyBufferSet b n s).1).pending = s.pending := by
  unfold applyBufferSet; (repeat' split) <;> simp

@[simp] theorem storeZone_keeps (k : Fin 6) (l : Layout) :
      (storeZone k l s).conditions = s.conditions ∧
      (storeZone k l s).straps = s.straps ∧
      (storeZone k l s).stations = s.stations ∧
      (storeZone k l s).callList = s.callList ∧
      (storeZone k l s).timer = s.timer ∧
      (storeZone k l s).pace = s.pace ∧
      (storeZone k l s).loss = s.loss ∧
      (storeZone k l s).archive = s.archive ∧
      (storeZone k l s).history = s.history ∧
      (storeZone k l s).line = s.line ∧
      (storeZone k l s).plant = s.plant ∧
      (storeZone k l s).frame = s.frame ∧
      (storeZone k l s).tiles = s.tiles ∧
      (storeZone k l s).alert = s.alert ∧
      (storeZone k l s).pending = s.pending := by
  simp [storeZone, raiseLayout]

@[simp] theorem restartLineLink_keeps  :
      (restartLineLink s).conditions = s.conditions ∧
      (restartLineLink s).straps = s.straps ∧
      (restartLineLink s).pitch = s.pitch ∧
      (restartLineLink s).layout = s.layout ∧
      (restartLineLink s).stations = s.stations ∧
      (restartLineLink s).tracker = s.tracker ∧
      (restartLineLink s).callList = s.callList ∧
      (restartLineLink s).timer = s.timer ∧
      (restartLineLink s).pace = s.pace ∧
      (restartLineLink s).loss = s.loss ∧
      (restartLineLink s).archive = s.archive ∧
      (restartLineLink s).history = s.history ∧
      (restartLineLink s).plant = s.plant ∧
      (restartLineLink s).frame = s.frame ∧
      (restartLineLink s).tiles = s.tiles ∧
      (restartLineLink s).alert = s.alert ∧
      (restartLineLink s).pending = s.pending := by
  unfold restartLineLink raiseLineLink; split <;> simp

@[simp] theorem lineLinkSecond_keeps  :
      (lineLinkSecond s).conditions = s.conditions ∧
      (lineLinkSecond s).straps = s.straps ∧
      (lineLinkSecond s).pitch = s.pitch ∧
      (lineLinkSecond s).layout = s.layout ∧
      (lineLinkSecond s).stations = s.stations ∧
      (lineLinkSecond s).tracker = s.tracker ∧
      (lineLinkSecond s).callList = s.callList ∧
      (lineLinkSecond s).timer = s.timer ∧
      (lineLinkSecond s).pace = s.pace ∧
      (lineLinkSecond s).loss = s.loss ∧
      (lineLinkSecond s).archive = s.archive ∧
      (lineLinkSecond s).history = s.history ∧
      (lineLinkSecond s).plant = s.plant ∧
      (lineLinkSecond s).frame = s.frame ∧
      (lineLinkSecond s).tiles = s.tiles ∧
      (lineLinkSecond s).alert = s.alert ∧
      (lineLinkSecond s).pending = s.pending := by
  unfold lineLinkSecond raiseLineLink; split <;> simp

@[simp] theorem statusRead_keeps  :
      (statusRead s).conditions = s.conditions ∧
      (statusRead s).straps = s.straps ∧
      (statusRead s).pitch = s.pitch ∧
      (statusRead s).layout = s.layout ∧
      (statusRead s).stations = s.stations ∧
      (statusRead s).tracker = s.tracker ∧
      (statusRead s).callList = s.callList ∧
      (statusRead s).timer = s.timer ∧
      (statusRead s).pace = s.pace ∧
      (statusRead s).loss = s.loss ∧
      (statusRead s).archive = s.archive ∧
      (statusRead s).history = s.history ∧
      (statusRead s).plant = s.plant ∧
      (statusRead s).frame = s.frame ∧
      (statusRead s).tiles = s.tiles ∧
      (statusRead s).alert = s.alert ∧
      (statusRead s).pending = s.pending := by
  simp [statusRead]

@[simp] theorem setPlantLink_keeps (l : Link) :
      (setPlantLink l s).conditions = s.conditions ∧
      (setPlantLink l s).straps = s.straps ∧
      (setPlantLink l s).pitch = s.pitch ∧
      (setPlantLink l s).layout = s.layout ∧
      (setPlantLink l s).stations = s.stations ∧
      (setPlantLink l s).tracker = s.tracker ∧
      (setPlantLink l s).callList = s.callList ∧
      (setPlantLink l s).timer = s.timer ∧
      (setPlantLink l s).pace = s.pace ∧
      (setPlantLink l s).loss = s.loss ∧
      (setPlantLink l s).archive = s.archive ∧
      (setPlantLink l s).history = s.history ∧
      (setPlantLink l s).line = s.line ∧
      (setPlantLink l s).frame = s.frame ∧
      (setPlantLink l s).tiles = s.tiles ∧
      (setPlantLink l s).alert = s.alert ∧
      (setPlantLink l s).pending = s.pending := by
  simp [setPlantLink]

@[simp] theorem restartPlantLink_keeps  :
      (restartPlantLink s).conditions = s.conditions ∧
      (restartPlantLink s).straps = s.straps ∧
      (restartPlantLink s).pitch = s.pitch ∧
      (restartPlantLink s).layout = s.layout ∧
      (restartPlantLink s).stations = s.stations ∧
      (restartPlantLink s).tracker = s.tracker ∧
      (restartPlantLink s).callList = s.callList ∧
      (restartPlantLink s).timer = s.timer ∧
      (restartPlantLink s).pace = s.pace ∧
      (restartPlantLink s).loss = s.loss ∧
      (restartPlantLink s).archive = s.archive ∧
      (restartPlantLink s).history = s.history ∧
      (restartPlantLink s).line = s.line ∧
      (restartPlantLink s).frame = s.frame ∧
      (restartPlantLink s).tiles = s.tiles ∧
      (restartPlantLink s).alert = s.alert ∧
      (restartPlantLink s).pending = s.pending := by
  simp [restartPlantLink]

@[simp] theorem commandByteTaken_keeps (c : PlantCommand) :
      (commandByteTaken c s).conditions = s.conditions ∧
      (commandByteTaken c s).straps = s.straps ∧
      (commandByteTaken c s).pitch = s.pitch ∧
      (commandByteTaken c s).layout = s.layout ∧
      (commandByteTaken c s).stations = s.stations ∧
      (commandByteTaken c s).tracker = s.tracker ∧
      (commandByteTaken c s).callList = s.callList ∧
      (commandByteTaken c s).timer = s.timer ∧
      (commandByteTaken c s).pace = s.pace ∧
      (commandByteTaken c s).loss = s.loss ∧
      (commandByteTaken c s).archive = s.archive ∧
      (commandByteTaken c s).history = s.history ∧
      (commandByteTaken c s).line = s.line ∧
      (commandByteTaken c s).frame = s.frame ∧
      (commandByteTaken c s).tiles = s.tiles ∧
      (commandByteTaken c s).alert = s.alert ∧
      (commandByteTaken c s).pending = s.pending := by
  unfold commandByteTaken; (repeat' split) <;> simp

@[simp] theorem advanceCursor_keeps  :
      (advanceCursor s).conditions = s.conditions ∧
      (advanceCursor s).straps = s.straps ∧
      (advanceCursor s).pitch = s.pitch ∧
      (advanceCursor s).layout = s.layout ∧
      (advanceCursor s).stations = s.stations ∧
      (advanceCursor s).tracker = s.tracker ∧
      (advanceCursor s).callList = s.callList ∧
      (advanceCursor s).timer = s.timer ∧
      (advanceCursor s).pace = s.pace ∧
      (advanceCursor s).loss = s.loss ∧
      (advanceCursor s).archive = s.archive ∧
      (advanceCursor s).history = s.history ∧
      (advanceCursor s).line = s.line ∧
      (advanceCursor s).plant = s.plant ∧
      (advanceCursor s).engine = s.engine ∧
      (advanceCursor s).tiles = s.tiles ∧
      (advanceCursor s).alert = s.alert ∧
      (advanceCursor s).pending = s.pending := by
  simp [advanceCursor]

@[simp] theorem clampCursor_keeps  :
      (clampCursor s).conditions = s.conditions ∧
      (clampCursor s).straps = s.straps ∧
      (clampCursor s).pitch = s.pitch ∧
      (clampCursor s).layout = s.layout ∧
      (clampCursor s).stations = s.stations ∧
      (clampCursor s).tracker = s.tracker ∧
      (clampCursor s).callList = s.callList ∧
      (clampCursor s).timer = s.timer ∧
      (clampCursor s).pace = s.pace ∧
      (clampCursor s).loss = s.loss ∧
      (clampCursor s).archive = s.archive ∧
      (clampCursor s).history = s.history ∧
      (clampCursor s).line = s.line ∧
      (clampCursor s).plant = s.plant ∧
      (clampCursor s).engine = s.engine ∧
      (clampCursor s).tiles = s.tiles ∧
      (clampCursor s).alert = s.alert ∧
      (clampCursor s).pending = s.pending := by
  simp [clampCursor]

@[simp] theorem cornerCursor_keeps  :
      (cornerCursor s).conditions = s.conditions ∧
      (cornerCursor s).straps = s.straps ∧
      (cornerCursor s).pitch = s.pitch ∧
      (cornerCursor s).layout = s.layout ∧
      (cornerCursor s).stations = s.stations ∧
      (cornerCursor s).tracker = s.tracker ∧
      (cornerCursor s).callList = s.callList ∧
      (cornerCursor s).timer = s.timer ∧
      (cornerCursor s).pace = s.pace ∧
      (cornerCursor s).loss = s.loss ∧
      (cornerCursor s).archive = s.archive ∧
      (cornerCursor s).history = s.history ∧
      (cornerCursor s).line = s.line ∧
      (cornerCursor s).plant = s.plant ∧
      (cornerCursor s).engine = s.engine ∧
      (cornerCursor s).tiles = s.tiles ∧
      (cornerCursor s).alert = s.alert ∧
      (cornerCursor s).pending = s.pending := by
  simp [cornerCursor]

@[simp] theorem recordCollision_keeps  :
      (recordCollision s).conditions = s.conditions ∧
      (recordCollision s).straps = s.straps ∧
      (recordCollision s).pitch = s.pitch ∧
      (recordCollision s).layout = s.layout ∧
      (recordCollision s).stations = s.stations ∧
      (recordCollision s).tracker = s.tracker ∧
      (recordCollision s).callList = s.callList ∧
      (recordCollision s).timer = s.timer ∧
      (recordCollision s).pace = s.pace ∧
      (recordCollision s).loss = s.loss ∧
      (recordCollision s).archive = s.archive ∧
      (recordCollision s).history = s.history ∧
      (recordCollision s).line = s.line ∧
      (recordCollision s).frame = s.frame ∧
      (recordCollision s).engine = s.engine ∧
      (recordCollision s).tiles = s.tiles ∧
      (recordCollision s).alert = s.alert ∧
      (recordCollision s).pending = s.pending := by
  simp [recordCollision]

@[simp] theorem writePixel_keeps (p : Pixel) :
      (writePixel s p).conditions = s.conditions ∧
      (writePixel s p).straps = s.straps ∧
      (writePixel s p).pitch = s.pitch ∧
      (writePixel s p).layout = s.layout ∧
      (writePixel s p).stations = s.stations ∧
      (writePixel s p).tracker = s.tracker ∧
      (writePixel s p).callList = s.callList ∧
      (writePixel s p).timer = s.timer ∧
      (writePixel s p).pace = s.pace ∧
      (writePixel s p).loss = s.loss ∧
      (writePixel s p).archive = s.archive ∧
      (writePixel s p).history = s.history ∧
      (writePixel s p).line = s.line ∧
      (writePixel s p).engine = s.engine ∧
      (writePixel s p).tiles = s.tiles ∧
      (writePixel s p).alert = s.alert ∧
      (writePixel s p).pending = s.pending := by
  unfold writePixel; split <;> simp

@[simp] theorem storeRegion_keeps (i : Fin 8) (r : Region) :
      (storeRegion i r s).conditions = s.conditions ∧
      (storeRegion i r s).straps = s.straps ∧
      (storeRegion i r s).pitch = s.pitch ∧
      (storeRegion i r s).layout = s.layout ∧
      (storeRegion i r s).stations = s.stations ∧
      (storeRegion i r s).tracker = s.tracker ∧
      (storeRegion i r s).callList = s.callList ∧
      (storeRegion i r s).timer = s.timer ∧
      (storeRegion i r s).pace = s.pace ∧
      (storeRegion i r s).loss = s.loss ∧
      (storeRegion i r s).archive = s.archive ∧
      (storeRegion i r s).history = s.history ∧
      (storeRegion i r s).line = s.line ∧
      (storeRegion i r s).plant = s.plant ∧
      (storeRegion i r s).tiles = s.tiles ∧
      (storeRegion i r s).alert = s.alert ∧
      (storeRegion i r s).pending = s.pending := by
  simp [storeRegion]

@[simp] theorem drawNext_keeps (i : Fin 8) :
      (drawNext s i).conditions = s.conditions ∧
      (drawNext s i).straps = s.straps ∧
      (drawNext s i).pitch = s.pitch ∧
      (drawNext s i).layout = s.layout ∧
      (drawNext s i).stations = s.stations ∧
      (drawNext s i).tracker = s.tracker ∧
      (drawNext s i).callList = s.callList ∧
      (drawNext s i).timer = s.timer ∧
      (drawNext s i).pace = s.pace ∧
      (drawNext s i).loss = s.loss ∧
      (drawNext s i).archive = s.archive ∧
      (drawNext s i).history = s.history ∧
      (drawNext s i).line = s.line ∧
      (drawNext s i).plant = s.plant ∧
      (drawNext s i).tiles = s.tiles ∧
      (drawNext s i).alert = s.alert ∧
      (drawNext s i).pending = s.pending := by
  unfold drawNext; dsimp only; split
  · simp
  · split <;> simp

@[simp] theorem setWindowRule_keeps (a b c d : Nat) :
      ((applyWindow a b c d s).1).conditions = s.conditions ∧
      ((applyWindow a b c d s).1).straps = s.straps ∧
      ((applyWindow a b c d s).1).pitch = s.pitch ∧
      ((applyWindow a b c d s).1).layout = s.layout ∧
      ((applyWindow a b c d s).1).stations = s.stations ∧
      ((applyWindow a b c d s).1).tracker = s.tracker ∧
      ((applyWindow a b c d s).1).callList = s.callList ∧
      ((applyWindow a b c d s).1).timer = s.timer ∧
      ((applyWindow a b c d s).1).pace = s.pace ∧
      ((applyWindow a b c d s).1).loss = s.loss ∧
      ((applyWindow a b c d s).1).archive = s.archive ∧
      ((applyWindow a b c d s).1).history = s.history ∧
      ((applyWindow a b c d s).1).line = s.line ∧
      ((applyWindow a b c d s).1).plant = s.plant ∧
      ((applyWindow a b c d s).1).engine = s.engine ∧
      ((applyWindow a b c d s).1).tiles = s.tiles ∧
      ((applyWindow a b c d s).1).alert = s.alert ∧
      ((applyWindow a b c d s).1).pending = s.pending := by
  simp [applyWindow]

@[simp] theorem setCursorRule_keeps (a b : Nat) :
      ((applyCursor a b s).1).conditions = s.conditions ∧
      ((applyCursor a b s).1).straps = s.straps ∧
      ((applyCursor a b s).1).pitch = s.pitch ∧
      ((applyCursor a b s).1).layout = s.layout ∧
      ((applyCursor a b s).1).stations = s.stations ∧
      ((applyCursor a b s).1).tracker = s.tracker ∧
      ((applyCursor a b s).1).callList = s.callList ∧
      ((applyCursor a b s).1).timer = s.timer ∧
      ((applyCursor a b s).1).pace = s.pace ∧
      ((applyCursor a b s).1).loss = s.loss ∧
      ((applyCursor a b s).1).archive = s.archive ∧
      ((applyCursor a b s).1).history = s.history ∧
      ((applyCursor a b s).1).line = s.line ∧
      ((applyCursor a b s).1).plant = s.plant ∧
      ((applyCursor a b s).1).engine = s.engine ∧
      ((applyCursor a b s).1).tiles = s.tiles ∧
      ((applyCursor a b s).1).alert = s.alert ∧
      ((applyCursor a b s).1).pending = s.pending := by
  simp [applyCursor]

@[simp] theorem controlRule_keeps (a b c d : Nat) :
      ((applyControl a b c d s).1).conditions = s.conditions ∧
      ((applyControl a b c d s).1).straps = s.straps ∧
      ((applyControl a b c d s).1).pitch = s.pitch ∧
      ((applyControl a b c d s).1).layout = s.layout ∧
      ((applyControl a b c d s).1).stations = s.stations ∧
      ((applyControl a b c d s).1).tracker = s.tracker ∧
      ((applyControl a b c d s).1).callList = s.callList ∧
      ((applyControl a b c d s).1).timer = s.timer ∧
      ((applyControl a b c d s).1).pace = s.pace ∧
      ((applyControl a b c d s).1).loss = s.loss ∧
      ((applyControl a b c d s).1).archive = s.archive ∧
      ((applyControl a b c d s).1).history = s.history ∧
      ((applyControl a b c d s).1).line = s.line ∧
      ((applyControl a b c d s).1).plant = s.plant ∧
      ((applyControl a b c d s).1).engine = s.engine ∧
      ((applyControl a b c d s).1).tiles = s.tiles ∧
      ((applyControl a b c d s).1).alert = s.alert ∧
      ((applyControl a b c d s).1).pending = s.pending := by
  unfold applyControl; split <;> simp

@[simp] theorem modeRule_keeps (a : Nat) :
      ((applyMode a s).1).conditions = s.conditions ∧
      ((applyMode a s).1).straps = s.straps ∧
      ((applyMode a s).1).pitch = s.pitch ∧
      ((applyMode a s).1).layout = s.layout ∧
      ((applyMode a s).1).stations = s.stations ∧
      ((applyMode a s).1).tracker = s.tracker ∧
      ((applyMode a s).1).callList = s.callList ∧
      ((applyMode a s).1).timer = s.timer ∧
      ((applyMode a s).1).pace = s.pace ∧
      ((applyMode a s).1).loss = s.loss ∧
      ((applyMode a s).1).archive = s.archive ∧
      ((applyMode a s).1).history = s.history ∧
      ((applyMode a s).1).line = s.line ∧
      ((applyMode a s).1).plant = s.plant ∧
      ((applyMode a s).1).engine = s.engine ∧
      ((applyMode a s).1).tiles = s.tiles ∧
      ((applyMode a s).1).alert = s.alert ∧
      ((applyMode a s).1).pending = s.pending := by
  unfold applyMode; split <;> simp

@[simp] theorem maskRule_keeps (a : Nat) :
      ((applyMask a s).1).conditions = s.conditions ∧
      ((applyMask a s).1).straps = s.straps ∧
      ((applyMask a s).1).pitch = s.pitch ∧
      ((applyMask a s).1).layout = s.layout ∧
      ((applyMask a s).1).stations = s.stations ∧
      ((applyMask a s).1).tracker = s.tracker ∧
      ((applyMask a s).1).callList = s.callList ∧
      ((applyMask a s).1).timer = s.timer ∧
      ((applyMask a s).1).pace = s.pace ∧
      ((applyMask a s).1).loss = s.loss ∧
      ((applyMask a s).1).archive = s.archive ∧
      ((applyMask a s).1).history = s.history ∧
      ((applyMask a s).1).line = s.line ∧
      ((applyMask a s).1).plant = s.plant ∧
      ((applyMask a s).1).engine = s.engine ∧
      ((applyMask a s).1).tiles = s.tiles ∧
      ((applyMask a s).1).alert = s.alert ∧
      ((applyMask a s).1).pending = s.pending := by
  simp [applyMask]

@[simp] theorem markRule_keeps  :
      ((applyMark s).1).conditions = s.conditions ∧
      ((applyMark s).1).straps = s.straps ∧
      ((applyMark s).1).pitch = s.pitch ∧
      ((applyMark s).1).layout = s.layout ∧
      ((applyMark s).1).stations = s.stations ∧
      ((applyMark s).1).tracker = s.tracker ∧
      ((applyMark s).1).callList = s.callList ∧
      ((applyMark s).1).timer = s.timer ∧
      ((applyMark s).1).pace = s.pace ∧
      ((applyMark s).1).loss = s.loss ∧
      ((applyMark s).1).archive = s.archive ∧
      ((applyMark s).1).history = s.history ∧
      ((applyMark s).1).line = s.line ∧
      ((applyMark s).1).plant = s.plant ∧
      ((applyMark s).1).engine = s.engine ∧
      ((applyMark s).1).tiles = s.tiles ∧
      ((applyMark s).1).alert = s.alert ∧
      ((applyMark s).1).pending = s.pending := by
  simp [applyMark]

@[simp] theorem returnRule_keeps  :
      ((applyReturn s).1).conditions = s.conditions ∧
      ((applyReturn s).1).straps = s.straps ∧
      ((applyReturn s).1).pitch = s.pitch ∧
      ((applyReturn s).1).layout = s.layout ∧
      ((applyReturn s).1).stations = s.stations ∧
      ((applyReturn s).1).tracker = s.tracker ∧
      ((applyReturn s).1).callList = s.callList ∧
      ((applyReturn s).1).timer = s.timer ∧
      ((applyReturn s).1).pace = s.pace ∧
      ((applyReturn s).1).loss = s.loss ∧
      ((applyReturn s).1).archive = s.archive ∧
      ((applyReturn s).1).history = s.history ∧
      ((applyReturn s).1).line = s.line ∧
      ((applyReturn s).1).plant = s.plant ∧
      ((applyReturn s).1).engine = s.engine ∧
      ((applyReturn s).1).tiles = s.tiles ∧
      ((applyReturn s).1).alert = s.alert ∧
      ((applyReturn s).1).pending = s.pending := by
  simp [applyReturn]

@[simp] theorem regionRule_keeps (e r a b c d : Nat) (f : Bool) (h i : Nat) :
      ((applyRegion e r a b c d f h i s).1).conditions = s.conditions ∧
      ((applyRegion e r a b c d f h i s).1).straps = s.straps ∧
      ((applyRegion e r a b c d f h i s).1).pitch = s.pitch ∧
      ((applyRegion e r a b c d f h i s).1).layout = s.layout ∧
      ((applyRegion e r a b c d f h i s).1).stations = s.stations ∧
      ((applyRegion e r a b c d f h i s).1).tracker = s.tracker ∧
      ((applyRegion e r a b c d f h i s).1).callList = s.callList ∧
      ((applyRegion e r a b c d f h i s).1).timer = s.timer ∧
      ((applyRegion e r a b c d f h i s).1).pace = s.pace ∧
      ((applyRegion e r a b c d f h i s).1).loss = s.loss ∧
      ((applyRegion e r a b c d f h i s).1).archive = s.archive ∧
      ((applyRegion e r a b c d f h i s).1).history = s.history ∧
      ((applyRegion e r a b c d f h i s).1).line = s.line ∧
      ((applyRegion e r a b c d f h i s).1).plant = s.plant ∧
      ((applyRegion e r a b c d f h i s).1).tiles = s.tiles ∧
      ((applyRegion e r a b c d f h i s).1).alert = s.alert ∧
      ((applyRegion e r a b c d f h i s).1).pending = s.pending := by
  unfold applyRegion; split
  · dsimp only; (repeat' split) <;> simp
  · simp

@[simp] theorem restartRule_keeps  :
      ((applyRestart s).1).conditions = s.conditions ∧
      ((applyRestart s).1).straps = s.straps ∧
      ((applyRestart s).1).pitch = s.pitch ∧
      ((applyRestart s).1).layout = s.layout ∧
      ((applyRestart s).1).stations = s.stations ∧
      ((applyRestart s).1).tracker = s.tracker ∧
      ((applyRestart s).1).callList = s.callList ∧
      ((applyRestart s).1).timer = s.timer ∧
      ((applyRestart s).1).pace = s.pace ∧
      ((applyRestart s).1).loss = s.loss ∧
      ((applyRestart s).1).archive = s.archive ∧
      ((applyRestart s).1).history = s.history ∧
      ((applyRestart s).1).line = s.line ∧
      ((applyRestart s).1).plant = s.plant ∧
      ((applyRestart s).1).frame = s.frame ∧
      ((applyRestart s).1).engine = s.engine ∧
      ((applyRestart s).1).alert = s.alert ∧
      ((applyRestart s).1).pending = s.pending := by
  simp [applyRestart]

@[simp] theorem intensityRule_keeps (a b c : Nat) :
      ((applyIntensity a b c s).1).conditions = s.conditions ∧
      ((applyIntensity a b c s).1).straps = s.straps ∧
      ((applyIntensity a b c s).1).pitch = s.pitch ∧
      ((applyIntensity a b c s).1).layout = s.layout ∧
      ((applyIntensity a b c s).1).stations = s.stations ∧
      ((applyIntensity a b c s).1).tracker = s.tracker ∧
      ((applyIntensity a b c s).1).callList = s.callList ∧
      ((applyIntensity a b c s).1).timer = s.timer ∧
      ((applyIntensity a b c s).1).pace = s.pace ∧
      ((applyIntensity a b c s).1).loss = s.loss ∧
      ((applyIntensity a b c s).1).archive = s.archive ∧
      ((applyIntensity a b c s).1).history = s.history ∧
      ((applyIntensity a b c s).1).line = s.line ∧
      ((applyIntensity a b c s).1).plant = s.plant ∧
      ((applyIntensity a b c s).1).frame = s.frame ∧
      ((applyIntensity a b c s).1).engine = s.engine ∧
      ((applyIntensity a b c s).1).alert = s.alert ∧
      ((applyIntensity a b c s).1).pending = s.pending := by
  unfold applyIntensity; dsimp only; split
  · simp
  · dsimp only; split <;> simp

@[simp] theorem stagePlanRule_keeps (l t o : Half) (c : Byte) (b : Vector BreakArg 6) :
      ((applyStagePlan l t o c b s).1).conditions = s.conditions ∧
      ((applyStagePlan l t o c b s).1).straps = s.straps ∧
      ((applyStagePlan l t o c b s).1).pitch = s.pitch ∧
      ((applyStagePlan l t o c b s).1).layout = s.layout ∧
      ((applyStagePlan l t o c b s).1).stations = s.stations ∧
      ((applyStagePlan l t o c b s).1).tracker = s.tracker ∧
      ((applyStagePlan l t o c b s).1).callList = s.callList ∧
      ((applyStagePlan l t o c b s).1).pace = s.pace ∧
      ((applyStagePlan l t o c b s).1).loss = s.loss ∧
      ((applyStagePlan l t o c b s).1).archive = s.archive ∧
      ((applyStagePlan l t o c b s).1).history = s.history ∧
      ((applyStagePlan l t o c b s).1).line = s.line ∧
      ((applyStagePlan l t o c b s).1).plant = s.plant ∧
      ((applyStagePlan l t o c b s).1).frame = s.frame ∧
      ((applyStagePlan l t o c b s).1).engine = s.engine ∧
      ((applyStagePlan l t o c b s).1).tiles = s.tiles ∧
      ((applyStagePlan l t o c b s).1).alert = s.alert ∧
      ((applyStagePlan l t o c b s).1).pending = s.pending := by
  unfold applyStagePlan; split <;> simp

@[simp] theorem discardRule_keeps  :
      ((applyDiscard s).1).conditions = s.conditions ∧
      ((applyDiscard s).1).straps = s.straps ∧
      ((applyDiscard s).1).pitch = s.pitch ∧
      ((applyDiscard s).1).layout = s.layout ∧
      ((applyDiscard s).1).stations = s.stations ∧
      ((applyDiscard s).1).tracker = s.tracker ∧
      ((applyDiscard s).1).callList = s.callList ∧
      ((applyDiscard s).1).pace = s.pace ∧
      ((applyDiscard s).1).loss = s.loss ∧
      ((applyDiscard s).1).archive = s.archive ∧
      ((applyDiscard s).1).history = s.history ∧
      ((applyDiscard s).1).line = s.line ∧
      ((applyDiscard s).1).plant = s.plant ∧
      ((applyDiscard s).1).frame = s.frame ∧
      ((applyDiscard s).1).engine = s.engine ∧
      ((applyDiscard s).1).tiles = s.tiles ∧
      ((applyDiscard s).1).alert = s.alert ∧
      ((applyDiscard s).1).pending = s.pending := by
  simp [applyDiscard]

@[simp] theorem shiftCloseRule_keeps  :
      ((applyShiftClose s).1).conditions = s.conditions ∧
      ((applyShiftClose s).1).straps = s.straps ∧
      ((applyShiftClose s).1).pitch = s.pitch ∧
      ((applyShiftClose s).1).layout = s.layout ∧
      ((applyShiftClose s).1).stations = s.stations ∧
      ((applyShiftClose s).1).callList = s.callList ∧
      ((applyShiftClose s).1).pace = s.pace ∧
      ((applyShiftClose s).1).loss = s.loss ∧
      ((applyShiftClose s).1).history = s.history ∧
      ((applyShiftClose s).1).line = s.line ∧
      ((applyShiftClose s).1).frame = s.frame ∧
      ((applyShiftClose s).1).tiles = s.tiles ∧
      ((applyShiftClose s).1).alert = s.alert ∧
      ((applyShiftClose s).1).pending = s.pending := by
  unfold applyShiftClose; split <;> simp

@[simp] theorem policyRule_keeps (v : Vector Half 15) (g : Half) :
      ((applyPolicy v g s).1).conditions = s.conditions ∧
      ((applyPolicy v g s).1).straps = s.straps ∧
      ((applyPolicy v g s).1).pitch = s.pitch ∧
      ((applyPolicy v g s).1).layout = s.layout ∧
      ((applyPolicy v g s).1).stations = s.stations ∧
      ((applyPolicy v g s).1).tracker = s.tracker ∧
      ((applyPolicy v g s).1).timer = s.timer ∧
      ((applyPolicy v g s).1).pace = s.pace ∧
      ((applyPolicy v g s).1).loss = s.loss ∧
      ((applyPolicy v g s).1).archive = s.archive ∧
      ((applyPolicy v g s).1).history = s.history ∧
      ((applyPolicy v g s).1).line = s.line ∧
      ((applyPolicy v g s).1).plant = s.plant ∧
      ((applyPolicy v g s).1).frame = s.frame ∧
      ((applyPolicy v g s).1).engine = s.engine ∧
      ((applyPolicy v g s).1).tiles = s.tiles ∧
      ((applyPolicy v g s).1).alert = s.alert ∧
      ((applyPolicy v g s).1).pending = s.pending := by
  simp [applyPolicy]

@[simp] theorem rewindRule_keeps  :
      ((applyRewind s).1).conditions = s.conditions ∧
      ((applyRewind s).1).straps = s.straps ∧
      ((applyRewind s).1).pitch = s.pitch ∧
      ((applyRewind s).1).layout = s.layout ∧
      ((applyRewind s).1).stations = s.stations ∧
      ((applyRewind s).1).tracker = s.tracker ∧
      ((applyRewind s).1).callList = s.callList ∧
      ((applyRewind s).1).timer = s.timer ∧
      ((applyRewind s).1).pace = s.pace ∧
      ((applyRewind s).1).loss = s.loss ∧
      ((applyRewind s).1).archive = s.archive ∧
      ((applyRewind s).1).history = s.history ∧
      ((applyRewind s).1).line = s.line ∧
      ((applyRewind s).1).frame = s.frame ∧
      ((applyRewind s).1).engine = s.engine ∧
      ((applyRewind s).1).tiles = s.tiles ∧
      ((applyRewind s).1).alert = s.alert ∧
      ((applyRewind s).1).pending = s.pending := by
  simp [applyRewind]

@[simp] theorem linkSettingsRule_keeps (a b c : Byte) :
      ((applyLinkSettings a b c s).1).conditions = s.conditions ∧
      ((applyLinkSettings a b c s).1).straps = s.straps ∧
      ((applyLinkSettings a b c s).1).pitch = s.pitch ∧
      ((applyLinkSettings a b c s).1).layout = s.layout ∧
      ((applyLinkSettings a b c s).1).stations = s.stations ∧
      ((applyLinkSettings a b c s).1).tracker = s.tracker ∧
      ((applyLinkSettings a b c s).1).callList = s.callList ∧
      ((applyLinkSettings a b c s).1).timer = s.timer ∧
      ((applyLinkSettings a b c s).1).pace = s.pace ∧
      ((applyLinkSettings a b c s).1).loss = s.loss ∧
      ((applyLinkSettings a b c s).1).archive = s.archive ∧
      ((applyLinkSettings a b c s).1).history = s.history ∧
      ((applyLinkSettings a b c s).1).frame = s.frame ∧
      ((applyLinkSettings a b c s).1).engine = s.engine ∧
      ((applyLinkSettings a b c s).1).tiles = s.tiles ∧
      ((applyLinkSettings a b c s).1).pending = s.pending := by
  unfold applyLinkSettings; split <;> simp

@[simp] theorem layoutZoneRule_keeps (a b c d e f g h : Nat) :
      ((applyLayoutZone a b c d e f g h s).1).conditions = s.conditions ∧
      ((applyLayoutZone a b c d e f g h s).1).straps = s.straps ∧
      ((applyLayoutZone a b c d e f g h s).1).stations = s.stations ∧
      ((applyLayoutZone a b c d e f g h s).1).callList = s.callList ∧
      ((applyLayoutZone a b c d e f g h s).1).timer = s.timer ∧
      ((applyLayoutZone a b c d e f g h s).1).pace = s.pace ∧
      ((applyLayoutZone a b c d e f g h s).1).loss = s.loss ∧
      ((applyLayoutZone a b c d e f g h s).1).archive = s.archive ∧
      ((applyLayoutZone a b c d e f g h s).1).history = s.history ∧
      ((applyLayoutZone a b c d e f g h s).1).line = s.line ∧
      ((applyLayoutZone a b c d e f g h s).1).plant = s.plant ∧
      ((applyLayoutZone a b c d e f g h s).1).frame = s.frame ∧
      ((applyLayoutZone a b c d e f g h s).1).tiles = s.tiles ∧
      ((applyLayoutZone a b c d e f g h s).1).alert = s.alert ∧
      ((applyLayoutZone a b c d e f g h s).1).pending = s.pending := by
  unfold applyLayoutZone; split
  · simp
  · split
    · simp
    · dsimp only; (repeat' split) <;> simp

@[simp] theorem layoutStationRule_keeps (a : Nat) (f : Bool) (l : Nat) :
      ((applyLayoutStation a f l s).1).conditions = s.conditions ∧
      ((applyLayoutStation a f l s).1).straps = s.straps ∧
      ((applyLayoutStation a f l s).1).pitch = s.pitch ∧
      ((applyLayoutStation a f l s).1).stations = s.stations ∧
      ((applyLayoutStation a f l s).1).callList = s.callList ∧
      ((applyLayoutStation a f l s).1).timer = s.timer ∧
      ((applyLayoutStation a f l s).1).pace = s.pace ∧
      ((applyLayoutStation a f l s).1).loss = s.loss ∧
      ((applyLayoutStation a f l s).1).archive = s.archive ∧
      ((applyLayoutStation a f l s).1).history = s.history ∧
      ((applyLayoutStation a f l s).1).line = s.line ∧
      ((applyLayoutStation a f l s).1).plant = s.plant ∧
      ((applyLayoutStation a f l s).1).frame = s.frame ∧
      ((applyLayoutStation a f l s).1).tiles = s.tiles ∧
      ((applyLayoutStation a f l s).1).alert = s.alert ∧
      ((applyLayoutStation a f l s).1).pending = s.pending := by
  unfold applyLayoutStation; split
  · simp
  · split
    · simp
    · dsimp only; split <;> simp [raiseLayout]

@[simp] theorem pullRule_keeps (a b c : Nat) :
      ((applyPull a b c s).1).conditions = s.conditions ∧
      ((applyPull a b c s).1).straps = s.straps ∧
      ((applyPull a b c s).1).pitch = s.pitch ∧
      ((applyPull a b c s).1).layout = s.layout ∧
      ((applyPull a b c s).1).timer = s.timer ∧
      ((applyPull a b c s).1).pace = s.pace ∧
      ((applyPull a b c s).1).archive = s.archive ∧
      ((applyPull a b c s).1).history = s.history ∧
      ((applyPull a b c s).1).line = s.line ∧
      ((applyPull a b c s).1).plant = s.plant ∧
      ((applyPull a b c s).1).frame = s.frame ∧
      ((applyPull a b c s).1).tiles = s.tiles ∧
      ((applyPull a b c s).1).alert = s.alert ∧
      ((applyPull a b c s).1).pending = s.pending := by
  unfold applyPull; (repeat' split) <;> simp

@[simp] theorem releaseRule_keeps (a : Nat) :
      ((applyRelease a s).1).conditions = s.conditions ∧
      ((applyRelease a s).1).straps = s.straps ∧
      ((applyRelease a s).1).pitch = s.pitch ∧
      ((applyRelease a s).1).layout = s.layout ∧
      ((applyRelease a s).1).timer = s.timer ∧
      ((applyRelease a s).1).pace = s.pace ∧
      ((applyRelease a s).1).archive = s.archive ∧
      ((applyRelease a s).1).line = s.line ∧
      ((applyRelease a s).1).frame = s.frame ∧
      ((applyRelease a s).1).tiles = s.tiles ∧
      ((applyRelease a s).1).alert = s.alert ∧
      ((applyRelease a s).1).pending = s.pending := by
  unfold applyRelease; split <;> simp

@[simp] theorem leaderResetRule_keeps (a b : Nat) :
      ((applyLeaderReset a b s).1).conditions = s.conditions ∧
      ((applyLeaderReset a b s).1).straps = s.straps ∧
      ((applyLeaderReset a b s).1).pitch = s.pitch ∧
      ((applyLeaderReset a b s).1).layout = s.layout ∧
      ((applyLeaderReset a b s).1).timer = s.timer ∧
      ((applyLeaderReset a b s).1).pace = s.pace ∧
      ((applyLeaderReset a b s).1).archive = s.archive ∧
      ((applyLeaderReset a b s).1).line = s.line ∧
      ((applyLeaderReset a b s).1).frame = s.frame ∧
      ((applyLeaderReset a b s).1).tiles = s.tiles ∧
      ((applyLeaderReset a b s).1).alert = s.alert ∧
      ((applyLeaderReset a b s).1).pending = s.pending := by
  unfold applyLeaderReset; (repeat' split) <;> simp

@[simp] theorem clearCallRule_keeps (a b : Nat) :
      ((applyClearCall a b s).1).conditions = s.conditions ∧
      ((applyClearCall a b s).1).straps = s.straps ∧
      ((applyClearCall a b s).1).pitch = s.pitch ∧
      ((applyClearCall a b s).1).layout = s.layout ∧
      ((applyClearCall a b s).1).timer = s.timer ∧
      ((applyClearCall a b s).1).pace = s.pace ∧
      ((applyClearCall a b s).1).archive = s.archive ∧
      ((applyClearCall a b s).1).line = s.line ∧
      ((applyClearCall a b s).1).frame = s.frame ∧
      ((applyClearCall a b s).1).tiles = s.tiles ∧
      ((applyClearCall a b s).1).alert = s.alert ∧
      ((applyClearCall a b s).1).pending = s.pending := by
  unfold applyClearCall; (repeat' split) <;> simp

@[simp] theorem leaderAckRule_keeps (a b : Nat) :
      ((applyLeaderAck a b s).1).conditions = s.conditions ∧
      ((applyLeaderAck a b s).1).straps = s.straps ∧
      ((applyLeaderAck a b s).1).pitch = s.pitch ∧
      ((applyLeaderAck a b s).1).layout = s.layout ∧
      ((applyLeaderAck a b s).1).stations = s.stations ∧
      ((applyLeaderAck a b s).1).tracker = s.tracker ∧
      ((applyLeaderAck a b s).1).timer = s.timer ∧
      ((applyLeaderAck a b s).1).pace = s.pace ∧
      ((applyLeaderAck a b s).1).loss = s.loss ∧
      ((applyLeaderAck a b s).1).archive = s.archive ∧
      ((applyLeaderAck a b s).1).history = s.history ∧
      ((applyLeaderAck a b s).1).line = s.line ∧
      ((applyLeaderAck a b s).1).plant = s.plant ∧
      ((applyLeaderAck a b s).1).frame = s.frame ∧
      ((applyLeaderAck a b s).1).engine = s.engine ∧
      ((applyLeaderAck a b s).1).tiles = s.tiles ∧
      ((applyLeaderAck a b s).1).alert = s.alert ∧
      ((applyLeaderAck a b s).1).pending = s.pending := by
  unfold applyLeaderAck; (repeat' split) <;> simp

@[simp] theorem ackCallRule_keeps (a b : Nat) :
      ((applyAckCall a b s).1).conditions = s.conditions ∧
      ((applyAckCall a b s).1).straps = s.straps ∧
      ((applyAckCall a b s).1).pitch = s.pitch ∧
      ((applyAckCall a b s).1).layout = s.layout ∧
      ((applyAckCall a b s).1).stations = s.stations ∧
      ((applyAckCall a b s).1).tracker = s.tracker ∧
      ((applyAckCall a b s).1).timer = s.timer ∧
      ((applyAckCall a b s).1).pace = s.pace ∧
      ((applyAckCall a b s).1).loss = s.loss ∧
      ((applyAckCall a b s).1).archive = s.archive ∧
      ((applyAckCall a b s).1).history = s.history ∧
      ((applyAckCall a b s).1).line = s.line ∧
      ((applyAckCall a b s).1).plant = s.plant ∧
      ((applyAckCall a b s).1).frame = s.frame ∧
      ((applyAckCall a b s).1).engine = s.engine ∧
      ((applyAckCall a b s).1).tiles = s.tiles ∧
      ((applyAckCall a b s).1).alert = s.alert ∧
      ((applyAckCall a b s).1).pending = s.pending := by
  unfold applyAckCall; (repeat' split) <;> simp

@[simp] theorem countAdjustRule_keeps (d : Int) :
      ((applyCountAdjust d s).1).conditions = s.conditions ∧
      ((applyCountAdjust d s).1).straps = s.straps ∧
      ((applyCountAdjust d s).1).pitch = s.pitch ∧
      ((applyCountAdjust d s).1).layout = s.layout ∧
      ((applyCountAdjust d s).1).stations = s.stations ∧
      ((applyCountAdjust d s).1).callList = s.callList ∧
      ((applyCountAdjust d s).1).loss = s.loss ∧
      ((applyCountAdjust d s).1).history = s.history ∧
      ((applyCountAdjust d s).1).line = s.line ∧
      ((applyCountAdjust d s).1).frame = s.frame ∧
      ((applyCountAdjust d s).1).tiles = s.tiles ∧
      ((applyCountAdjust d s).1).alert = s.alert ∧
      ((applyCountAdjust d s).1).pending = s.pending := by
  unfold applyCountAdjust; split <;> simp

@[simp] theorem takeAddress_keeps (b : Byte) :
      (takeAddress b s).conditions = s.conditions ∧
      (takeAddress b s).straps = s.straps ∧
      (takeAddress b s).pitch = s.pitch ∧
      (takeAddress b s).layout = s.layout ∧
      (takeAddress b s).stations = s.stations ∧
      (takeAddress b s).tracker = s.tracker ∧
      (takeAddress b s).callList = s.callList ∧
      (takeAddress b s).timer = s.timer ∧
      (takeAddress b s).pace = s.pace ∧
      (takeAddress b s).loss = s.loss ∧
      (takeAddress b s).archive = s.archive ∧
      (takeAddress b s).history = s.history ∧
      (takeAddress b s).plant = s.plant ∧
      (takeAddress b s).frame = s.frame ∧
      (takeAddress b s).tiles = s.tiles ∧
      (takeAddress b s).alert = s.alert ∧
      (takeAddress b s).pending = s.pending := by
  unfold takeAddress; (repeat' split) <;> simp

@[simp] theorem endTransaction_keeps (b : List Byte) :
      (endTransaction b s).conditions = s.conditions ∧
      (endTransaction b s).straps = s.straps ∧
      (endTransaction b s).pitch = s.pitch ∧
      (endTransaction b s).layout = s.layout ∧
      (endTransaction b s).stations = s.stations ∧
      (endTransaction b s).tracker = s.tracker ∧
      (endTransaction b s).callList = s.callList ∧
      (endTransaction b s).timer = s.timer ∧
      (endTransaction b s).pace = s.pace ∧
      (endTransaction b s).loss = s.loss ∧
      (endTransaction b s).archive = s.archive ∧
      (endTransaction b s).history = s.history ∧
      (endTransaction b s).plant = s.plant ∧
      (endTransaction b s).frame = s.frame ∧
      (endTransaction b s).tiles = s.tiles ∧
      (endTransaction b s).alert = s.alert ∧
      (endTransaction b s).pending = s.pending := by
  unfold endTransaction judged; split
  · dsimp only; split <;> simp
  · simp

@[simp] theorem sclRises_keeps (sda : Bool) :
      (sclRises sda s).conditions = s.conditions ∧
      (sclRises sda s).straps = s.straps ∧
      (sclRises sda s).pitch = s.pitch ∧
      (sclRises sda s).layout = s.layout ∧
      (sclRises sda s).stations = s.stations ∧
      (sclRises sda s).tracker = s.tracker ∧
      (sclRises sda s).callList = s.callList ∧
      (sclRises sda s).timer = s.timer ∧
      (sclRises sda s).pace = s.pace ∧
      (sclRises sda s).loss = s.loss ∧
      (sclRises sda s).archive = s.archive ∧
      (sclRises sda s).history = s.history ∧
      (sclRises sda s).plant = s.plant ∧
      (sclRises sda s).frame = s.frame ∧
      (sclRises sda s).tiles = s.tiles ∧
      (sclRises sda s).alert = s.alert ∧
      (sclRises sda s).pending = s.pending := by
  unfold sclRises
  dsimp only
  split_ifs <;> simp [addressByteClocked]

@[simp] theorem lineEdge_keeps (e : LineEdge) :
      (lineEdge e s).conditions = s.conditions ∧
      (lineEdge e s).straps = s.straps ∧
      (lineEdge e s).pitch = s.pitch ∧
      (lineEdge e s).layout = s.layout ∧
      (lineEdge e s).stations = s.stations ∧
      (lineEdge e s).tracker = s.tracker ∧
      (lineEdge e s).callList = s.callList ∧
      (lineEdge e s).timer = s.timer ∧
      (lineEdge e s).pace = s.pace ∧
      (lineEdge e s).loss = s.loss ∧
      (lineEdge e s).archive = s.archive ∧
      (lineEdge e s).history = s.history ∧
      (lineEdge e s).plant = s.plant ∧
      (lineEdge e s).frame = s.frame ∧
      (lineEdge e s).tiles = s.tiles ∧
      (lineEdge e s).alert = s.alert ∧
      (lineEdge e s).pending = s.pending := by
  unfold lineEdge startTaken stopTaken
  (repeat' split) <;> simp

@[simp] theorem plantLinkSecond_keeps  :
      (plantLinkSecond s).conditions = s.conditions ∧
      (plantLinkSecond s).straps = s.straps ∧
      (plantLinkSecond s).pitch = s.pitch ∧
      (plantLinkSecond s).layout = s.layout ∧
      (plantLinkSecond s).stations = s.stations ∧
      (plantLinkSecond s).tracker = s.tracker ∧
      (plantLinkSecond s).callList = s.callList ∧
      (plantLinkSecond s).timer = s.timer ∧
      (plantLinkSecond s).pace = s.pace ∧
      (plantLinkSecond s).loss = s.loss ∧
      (plantLinkSecond s).archive = s.archive ∧
      (plantLinkSecond s).history = s.history ∧
      (plantLinkSecond s).line = s.line ∧
      (plantLinkSecond s).frame = s.frame ∧
      (plantLinkSecond s).tiles = s.tiles ∧
      (plantLinkSecond s).alert = s.alert ∧
      (plantLinkSecond s).pending = s.pending := by
  simp [plantLinkSecond]

@[simp] theorem csFalls_keeps  :
      (csFalls s).conditions = s.conditions ∧
      (csFalls s).straps = s.straps ∧
      (csFalls s).pitch = s.pitch ∧
      (csFalls s).layout = s.layout ∧
      (csFalls s).stations = s.stations ∧
      (csFalls s).tracker = s.tracker ∧
      (csFalls s).callList = s.callList ∧
      (csFalls s).timer = s.timer ∧
      (csFalls s).pace = s.pace ∧
      (csFalls s).loss = s.loss ∧
      (csFalls s).archive = s.archive ∧
      (csFalls s).history = s.history ∧
      (csFalls s).line = s.line ∧
      (csFalls s).frame = s.frame ∧
      (csFalls s).engine = s.engine ∧
      (csFalls s).tiles = s.tiles ∧
      (csFalls s).alert = s.alert ∧
      (csFalls s).pending = s.pending := by
  unfold csFalls; split <;> simp

@[simp] theorem csRises_keeps (n : Nat) :
      (csRises n s).conditions = s.conditions ∧
      (csRises n s).straps = s.straps ∧
      (csRises n s).pitch = s.pitch ∧
      (csRises n s).layout = s.layout ∧
      (csRises n s).stations = s.stations ∧
      (csRises n s).tracker = s.tracker ∧
      (csRises n s).callList = s.callList ∧
      (csRises n s).timer = s.timer ∧
      (csRises n s).pace = s.pace ∧
      (csRises n s).loss = s.loss ∧
      (csRises n s).archive = s.archive ∧
      (csRises n s).history = s.history ∧
      (csRises n s).line = s.line ∧
      (csRises n s).frame = s.frame ∧
      (csRises n s).engine = s.engine ∧
      (csRises n s).tiles = s.tiles ∧
      (csRises n s).alert = s.alert ∧
      (csRises n s).pending = s.pending := by
  simp [csRises]

@[simp] theorem setPlantClock_keeps (c : PlantClock) :
      (setPlantClock c s).conditions = s.conditions ∧
      (setPlantClock c s).straps = s.straps ∧
      (setPlantClock c s).pitch = s.pitch ∧
      (setPlantClock c s).layout = s.layout ∧
      (setPlantClock c s).stations = s.stations ∧
      (setPlantClock c s).tracker = s.tracker ∧
      (setPlantClock c s).callList = s.callList ∧
      (setPlantClock c s).timer = s.timer ∧
      (setPlantClock c s).pace = s.pace ∧
      (setPlantClock c s).loss = s.loss ∧
      (setPlantClock c s).archive = s.archive ∧
      (setPlantClock c s).history = s.history ∧
      (setPlantClock c s).line = s.line ∧
      (setPlantClock c s).frame = s.frame ∧
      (setPlantClock c s).engine = s.engine ∧
      (setPlantClock c s).tiles = s.tiles ∧
      (setPlantClock c s).alert = s.alert ∧
      (setPlantClock c s).pending = s.pending := by
  simp [setPlantClock]

@[simp] theorem unknownCode_keeps (b : Byte) :
      (unknownCode b s).conditions = s.conditions ∧
      (unknownCode b s).straps = s.straps ∧
      (unknownCode b s).pitch = s.pitch ∧
      (unknownCode b s).layout = s.layout ∧
      (unknownCode b s).stations = s.stations ∧
      (unknownCode b s).tracker = s.tracker ∧
      (unknownCode b s).callList = s.callList ∧
      (unknownCode b s).timer = s.timer ∧
      (unknownCode b s).pace = s.pace ∧
      (unknownCode b s).loss = s.loss ∧
      (unknownCode b s).archive = s.archive ∧
      (unknownCode b s).history = s.history ∧
      (unknownCode b s).line = s.line ∧
      (unknownCode b s).frame = s.frame ∧
      (unknownCode b s).engine = s.engine ∧
      (unknownCode b s).tiles = s.tiles ∧
      (unknownCode b s).alert = s.alert ∧
      (unknownCode b s).pending = s.pending := by
  unfold unknownCode; split <;> simp

@[simp] theorem argumentsFollow_keeps (b : Byte) :
      (argumentsFollow b s).conditions = s.conditions ∧
      (argumentsFollow b s).straps = s.straps ∧
      (argumentsFollow b s).pitch = s.pitch ∧
      (argumentsFollow b s).layout = s.layout ∧
      (argumentsFollow b s).stations = s.stations ∧
      (argumentsFollow b s).tracker = s.tracker ∧
      (argumentsFollow b s).callList = s.callList ∧
      (argumentsFollow b s).timer = s.timer ∧
      (argumentsFollow b s).pace = s.pace ∧
      (argumentsFollow b s).loss = s.loss ∧
      (argumentsFollow b s).archive = s.archive ∧
      (argumentsFollow b s).history = s.history ∧
      (argumentsFollow b s).line = s.line ∧
      (argumentsFollow b s).frame = s.frame ∧
      (argumentsFollow b s).tiles = s.tiles ∧
      (argumentsFollow b s).alert = s.alert ∧
      (argumentsFollow b s).pending = s.pending := by
  unfold argumentsFollow; (repeat' split) <;> simp

@[simp] theorem captureStatus_keeps  :
      (captureStatus s).conditions = s.conditions ∧
      (captureStatus s).straps = s.straps ∧
      (captureStatus s).pitch = s.pitch ∧
      (captureStatus s).layout = s.layout ∧
      (captureStatus s).stations = s.stations ∧
      (captureStatus s).tracker = s.tracker ∧
      (captureStatus s).callList = s.callList ∧
      (captureStatus s).timer = s.timer ∧
      (captureStatus s).pace = s.pace ∧
      (captureStatus s).loss = s.loss ∧
      (captureStatus s).archive = s.archive ∧
      (captureStatus s).history = s.history ∧
      (captureStatus s).line = s.line ∧
      (captureStatus s).frame = s.frame ∧
      (captureStatus s).engine = s.engine ∧
      (captureStatus s).tiles = s.tiles ∧
      (captureStatus s).alert = s.alert ∧
      (captureStatus s).pending = s.pending := by
  unfold captureStatus; (repeat' split) <;> simp

@[simp] theorem captureStation_keeps  :
      (captureStation s).conditions = s.conditions ∧
      (captureStation s).straps = s.straps ∧
      (captureStation s).pitch = s.pitch ∧
      (captureStation s).layout = s.layout ∧
      (captureStation s).stations = s.stations ∧
      (captureStation s).tracker = s.tracker ∧
      (captureStation s).callList = s.callList ∧
      (captureStation s).timer = s.timer ∧
      (captureStation s).pace = s.pace ∧
      (captureStation s).loss = s.loss ∧
      (captureStation s).archive = s.archive ∧
      (captureStation s).history = s.history ∧
      (captureStation s).line = s.line ∧
      (captureStation s).frame = s.frame ∧
      (captureStation s).engine = s.engine ∧
      (captureStation s).tiles = s.tiles ∧
      (captureStation s).alert = s.alert ∧
      (captureStation s).pending = s.pending := by
  unfold captureStation; (repeat' split) <;> simp

@[simp] theorem beginCallSlot_keeps  :
      (beginCallSlot s).conditions = s.conditions ∧
      (beginCallSlot s).straps = s.straps ∧
      (beginCallSlot s).pitch = s.pitch ∧
      (beginCallSlot s).layout = s.layout ∧
      (beginCallSlot s).stations = s.stations ∧
      (beginCallSlot s).tracker = s.tracker ∧
      (beginCallSlot s).callList = s.callList ∧
      (beginCallSlot s).timer = s.timer ∧
      (beginCallSlot s).pace = s.pace ∧
      (beginCallSlot s).loss = s.loss ∧
      (beginCallSlot s).archive = s.archive ∧
      (beginCallSlot s).history = s.history ∧
      (beginCallSlot s).line = s.line ∧
      (beginCallSlot s).frame = s.frame ∧
      (beginCallSlot s).engine = s.engine ∧
      (beginCallSlot s).tiles = s.tiles ∧
      (beginCallSlot s).alert = s.alert ∧
      (beginCallSlot s).pending = s.pending := by
  unfold beginCallSlot; (repeat' split) <;> simp

@[simp] theorem capturePace_keeps  :
      (capturePace s).conditions = s.conditions ∧
      (capturePace s).straps = s.straps ∧
      (capturePace s).pitch = s.pitch ∧
      (capturePace s).layout = s.layout ∧
      (capturePace s).stations = s.stations ∧
      (capturePace s).tracker = s.tracker ∧
      (capturePace s).callList = s.callList ∧
      (capturePace s).timer = s.timer ∧
      (capturePace s).pace = s.pace ∧
      (capturePace s).loss = s.loss ∧
      (capturePace s).archive = s.archive ∧
      (capturePace s).history = s.history ∧
      (capturePace s).line = s.line ∧
      (capturePace s).frame = s.frame ∧
      (capturePace s).engine = s.engine ∧
      (capturePace s).tiles = s.tiles ∧
      (capturePace s).alert = s.alert ∧
      (capturePace s).pending = s.pending := by
  unfold capturePace; (repeat' split) <;> simp

@[simp] theorem captureLossEntry_keeps  :
      (captureLossEntry s).conditions = s.conditions ∧
      (captureLossEntry s).straps = s.straps ∧
      (captureLossEntry s).pitch = s.pitch ∧
      (captureLossEntry s).layout = s.layout ∧
      (captureLossEntry s).stations = s.stations ∧
      (captureLossEntry s).tracker = s.tracker ∧
      (captureLossEntry s).callList = s.callList ∧
      (captureLossEntry s).timer = s.timer ∧
      (captureLossEntry s).pace = s.pace ∧
      (captureLossEntry s).loss = s.loss ∧
      (captureLossEntry s).archive = s.archive ∧
      (captureLossEntry s).history = s.history ∧
      (captureLossEntry s).line = s.line ∧
      (captureLossEntry s).frame = s.frame ∧
      (captureLossEntry s).engine = s.engine ∧
      (captureLossEntry s).tiles = s.tiles ∧
      (captureLossEntry s).alert = s.alert ∧
      (captureLossEntry s).pending = s.pending := by
  unfold captureLossEntry; (repeat' split) <;> simp

@[simp] theorem beginHistorySlot_keeps  :
      (beginHistorySlot s).conditions = s.conditions ∧
      (beginHistorySlot s).straps = s.straps ∧
      (beginHistorySlot s).pitch = s.pitch ∧
      (beginHistorySlot s).layout = s.layout ∧
      (beginHistorySlot s).stations = s.stations ∧
      (beginHistorySlot s).tracker = s.tracker ∧
      (beginHistorySlot s).callList = s.callList ∧
      (beginHistorySlot s).timer = s.timer ∧
      (beginHistorySlot s).pace = s.pace ∧
      (beginHistorySlot s).loss = s.loss ∧
      (beginHistorySlot s).archive = s.archive ∧
      (beginHistorySlot s).history = s.history ∧
      (beginHistorySlot s).line = s.line ∧
      (beginHistorySlot s).frame = s.frame ∧
      (beginHistorySlot s).engine = s.engine ∧
      (beginHistorySlot s).tiles = s.tiles ∧
      (beginHistorySlot s).alert = s.alert ∧
      (beginHistorySlot s).pending = s.pending := by
  unfold beginHistorySlot; (repeat' split) <;> simp

@[simp] theorem beginPixel_keeps  :
      (beginPixel s).conditions = s.conditions ∧
      (beginPixel s).straps = s.straps ∧
      (beginPixel s).pitch = s.pitch ∧
      (beginPixel s).layout = s.layout ∧
      (beginPixel s).stations = s.stations ∧
      (beginPixel s).tracker = s.tracker ∧
      (beginPixel s).callList = s.callList ∧
      (beginPixel s).timer = s.timer ∧
      (beginPixel s).pace = s.pace ∧
      (beginPixel s).loss = s.loss ∧
      (beginPixel s).archive = s.archive ∧
      (beginPixel s).history = s.history ∧
      (beginPixel s).line = s.line ∧
      (beginPixel s).frame = s.frame ∧
      (beginPixel s).engine = s.engine ∧
      (beginPixel s).tiles = s.tiles ∧
      (beginPixel s).alert = s.alert ∧
      (beginPixel s).pending = s.pending := by
  unfold beginPixel; (repeat' split) <;> simp

@[simp] theorem capturePresence_keeps  :
      (capturePresence s).conditions = s.conditions ∧
      (capturePresence s).straps = s.straps ∧
      (capturePresence s).pitch = s.pitch ∧
      (capturePresence s).layout = s.layout ∧
      (capturePresence s).stations = s.stations ∧
      (capturePresence s).tracker = s.tracker ∧
      (capturePresence s).callList = s.callList ∧
      (capturePresence s).timer = s.timer ∧
      (capturePresence s).pace = s.pace ∧
      (capturePresence s).loss = s.loss ∧
      (capturePresence s).archive = s.archive ∧
      (capturePresence s).history = s.history ∧
      (capturePresence s).line = s.line ∧
      (capturePresence s).frame = s.frame ∧
      (capturePresence s).engine = s.engine ∧
      (capturePresence s).tiles = s.tiles ∧
      (capturePresence s).alert = s.alert ∧
      (capturePresence s).pending = s.pending := by
  unfold capturePresence; (repeat' split) <;> simp

@[simp] theorem flagByteSent_keeps  :
      (flagByteSent s).conditions = s.conditions ∧
      (flagByteSent s).straps = s.straps ∧
      (flagByteSent s).pitch = s.pitch ∧
      (flagByteSent s).layout = s.layout ∧
      (flagByteSent s).stations = s.stations ∧
      (flagByteSent s).tracker = s.tracker ∧
      (flagByteSent s).callList = s.callList ∧
      (flagByteSent s).timer = s.timer ∧
      (flagByteSent s).pace = s.pace ∧
      (flagByteSent s).loss = s.loss ∧
      (flagByteSent s).archive = s.archive ∧
      (flagByteSent s).history = s.history ∧
      (flagByteSent s).line = s.line ∧
      (flagByteSent s).frame = s.frame ∧
      (flagByteSent s).engine = s.engine ∧
      (flagByteSent s).tiles = s.tiles ∧
      (flagByteSent s).alert = s.alert ∧
      (flagByteSent s).pending = s.pending := by
  unfold flagByteSent; (repeat' split) <;> simp

@[simp] theorem captureSummary_keeps  :
      (captureSummary s).conditions = s.conditions ∧
      (captureSummary s).straps = s.straps ∧
      (captureSummary s).pitch = s.pitch ∧
      (captureSummary s).layout = s.layout ∧
      (captureSummary s).stations = s.stations ∧
      (captureSummary s).tracker = s.tracker ∧
      (captureSummary s).callList = s.callList ∧
      (captureSummary s).timer = s.timer ∧
      (captureSummary s).pace = s.pace ∧
      (captureSummary s).loss = s.loss ∧
      (captureSummary s).archive = s.archive ∧
      (captureSummary s).history = s.history ∧
      (captureSummary s).line = s.line ∧
      (captureSummary s).frame = s.frame ∧
      (captureSummary s).engine = s.engine ∧
      (captureSummary s).tiles = s.tiles ∧
      (captureSummary s).alert = s.alert ∧
      (captureSummary s).pending = s.pending := by
  unfold captureSummary; dsimp only; split <;> simp

@[simp] theorem endHistorySlot_keeps  :
      (endHistorySlot s).conditions = s.conditions ∧
      (endHistorySlot s).straps = s.straps ∧
      (endHistorySlot s).pitch = s.pitch ∧
      (endHistorySlot s).layout = s.layout ∧
      (endHistorySlot s).stations = s.stations ∧
      (endHistorySlot s).tracker = s.tracker ∧
      (endHistorySlot s).callList = s.callList ∧
      (endHistorySlot s).timer = s.timer ∧
      (endHistorySlot s).pace = s.pace ∧
      (endHistorySlot s).loss = s.loss ∧
      (endHistorySlot s).archive = s.archive ∧
      (endHistorySlot s).history = s.history ∧
      (endHistorySlot s).line = s.line ∧
      (endHistorySlot s).frame = s.frame ∧
      (endHistorySlot s).engine = s.engine ∧
      (endHistorySlot s).tiles = s.tiles ∧
      (endHistorySlot s).alert = s.alert ∧
      (endHistorySlot s).pending = s.pending := by
  unfold endHistorySlot; dsimp only; split <;> simp

@[simp] theorem endPixel_keeps  :
      (endPixel s).conditions = s.conditions ∧
      (endPixel s).straps = s.straps ∧
      (endPixel s).pitch = s.pitch ∧
      (endPixel s).layout = s.layout ∧
      (endPixel s).stations = s.stations ∧
      (endPixel s).tracker = s.tracker ∧
      (endPixel s).callList = s.callList ∧
      (endPixel s).timer = s.timer ∧
      (endPixel s).pace = s.pace ∧
      (endPixel s).loss = s.loss ∧
      (endPixel s).archive = s.archive ∧
      (endPixel s).history = s.history ∧
      (endPixel s).line = s.line ∧
      (endPixel s).engine = s.engine ∧
      (endPixel s).tiles = s.tiles ∧
      (endPixel s).alert = s.alert ∧
      (endPixel s).pending = s.pending := by
  unfold endPixel; split <;> simp

@[simp] theorem scrollSecond_keeps  :
      (scrollSecond s).conditions = s.conditions ∧
      (scrollSecond s).straps = s.straps ∧
      (scrollSecond s).pitch = s.pitch ∧
      (scrollSecond s).layout = s.layout ∧
      (scrollSecond s).stations = s.stations ∧
      (scrollSecond s).tracker = s.tracker ∧
      (scrollSecond s).callList = s.callList ∧
      (scrollSecond s).timer = s.timer ∧
      (scrollSecond s).pace = s.pace ∧
      (scrollSecond s).loss = s.loss ∧
      (scrollSecond s).archive = s.archive ∧
      (scrollSecond s).history = s.history ∧
      (scrollSecond s).line = s.line ∧
      (scrollSecond s).plant = s.plant ∧
      (scrollSecond s).frame = s.frame ∧
      (scrollSecond s).tiles = s.tiles ∧
      (scrollSecond s).alert = s.alert ∧
      (scrollSecond s).pending = s.pending := by
  unfold scrollSecond; (repeat' split) <;> simp

@[simp] theorem scrollStep_keeps  :
      (scrollStep s).conditions = s.conditions ∧
      (scrollStep s).straps = s.straps ∧
      (scrollStep s).pitch = s.pitch ∧
      (scrollStep s).layout = s.layout ∧
      (scrollStep s).stations = s.stations ∧
      (scrollStep s).tracker = s.tracker ∧
      (scrollStep s).callList = s.callList ∧
      (scrollStep s).timer = s.timer ∧
      (scrollStep s).pace = s.pace ∧
      (scrollStep s).loss = s.loss ∧
      (scrollStep s).archive = s.archive ∧
      (scrollStep s).history = s.history ∧
      (scrollStep s).line = s.line ∧
      (scrollStep s).plant = s.plant ∧
      (scrollStep s).frame = s.frame ∧
      (scrollStep s).tiles = s.tiles ∧
      (scrollStep s).alert = s.alert ∧
      (scrollStep s).pending = s.pending := by
  unfold scrollStep; dsimp only; (repeat' split) <;> simp

@[simp] theorem toggleFlash_keeps  :
      (toggleFlash s).conditions = s.conditions ∧
      (toggleFlash s).straps = s.straps ∧
      (toggleFlash s).pitch = s.pitch ∧
      (toggleFlash s).layout = s.layout ∧
      (toggleFlash s).stations = s.stations ∧
      (toggleFlash s).tracker = s.tracker ∧
      (toggleFlash s).callList = s.callList ∧
      (toggleFlash s).timer = s.timer ∧
      (toggleFlash s).pace = s.pace ∧
      (toggleFlash s).loss = s.loss ∧
      (toggleFlash s).archive = s.archive ∧
      (toggleFlash s).history = s.history ∧
      (toggleFlash s).line = s.line ∧
      (toggleFlash s).plant = s.plant ∧
      (toggleFlash s).frame = s.frame ∧
      (toggleFlash s).tiles = s.tiles ∧
      (toggleFlash s).alert = s.alert ∧
      (toggleFlash s).pending = s.pending := by
  simp [toggleFlash]

@[simp] theorem completePass_keeps (i : Fin 8) :
      (completePass i s).conditions = s.conditions ∧
      (completePass i s).straps = s.straps ∧
      (completePass i s).pitch = s.pitch ∧
      (completePass i s).layout = s.layout ∧
      (completePass i s).stations = s.stations ∧
      (completePass i s).tracker = s.tracker ∧
      (completePass i s).callList = s.callList ∧
      (completePass i s).timer = s.timer ∧
      (completePass i s).pace = s.pace ∧
      (completePass i s).loss = s.loss ∧
      (completePass i s).archive = s.archive ∧
      (completePass i s).history = s.history ∧
      (completePass i s).line = s.line ∧
      (completePass i s).plant = s.plant ∧
      (completePass i s).tiles = s.tiles ∧
      (completePass i s).alert = s.alert ∧
      (completePass i s).pending = s.pending := by
  unfold completePass; dsimp only; split <;> simp

@[simp] theorem rampExpires_keeps  :
      (rampExpires s).conditions = s.conditions ∧
      (rampExpires s).straps = s.straps ∧
      (rampExpires s).pitch = s.pitch ∧
      (rampExpires s).layout = s.layout ∧
      (rampExpires s).stations = s.stations ∧
      (rampExpires s).tracker = s.tracker ∧
      (rampExpires s).callList = s.callList ∧
      (rampExpires s).timer = s.timer ∧
      (rampExpires s).pace = s.pace ∧
      (rampExpires s).loss = s.loss ∧
      (rampExpires s).archive = s.archive ∧
      (rampExpires s).history = s.history ∧
      (rampExpires s).line = s.line ∧
      (rampExpires s).plant = s.plant ∧
      (rampExpires s).frame = s.frame ∧
      (rampExpires s).engine = s.engine ∧
      (rampExpires s).alert = s.alert ∧
      (rampExpires s).pending = s.pending := by
  unfold rampExpires; split <;> simp

@[simp] theorem giveXalert_keeps (m : LevelMoment) :
      (giveXalert m s).conditions = s.conditions ∧
      (giveXalert m s).straps = s.straps ∧
      (giveXalert m s).pitch = s.pitch ∧
      (giveXalert m s).layout = s.layout ∧
      (giveXalert m s).stations = s.stations ∧
      (giveXalert m s).tracker = s.tracker ∧
      (giveXalert m s).callList = s.callList ∧
      (giveXalert m s).timer = s.timer ∧
      (giveXalert m s).pace = s.pace ∧
      (giveXalert m s).loss = s.loss ∧
      (giveXalert m s).archive = s.archive ∧
      (giveXalert m s).history = s.history ∧
      (giveXalert m s).line = s.line ∧
      (giveXalert m s).plant = s.plant ∧
      (giveXalert m s).frame = s.frame ∧
      (giveXalert m s).tiles = s.tiles ∧
      (giveXalert m s).pending = s.pending := by
  unfold giveXalert; dsimp only; simp

end Sys2Proof.Machine
end

