-- ==== Sys2Proof/Laws/Events.lean ====
section
/-! SUPPORT. How events are taken: the next state of each kind of event, and what a frame of the queue, a
command or a read keeps, for any property its rule keeps. -/

namespace Sys2Proof.Machine

/-! ### Hard reset (R178) -/

/-- Hard reset is in force while either condition holds. -/
theorem inReset_iff (s : State) :
    s.inReset = true ↔ s.conditions.supplyLow = true ∨ s.conditions.rstnLow = true := by simp [State.inReset]

theorem inReset_congr {s t : State} (h : t.conditions = s.conditions) : t.inReset = s.inReset := by
  simp only [State.inReset, h]

/-- A LOW on RSTn that ends before its 10 µs leaves the conditions as they were with no LOW timed. -/
theorem rstn_short_rejected (c : ResetConditions) (h : c.rstnLow = false) :
    (c.after .rstnFalls).without .rstn = { c with rstnTimed := false } := by
  simp [ResetConditions.after, ResetConditions.without, h]

/-- RSTn LOW taken whole is what its fall and the 10 µs give. -/
theorem rstn_is_fall_held (c : ResetConditions) : (c.after .rstnFalls).after .rstnHeld = c.after .rstn := by
  simp [ResetConditions.after]

/-- What a moment of HARD_RESET gives. -/
theorem execHardReset_next (input : ResetInput) (s : State) :
    execHardReset s input = .next (
      let c := s.conditions.after input
      if c.supplyLow = true ∨ c.rstnLow = true then .held c s.straps s.pending else { s with conditions := c }) := by
  simp [execHardReset, State.inReset]

/-- What END_OF_HARD_RESET gives: the end of the reset where it was in force and no condition is left. -/
theorem execEndOfHardReset_next (adr : BitVec 3) (tst : BitVec 2) (xtal : Bool) (gone : ResetEnd) (s : State) :
    execEndOfHardReset adr tst xtal s gone = .next (
      let c := s.conditions.without gone
      if s.inReset = true ∧ c.supplyLow = false ∧ c.rstnLow = false then
        endReset adr tst xtal { s with conditions := c }
      else { s with conditions := c }) := by
  simp [execEndOfHardReset, State.inReset]

/-! ### Events -/

theorem running_next (f : State → State) (s : State) (h : s.inReset = false) : running f s = .next (f s) := by
  simp [running, h]

theorem running_held (f : State → State) (s : State) (h : s.inReset = true) : running f s = .next s := by
  simp [running, h]

theorem event_next (f : State → State) (s : State) (h : s.inReset = false) :
    event f s = .next (serve (f s)) := running_next _ s h

theorem event_held (f : State → State) (s : State) (h : s.inReset = true) : event f s = .next s :=
  running_held _ s h

theorem centreEvent_next (f : State → State) (s : State) (h : s.inReset = false) :
    centreEvent f s = .next (serve (decideAlert s (f s))) :=
  event_next (fun s => decideAlert s (f s)) s h

theorem centreEvent_held (f : State → State) (s : State) (h : s.inReset = true) : centreEvent f s = .next s :=
  event_held (fun s => decideAlert s (f s)) s h

/-- A property kept by an event's function and by serving is kept by the event. -/
theorem event_keeps {I : State → Prop} {f : State → State} (hf : ∀ s, I s → I (f s))
    (hs : ∀ s, I s → I (serve s)) {s t : State} (h : I s) (e : event f s = .next t) : I t := by
  cases hr : s.inReset with
  | true => rw [event_held f s hr] at e; cases e; exact h
  | false => rw [event_next f s hr] at e; cases e; exact hs _ (hf _ h)

/-- The same for an event of the centre, whose alert decision keeps the property too. -/
theorem centreEvent_keeps {I : State → Prop} {f : State → State} (hf : ∀ s, I s → I (f s))
    (hd : ∀ old s, I s → I (decideAlert old s)) (hs : ∀ s, I s → I (serve s)) {s t : State} (h : I s)
    (e : centreEvent f s = .next t) : I t := by
  cases hr : s.inReset with
  | true => rw [centreEvent_held f s hr] at e; cases e; exact h
  | false => rw [centreEvent_next f s hr] at e; cases e; exact hs _ (hd _ _ (hf _ h))

/-! ### Requests -/

/-- After serving, no request is latched. -/
@[simp] theorem serve_requests (s : State) : (serve s).engine.requests = .none := rfl

/-- Serving changes the engine's latch and render states alone. -/
theorem serve_engine (s : State) :
    { (serve s).engine with regions := s.engine.regions, requests := s.engine.requests } = s.engine := rfl

/-- A region's render state after serving (R159). -/
theorem serve_region (s : State) (i : Fin 8) :
    (serve s).engine.regions.at_ i =
      if (s.engine.regions.at_ i).enabled && s.engine.requests.has (s.engine.regions.at_ i).role then
        { s.engine.regions.at_ i with render := s.requested (s.engine.regions.at_ i) }
      else s.engine.regions.at_ i := by
  show (Tab.tab _).at_ i = _
  rw [Tab.at_tab]

/-- No role is requested where none is latched. -/
@[simp] theorem none_has (r : Role) : Requests.none.has r = false := by cases r <;> rfl

/-- With nothing latched there is nothing to serve. -/
theorem serve_quiet (s : State) (h : s.engine.requests = .none) : serve s = s := by
  have e : (Tab.tab fun i =>
      if (s.engine.regions.at_ i).enabled && s.engine.requests.has (s.engine.regions.at_ i).role then
        { s.engine.regions.at_ i with render := s.requested (s.engine.regions.at_ i) }
      else s.engine.regions.at_ i) = s.engine.regions := by
    apply Tab.ext_at
    intro i
    simp [h]
  cases s with
  | mk _ _ _ _ _ _ _ _ _ _ _ _ _ _ _ engine _ _ _ =>
    cases engine
    simp only [serve, State.onEngine]
    simp only at h e
    rw [e, h]

/-- An added role is latched, whatever was. -/
theorem has_add (q : Requests) (r r' : Role) :
    (q.add r).has r' = (q.has r' || (decide (r = r') && r.isEngine)) := by
  cases r <;> cases r' <;> simp [Requests.add, Requests.has, Role.isEngine]

/-- A region of an engine role gets a pass where it is requested (R159, R160). -/
theorem requested_ne_idle (s : State) (r : Region) (h : r.role.isEngine = true) : s.requested r ≠ .idle := by
  unfold State.requested
  split
  · unfold State.startedPass
    cases hr : r.role <;> simp_all [State.captureFor, Role.isEngine]
  · simp

/-! ### Frames, commands and reads -/

/-- A property that the rule of a frame keeps, and that does not look at the Line Port, is kept as the frame
leaves the queue. -/
theorem takeFrame_keeps {I : State → Prop} {rule : FrameRule} (hl : ∀ s f, I s → I (s.onLine f))
    (hr : ∀ fr apply, rule fr = some apply → ∀ s, I s → I (apply s).1) (s : State) (h : I s) :
    I (takeFrame rule s) := by
  unfold takeFrame
  split
  · exact h
  · split
    · exact h
    · rename_i e
      exact hl _ _ (hr _ _ e _ (hl _ _ h))

/-- A property that looks at neither the Plant Port nor the engine is kept where a command is decoded. -/
theorem decoded_keeps {I : State → Prop} (hp : ∀ s l, I s → I (setPlantLink l s)) (hs : ∀ s, I s → I (serve s))
    {s t : State} {c : PlantCommand} (h : I s) (e : s.decoded c = some t) : I t := by
  unfold State.decoded at e
  split at e
  · cases e
    unfold commandByteTaken restartPlantLink
    split
    · exact hp _ _ h
    · exact hs _ (hp _ _ h)
  · split at e
    · cases e; exact h
    · cases e
  all_goals cases e

/-- A property that the rule of a command keeps, and that looks at neither the Plant Port nor the engine's
passes, is kept as the command is taken. -/
theorem takeCommand_keeps {I : State → Prop} {c : PlantCommand} {rule : CommandRule}
    (hp : ∀ s l, I s → I (setPlantLink l s)) (hs : ∀ s, I s → I (serve s)) (ho : ∀ s f, I s → I (s.onPlant f))
    (hr : ∀ s, I s → I (rule s).1) (s : State) (h : I s) : I (takeCommand c rule s) := by
  unfold takeCommand
  split
  · exact h
  · rename_i e
    exact ho _ _ (ho _ _ (hr _ (decoded_keeps hp hs h e)))

/-- The same for a read. -/
theorem takeRead_keeps {I : State → Prop} {c : PlantCommand} {reply : State → Transaction}
    (hp : ∀ s l, I s → I (setPlantLink l s)) (hs : ∀ s, I s → I (serve s)) (ho : ∀ s f, I s → I (s.onPlant f))
    (s : State) (h : I s) : I (takeRead c reply s) := by
  unfold takeRead
  split
  · exact h
  · rename_i e
    exact ho _ _ (decoded_keeps hp hs h e)

/-! ### The step -/

/-- A property of the state without its queue that the tick and every command keep is kept by the step. -/
theorem step_keeps {I : State → Prop} (hq : ∀ s q, I s → I { s with pending := q }) (ht : ∀ s, I s → I (tick s))
    (he : ∀ c s t, I s → exec c s = .next t → I t) {s t : State} (h : I s) (e : step s = .next t) : I t := by
  unfold step at e
  split at e
  · cases e; exact ht _ h
  · exact he _ _ _ (hq _ _ h) e

end Sys2Proof.Machine
end

