-- ==== Sys2Proof/Laws/Commands.lean ====
section
/-! SUPPORT. The frame of every command, block by block: what each leaves unchanged whenever it answers a next
state. -/

namespace Sys2Proof.Machine

/-- What an event's function and serving leave unchanged, the event does. -/
theorem event_proj {α : Type} (φ : State → α) {f : State → State} (hf : ∀ s, φ (f s) = φ s)
    (hs : ∀ s, φ (serve s) = φ s) {s t : State} (e : event f s = .next t) : φ t = φ s :=
  event_keeps (I := fun x => φ x = φ s) (fun x h => (hf x).trans h) (fun x h => (hs x).trans h) rfl e

/-- The same for an event of the centre. -/
theorem centreEvent_proj {α : Type} (φ : State → α) {f : State → State} (hf : ∀ s, φ (f s) = φ s)
    (hd : ∀ old s, φ (decideAlert old s) = φ s) (hs : ∀ s, φ (serve s) = φ s) {s t : State}
    (e : centreEvent f s = .next t) : φ t = φ s :=
  centreEvent_keeps (I := fun x => φ x = φ s) (fun x h => (hf x).trans h) (fun o x h => (hd o x).trans h)
    (fun x h => (hs x).trans h) rfl e

/-- What a command's rule and the framing leave unchanged, taking it does. -/
theorem takeCommand_proj {α : Type} (φ : State → α) {c : PlantCommand} {rule : CommandRule}
    (hp : ∀ s l, φ (setPlantLink l s) = φ s) (hs : ∀ s, φ (serve s) = φ s) (ho : ∀ s f, φ (s.onPlant f) = φ s)
    (hr : ∀ s, φ (rule s).1 = φ s) (s : State) : φ (takeCommand c rule s) = φ s :=
  takeCommand_keeps (I := fun x => φ x = φ s) (fun x l h => (hp x l).trans h) (fun x h => (hs x).trans h)
    (fun x f h => (ho x f).trans h) (fun x h => (hr x).trans h) s rfl

/-- The same for a read. -/
theorem takeRead_proj {α : Type} (φ : State → α) {c : PlantCommand} {reply : State → Transaction}
    (hp : ∀ s l, φ (setPlantLink l s) = φ s) (hs : ∀ s, φ (serve s) = φ s) (ho : ∀ s f, φ (s.onPlant f) = φ s)
    (s : State) : φ (takeRead c reply s) = φ s :=
  takeRead_keeps (I := fun x => φ x = φ s) (fun x l h => (hp x l).trans h) (fun x h => (hs x).trans h)
    (fun x f h => (ho x f).trans h) s rfl

/-- The same for a frame of the queue. -/
theorem takeFrame_proj {α : Type} (φ : State → α) {rule : FrameRule} (hl : ∀ s f, φ (s.onLine f) = φ s)
    (hr : ∀ fr apply, rule fr = some apply → ∀ s, φ (apply s).1 = φ s) (s : State) :
    φ (takeFrame rule s) = φ s :=
  takeFrame_keeps (I := fun x => φ x = φ s) (fun x f h => (hl x f).trans h)
    (fun fr a e x h => (hr fr a e x).trans h) s rfl

/-- What decoding leaves unchanged. -/
theorem decoded_proj {α : Type} (φ : State → α) (hp : ∀ s l, φ (setPlantLink l s) = φ s)
    (hs : ∀ s, φ (serve s) = φ s) {s t : State} {c : PlantCommand} (e : s.decoded c = some t) : φ t = φ s :=
  decoded_keeps (I := fun x => φ x = φ s) (fun x l h => (hp x l).trans h) (fun x h => (hs x).trans h) rfl e


/-- What taking an origin leaves unchanged. -/
theorem takeOrigin_proj {α : Type} (φ : State → α) {n : Nat} (hp : ∀ s l, φ (setPlantLink l s) = φ s)
    (hs : ∀ s, φ (serve s) = φ s) (ho : ∀ s f, φ (s.onPlant f) = φ s) (hf : ∀ s f, φ (s.onFrame f) = φ s)
    (s : State) : φ (takeOrigin n s) = φ s := by
  unfold takeOrigin
  split
  · rfl
  · rename_i e
    have h := decoded_proj φ hp hs e
    split
    · exact ((ho _ _).trans (ho _ _)).trans h
    · split
      · exact ((ho _ _).trans (hf _ _)).trans h
      · exact ((ho _ _).trans (hf _ _)).trans h

/-- What taking READ PIXELS leaves unchanged. -/
theorem takeReadPixels_proj {α : Type} (φ : State → α) (hp : ∀ s l, φ (setPlantLink l s) = φ s)
    (hs : ∀ s, φ (serve s) = φ s) (ho : ∀ s f, φ (s.onPlant f) = φ s) (hf : ∀ s f, φ (s.onFrame f) = φ s)
    (s : State) : φ (takeReadPixels s) = φ s := by
  unfold takeReadPixels
  split
  · rfl
  · rename_i e
    exact ((ho _ _).trans (hf _ _)).trans (decoded_proj φ hp hs e)

/-- What a pixel group leaves unchanged. -/
theorem applyGroup_proj {α : Type} (φ : State → α) {bytes : List Byte} (hw : ∀ s p, φ (writePixel s p) = φ s)
    (s : State) : φ (applyGroup bytes s) = φ s := by
  have fold (ps : List Pixel) (s : State) : φ (ps.foldl writePixel s) = φ s := by
    induction ps generalizing s with
    | nil => rfl
    | cons p ps ih => exact (ih _).trans (hw s p)
  unfold applyGroup
  split
  · exact fold _ _
  · rfl

/-- What the tick of the board leaves unchanged. -/
theorem tick_keeps (s : State) :
      (tick s).conditions = s.conditions ∧
      (tick s).straps = s.straps ∧
      (tick s).pitch = s.pitch ∧
      (tick s).layout = s.layout ∧
      (tick s).stations = s.stations ∧
      (tick s).tracker = s.tracker ∧
      (tick s).callList = s.callList ∧
      (tick s).timer = s.timer ∧
      (tick s).pace = s.pace ∧
      (tick s).loss = s.loss ∧
      (tick s).archive = s.archive ∧
      (tick s).history = s.history ∧
      (tick s).line = s.line ∧
      (tick s).plant = s.plant ∧
      (tick s).alert = s.alert ∧
      (tick s).pending = s.pending := by
  have fold (l : List (Fin 8)) (s : State) : (l.foldl drawNext s).conditions = s.conditions ∧
      (l.foldl drawNext s).straps = s.straps ∧
      (l.foldl drawNext s).pitch = s.pitch ∧
      (l.foldl drawNext s).layout = s.layout ∧
      (l.foldl drawNext s).stations = s.stations ∧
      (l.foldl drawNext s).tracker = s.tracker ∧
      (l.foldl drawNext s).callList = s.callList ∧
      (l.foldl drawNext s).timer = s.timer ∧
      (l.foldl drawNext s).pace = s.pace ∧
      (l.foldl drawNext s).loss = s.loss ∧
      (l.foldl drawNext s).archive = s.archive ∧
      (l.foldl drawNext s).history = s.history ∧
      (l.foldl drawNext s).line = s.line ∧
      (l.foldl drawNext s).plant = s.plant ∧
      (l.foldl drawNext s).alert = s.alert ∧
      (l.foldl drawNext s).pending = s.pending := by
    induction l generalizing s with
    | nil => simp
    | cons i l ih =>
      have h := ih (drawNext s i)
      simp only [drawNext_keeps] at h
      exact h
  unfold tick
  split
  · simp
  · have h := fold (List.finRange 8) s
    generalize (List.finRange 8).foldl drawNext s = d at h ⊢
    simpa using h

theorem execShiftTimerSecond_keeps {s t : State} (e : execShiftTimerSecond s = .next t) :
      t.conditions = s.conditions ∧
      t.straps = s.straps ∧
      t.pitch = s.pitch ∧
      t.layout = s.layout ∧
      t.callList = s.callList ∧
      t.history = s.history ∧
      t.line = s.line ∧
      t.frame = s.frame ∧
      t.pending = s.pending := by
  have h := centreEvent_proj (fun s => (s.conditions, s.straps, s.pitch, s.layout, s.callList, s.history, s.line, s.frame, s.pending))
    (by simp) (by simp) (by simp) e
  simpa using h

theorem execCloseCompletion_keeps {s t : State} (e : execCloseCompletion s = .next t) :
      t.conditions = s.conditions ∧
      t.straps = s.straps ∧
      t.pitch = s.pitch ∧
      t.layout = s.layout ∧
      t.callList = s.callList ∧
      t.history = s.history ∧
      t.line = s.line ∧
      t.plant = s.plant ∧
      t.frame = s.frame ∧
      t.pending = s.pending := by
  have h := centreEvent_proj (fun s => (s.conditions, s.straps, s.pitch, s.layout, s.callList, s.history, s.line, s.plant, s.frame, s.pending))
    (by simp) (by simp) (by simp) e
  simpa using h

theorem execRunClockSecond_keeps {s t : State} (e : execRunClockSecond s = .next t) :
      t.conditions = s.conditions ∧
      t.straps = s.straps ∧
      t.pitch = s.pitch ∧
      t.layout = s.layout ∧
      t.stations = s.stations ∧
      t.tracker = s.tracker ∧
      t.callList = s.callList ∧
      t.pace = s.pace ∧
      t.loss = s.loss ∧
      t.archive = s.archive ∧
      t.history = s.history ∧
      t.line = s.line ∧
      t.plant = s.plant ∧
      t.frame = s.frame ∧
      t.tiles = s.tiles ∧
      t.alert = s.alert ∧
      t.pending = s.pending := by
  have h := event_proj (fun s => (s.conditions, s.straps, s.pitch, s.layout, s.stations, s.tracker, s.callList, s.pace, s.loss, s.archive, s.history, s.line, s.plant, s.frame, s.tiles, s.alert, s.pending))
    (by simp) (by simp) e
  simpa using h

theorem execCallSecond_keeps (only : Option Nat) {s t : State} (e : execCallSecond only s = .next t) :
      t.conditions = s.conditions ∧
      t.straps = s.straps ∧
      t.pitch = s.pitch ∧
      t.layout = s.layout ∧
      t.stations = s.stations ∧
      t.tracker = s.tracker ∧
      t.timer = s.timer ∧
      t.pace = s.pace ∧
      t.loss = s.loss ∧
      t.archive = s.archive ∧
      t.history = s.history ∧
      t.line = s.line ∧
      t.plant = s.plant ∧
      t.frame = s.frame ∧
      t.pending = s.pending := by
  have h := centreEvent_proj (fun s => (s.conditions, s.straps, s.pitch, s.layout, s.stations, s.tracker, s.timer, s.pace, s.loss, s.archive, s.history, s.line, s.plant, s.frame, s.pending))
    (by simp) (by simp) (by simp) e
  simpa using h

theorem execStep_keeps (p : PitchEvent) {s t : State} (e : execStep p s = .next t) :
      t.conditions = s.conditions ∧
      t.straps = s.straps ∧
      t.layout = s.layout ∧
      t.stations = s.stations ∧
      t.loss = s.loss ∧
      t.history = s.history ∧
      t.line = s.line ∧
      t.frame = s.frame ∧
      t.pending = s.pending := by
  have h := centreEvent_proj (fun s => (s.conditions, s.straps, s.layout, s.stations, s.loss, s.history, s.line, s.frame, s.pending))
    (by intro s; simp only [givePitch]; split <;> simp) (by simp) (by simp) e
  simpa using h

theorem execXstopChange_keeps (m : LevelMoment) {s t : State} (e : execXstopChange m s = .next t) :
      t.conditions = s.conditions ∧
      t.straps = s.straps ∧
      t.pitch = s.pitch ∧
      t.layout = s.layout ∧
      t.stations = s.stations ∧
      t.callList = s.callList ∧
      t.timer = s.timer ∧
      t.pace = s.pace ∧
      t.loss = s.loss ∧
      t.archive = s.archive ∧
      t.history = s.history ∧
      t.line = s.line ∧
      t.plant = s.plant ∧
      t.frame = s.frame ∧
      t.pending = s.pending := by
  have h := centreEvent_proj (fun s => (s.conditions, s.straps, s.pitch, s.layout, s.stations, s.callList, s.timer, s.pace, s.loss, s.archive, s.history, s.line, s.plant, s.frame, s.pending))
    (by simp) (by simp) (by simp) e
  simpa using h

theorem execStallMonitorSecond_keeps (k : Fin 6) {s t : State} (e : execStallMonitorSecond k s = .next t) :
      t.conditions = s.conditions ∧
      t.straps = s.straps ∧
      t.pitch = s.pitch ∧
      t.layout = s.layout ∧
      t.stations = s.stations ∧
      t.callList = s.callList ∧
      t.timer = s.timer ∧
      t.pace = s.pace ∧
      t.loss = s.loss ∧
      t.archive = s.archive ∧
      t.history = s.history ∧
      t.line = s.line ∧
      t.plant = s.plant ∧
      t.frame = s.frame ∧
      t.pending = s.pending := by
  have h := centreEvent_proj (fun s => (s.conditions, s.straps, s.pitch, s.layout, s.stations, s.callList, s.timer, s.pace, s.loss, s.archive, s.history, s.line, s.plant, s.frame, s.pending))
    (by intro s; split <;> simp) (by simp) (by simp) e
  simpa using h

theorem execLineLinkSecond_keeps {s t : State} (e : execLineLinkSecond s = .next t) :
      t.conditions = s.conditions ∧
      t.straps = s.straps ∧
      t.pitch = s.pitch ∧
      t.layout = s.layout ∧
      t.stations = s.stations ∧
      t.tracker = s.tracker ∧
      t.callList = s.callList ∧
      t.timer = s.timer ∧
      t.pace = s.pace ∧
      t.loss = s.loss ∧
      t.archive = s.archive ∧
      t.history = s.history ∧
      t.plant = s.plant ∧
      t.frame = s.frame ∧
      t.tiles = s.tiles ∧
      t.alert = s.alert ∧
      t.pending = s.pending := by
  have h := event_proj (fun s => (s.conditions, s.straps, s.pitch, s.layout, s.stations, s.tracker, s.callList, s.timer, s.pace, s.loss, s.archive, s.history, s.plant, s.frame, s.tiles, s.alert, s.pending))
    (by simp) (by simp) e
  simpa using h

theorem execAddressByte_keeps (input : AddressInput) {s t : State} (e : execAddressByte input s = .next t) :
      t.conditions = s.conditions ∧
      t.straps = s.straps ∧
      t.pitch = s.pitch ∧
      t.layout = s.layout ∧
      t.stations = s.stations ∧
      t.tracker = s.tracker ∧
      t.callList = s.callList ∧
      t.timer = s.timer ∧
      t.pace = s.pace ∧
      t.loss = s.loss ∧
      t.archive = s.archive ∧
      t.history = s.history ∧
      t.plant = s.plant ∧
      t.frame = s.frame ∧
      t.tiles = s.tiles ∧
      t.alert = s.alert ∧
      t.pending = s.pending := by
  have h := event_proj (fun s => (s.conditions, s.straps, s.pitch, s.layout, s.stations, s.tracker, s.callList, s.timer, s.pace, s.loss, s.archive, s.history, s.plant, s.frame, s.tiles, s.alert, s.pending))
    (by cases input <;> simp) (by simp) e
  simpa using h

theorem execLineStatusRead_keeps {s t : State} (e : execLineStatusRead s = .next t) :
      t.conditions = s.conditions ∧
      t.straps = s.straps ∧
      t.pitch = s.pitch ∧
      t.layout = s.layout ∧
      t.stations = s.stations ∧
      t.tracker = s.tracker ∧
      t.callList = s.callList ∧
      t.timer = s.timer ∧
      t.pace = s.pace ∧
      t.loss = s.loss ∧
      t.archive = s.archive ∧
      t.history = s.history ∧
      t.plant = s.plant ∧
      t.frame = s.frame ∧
      t.tiles = s.tiles ∧
      t.alert = s.alert ∧
      t.pending = s.pending := by
  have h := event_proj (fun s => (s.conditions, s.straps, s.pitch, s.layout, s.stations, s.tracker, s.callList, s.timer, s.pace, s.loss, s.archive, s.history, s.plant, s.frame, s.tiles, s.alert, s.pending))
    (by simp) (by simp) e
  simpa using h

theorem execLineFrame_keeps (bytes : List Byte) (partialBits : Nat) {s t : State} (e : execLineFrame bytes partialBits s = .next t) :
      t.conditions = s.conditions ∧
      t.straps = s.straps ∧
      t.pitch = s.pitch ∧
      t.layout = s.layout ∧
      t.stations = s.stations ∧
      t.tracker = s.tracker ∧
      t.callList = s.callList ∧
      t.timer = s.timer ∧
      t.pace = s.pace ∧
      t.loss = s.loss ∧
      t.archive = s.archive ∧
      t.history = s.history ∧
      t.plant = s.plant ∧
      t.frame = s.frame ∧
      t.tiles = s.tiles ∧
      t.alert = s.alert ∧
      t.pending = s.pending := by
  have h := event_proj (fun s => (s.conditions, s.straps, s.pitch, s.layout, s.stations, s.tracker, s.callList, s.timer, s.pace, s.loss, s.archive, s.history, s.plant, s.frame, s.tiles, s.alert, s.pending))
    (by simp) (by simp) e
  simpa using h

theorem execPull_keeps {s t : State} (e : execPull s = .next t) :
      t.conditions = s.conditions ∧
      t.straps = s.straps ∧
      t.pitch = s.pitch ∧
      t.layout = s.layout ∧
      t.timer = s.timer ∧
      t.pace = s.pace ∧
      t.archive = s.archive ∧
      t.history = s.history ∧
      t.plant = s.plant ∧
      t.frame = s.frame ∧
      t.pending = s.pending := by
  have h := centreEvent_proj (fun s => (s.conditions, s.straps, s.pitch, s.layout, s.timer, s.pace, s.archive, s.history, s.plant, s.frame, s.pending))
    (by exact takeFrame_proj (fun s => (s.conditions, s.straps, s.pitch, s.layout, s.timer, s.pace, s.archive, s.history, s.plant, s.frame, s.pending)) (by simp) (by intro fr a e; unfold pullRule at e; split at e <;> cases e; simp)) (by simp) (by simp) e
  simpa using h

theorem execRelease_keeps {s t : State} (e : execRelease s = .next t) :
      t.conditions = s.conditions ∧
      t.straps = s.straps ∧
      t.pitch = s.pitch ∧
      t.layout = s.layout ∧
      t.timer = s.timer ∧
      t.pace = s.pace ∧
      t.archive = s.archive ∧
      t.frame = s.frame ∧
      t.pending = s.pending := by
  have h := centreEvent_proj (fun s => (s.conditions, s.straps, s.pitch, s.layout, s.timer, s.pace, s.archive, s.frame, s.pending))
    (by exact takeFrame_proj (fun s => (s.conditions, s.straps, s.pitch, s.layout, s.timer, s.pace, s.archive, s.frame, s.pending)) (by simp) (by intro fr a e; unfold releaseRule at e; split at e <;> cases e; simp)) (by simp) (by simp) e
  simpa using h

theorem execLeaderAck_keeps {s t : State} (e : execLeaderAck s = .next t) :
      t.conditions = s.conditions ∧
      t.straps = s.straps ∧
      t.pitch = s.pitch ∧
      t.layout = s.layout ∧
      t.stations = s.stations ∧
      t.tracker = s.tracker ∧
      t.timer = s.timer ∧
      t.pace = s.pace ∧
      t.loss = s.loss ∧
      t.archive = s.archive ∧
      t.history = s.history ∧
      t.plant = s.plant ∧
      t.frame = s.frame ∧
      t.tiles = s.tiles ∧
      t.alert = s.alert ∧
      t.pending = s.pending := by
  have h := event_proj (fun s => (s.conditions, s.straps, s.pitch, s.layout, s.stations, s.tracker, s.timer, s.pace, s.loss, s.archive, s.history, s.plant, s.frame, s.tiles, s.alert, s.pending))
    (by exact takeFrame_proj (fun s => (s.conditions, s.straps, s.pitch, s.layout, s.stations, s.tracker, s.timer, s.pace, s.loss, s.archive, s.history, s.plant, s.frame, s.tiles, s.alert, s.pending)) (by simp) (by intro fr a e; unfold leaderAckRule at e; split at e <;> cases e; simp)) (by simp) e
  simpa using h

theorem execLeaderReset_keeps {s t : State} (e : execLeaderReset s = .next t) :
      t.conditions = s.conditions ∧
      t.straps = s.straps ∧
      t.pitch = s.pitch ∧
      t.layout = s.layout ∧
      t.timer = s.timer ∧
      t.pace = s.pace ∧
      t.archive = s.archive ∧
      t.frame = s.frame ∧
      t.pending = s.pending := by
  have h := centreEvent_proj (fun s => (s.conditions, s.straps, s.pitch, s.layout, s.timer, s.pace, s.archive, s.frame, s.pending))
    (by exact takeFrame_proj (fun s => (s.conditions, s.straps, s.pitch, s.layout, s.timer, s.pace, s.archive, s.frame, s.pending)) (by simp) (by intro fr a e; unfold leaderResetRule at e; split at e <;> cases e; simp)) (by simp) (by simp) e
  simpa using h

theorem execBufferSet_keeps {s t : State} (e : execBufferSet s = .next t) :
      t.conditions = s.conditions ∧
      t.straps = s.straps ∧
      t.pitch = s.pitch ∧
      t.layout = s.layout ∧
      t.stations = s.stations ∧
      t.callList = s.callList ∧
      t.timer = s.timer ∧
      t.pace = s.pace ∧
      t.loss = s.loss ∧
      t.archive = s.archive ∧
      t.history = s.history ∧
      t.plant = s.plant ∧
      t.frame = s.frame ∧
      t.pending = s.pending := by
  have h := centreEvent_proj (fun s => (s.conditions, s.straps, s.pitch, s.layout, s.stations, s.callList, s.timer, s.pace, s.loss, s.archive, s.history, s.plant, s.frame, s.pending))
    (by exact takeFrame_proj (fun s => (s.conditions, s.straps, s.pitch, s.layout, s.stations, s.callList, s.timer, s.pace, s.loss, s.archive, s.history, s.plant, s.frame, s.pending)) (by simp) (by intro fr a e; unfold bufferSetRule at e; split at e <;> cases e; simp)) (by simp) (by simp) e
  simpa using h

theorem execCountAdjust_keeps {s t : State} (e : execCountAdjust s = .next t) :
      t.conditions = s.conditions ∧
      t.straps = s.straps ∧
      t.pitch = s.pitch ∧
      t.layout = s.layout ∧
      t.stations = s.stations ∧
      t.callList = s.callList ∧
      t.loss = s.loss ∧
      t.history = s.history ∧
      t.frame = s.frame ∧
      t.pending = s.pending := by
  have h := centreEvent_proj (fun s => (s.conditions, s.straps, s.pitch, s.layout, s.stations, s.callList, s.loss, s.history, s.frame, s.pending))
    (by exact takeFrame_proj (fun s => (s.conditions, s.straps, s.pitch, s.layout, s.stations, s.callList, s.loss, s.history, s.frame, s.pending)) (by simp) (by intro fr a e; unfold countAdjustRule at e; split at e <;> cases e; simp)) (by simp) (by simp) e
  simpa using h

theorem execLineShiftStart_keeps {s t : State} (e : execLineShiftStart s = .next t) :
      t.conditions = s.conditions ∧
      t.straps = s.straps ∧
      t.pitch = s.pitch ∧
      t.layout = s.layout ∧
      t.callList = s.callList ∧
      t.history = s.history ∧
      t.frame = s.frame ∧
      t.pending = s.pending := by
  have h := centreEvent_proj (fun s => (s.conditions, s.straps, s.pitch, s.layout, s.callList, s.history, s.frame, s.pending))
    (by exact takeFrame_proj (fun s => (s.conditions, s.straps, s.pitch, s.layout, s.callList, s.history, s.frame, s.pending)) (by simp) (by intro fr a e; unfold shiftStartRule at e; split at e <;> cases e; simp [lineVerdict])) (by simp) (by simp) e
  simpa using h

theorem execTimeMark_keeps {s t : State} (e : execTimeMark s = .next t) :
      t.conditions = s.conditions ∧
      t.straps = s.straps ∧
      t.pitch = s.pitch ∧
      t.layout = s.layout ∧
      t.stations = s.stations ∧
      t.tracker = s.tracker ∧
      t.callList = s.callList ∧
      t.pace = s.pace ∧
      t.loss = s.loss ∧
      t.archive = s.archive ∧
      t.history = s.history ∧
      t.plant = s.plant ∧
      t.frame = s.frame ∧
      t.tiles = s.tiles ∧
      t.alert = s.alert ∧
      t.pending = s.pending := by
  have h := event_proj (fun s => (s.conditions, s.straps, s.pitch, s.layout, s.stations, s.tracker, s.callList, s.pace, s.loss, s.archive, s.history, s.plant, s.frame, s.tiles, s.alert, s.pending))
    (by exact takeFrame_proj (fun s => (s.conditions, s.straps, s.pitch, s.layout, s.stations, s.tracker, s.callList, s.pace, s.loss, s.archive, s.history, s.plant, s.frame, s.tiles, s.alert, s.pending)) (by simp) (by intro fr a e; unfold timeMarkRule at e; split at e <;> cases e; simp [lineVerdict])) (by simp) e
  simpa using h

theorem execKeepalive_keeps {s t : State} (e : execKeepalive s = .next t) :
      t.conditions = s.conditions ∧
      t.straps = s.straps ∧
      t.pitch = s.pitch ∧
      t.layout = s.layout ∧
      t.stations = s.stations ∧
      t.tracker = s.tracker ∧
      t.callList = s.callList ∧
      t.timer = s.timer ∧
      t.pace = s.pace ∧
      t.loss = s.loss ∧
      t.archive = s.archive ∧
      t.history = s.history ∧
      t.plant = s.plant ∧
      t.frame = s.frame ∧
      t.tiles = s.tiles ∧
      t.alert = s.alert ∧
      t.pending = s.pending := by
  have h := event_proj (fun s => (s.conditions, s.straps, s.pitch, s.layout, s.stations, s.tracker, s.callList, s.timer, s.pace, s.loss, s.archive, s.history, s.plant, s.frame, s.tiles, s.alert, s.pending))
    (by exact takeFrame_proj (fun s => (s.conditions, s.straps, s.pitch, s.layout, s.stations, s.tracker, s.callList, s.timer, s.pace, s.loss, s.archive, s.history, s.plant, s.frame, s.tiles, s.alert, s.pending)) (by simp) (by intro fr a e; unfold keepaliveRule at e; split at e <;> cases e; simp)) (by simp) e
  simpa using h

theorem execPlantLinkSecond_keeps {s t : State} (e : execPlantLinkSecond s = .next t) :
      t.conditions = s.conditions ∧
      t.straps = s.straps ∧
      t.pitch = s.pitch ∧
      t.layout = s.layout ∧
      t.stations = s.stations ∧
      t.tracker = s.tracker ∧
      t.callList = s.callList ∧
      t.timer = s.timer ∧
      t.pace = s.pace ∧
      t.loss = s.loss ∧
      t.archive = s.archive ∧
      t.history = s.history ∧
      t.line = s.line ∧
      t.frame = s.frame ∧
      t.tiles = s.tiles ∧
      t.alert = s.alert ∧
      t.pending = s.pending := by
  have h := event_proj (fun s => (s.conditions, s.straps, s.pitch, s.layout, s.stations, s.tracker, s.callList, s.timer, s.pace, s.loss, s.archive, s.history, s.line, s.frame, s.tiles, s.alert, s.pending))
    (by simp) (by simp) e
  simpa using h

theorem execCsFalling_keeps {s t : State} (e : execCsFalling s = .next t) :
      t.conditions = s.conditions ∧
      t.straps = s.straps ∧
      t.pitch = s.pitch ∧
      t.layout = s.layout ∧
      t.stations = s.stations ∧
      t.tracker = s.tracker ∧
      t.callList = s.callList ∧
      t.timer = s.timer ∧
      t.pace = s.pace ∧
      t.loss = s.loss ∧
      t.archive = s.archive ∧
      t.history = s.history ∧
      t.line = s.line ∧
      t.frame = s.frame ∧
      t.tiles = s.tiles ∧
      t.alert = s.alert ∧
      t.pending = s.pending := by
  have h := event_proj (fun s => (s.conditions, s.straps, s.pitch, s.layout, s.stations, s.tracker, s.callList, s.timer, s.pace, s.loss, s.archive, s.history, s.line, s.frame, s.tiles, s.alert, s.pending))
    (by simp) (by simp) e
  simpa using h

theorem execCsRising_keeps (partialBytes partialBits : Nat) {s t : State} (e : execCsRising partialBytes partialBits s = .next t) :
      t.conditions = s.conditions ∧
      t.straps = s.straps ∧
      t.pitch = s.pitch ∧
      t.layout = s.layout ∧
      t.stations = s.stations ∧
      t.tracker = s.tracker ∧
      t.callList = s.callList ∧
      t.timer = s.timer ∧
      t.pace = s.pace ∧
      t.loss = s.loss ∧
      t.archive = s.archive ∧
      t.history = s.history ∧
      t.line = s.line ∧
      t.frame = s.frame ∧
      t.tiles = s.tiles ∧
      t.alert = s.alert ∧
      t.pending = s.pending := by
  have h := event_proj (fun s => (s.conditions, s.straps, s.pitch, s.layout, s.stations, s.tracker, s.callList, s.timer, s.pace, s.loss, s.archive, s.history, s.line, s.frame, s.tiles, s.alert, s.pending))
    (by simp) (by simp) e
  simpa using h

theorem execUnknownCommand_keeps (code : Byte) {s t : State} (e : execUnknownCommand code s = .next t) :
      t.conditions = s.conditions ∧
      t.straps = s.straps ∧
      t.pitch = s.pitch ∧
      t.layout = s.layout ∧
      t.stations = s.stations ∧
      t.tracker = s.tracker ∧
      t.callList = s.callList ∧
      t.timer = s.timer ∧
      t.pace = s.pace ∧
      t.loss = s.loss ∧
      t.archive = s.archive ∧
      t.history = s.history ∧
      t.line = s.line ∧
      t.frame = s.frame ∧
      t.tiles = s.tiles ∧
      t.alert = s.alert ∧
      t.pending = s.pending := by
  have h := event_proj (fun s => (s.conditions, s.straps, s.pitch, s.layout, s.stations, s.tracker, s.callList, s.timer, s.pace, s.loss, s.archive, s.history, s.line, s.frame, s.tiles, s.alert, s.pending))
    (by simp) (by simp) e
  simpa using h

/-- COMMAND_BYTE given whole; what an edge of SCK does is commandEdge_spec of Laws/Wires. -/
theorem execCommandByte_byte_keeps (code : Byte) {s t : State} (e : execCommandByte (.byte code) s = .next t) :
      t.conditions = s.conditions ∧
      t.straps = s.straps ∧
      t.pitch = s.pitch ∧
      t.layout = s.layout ∧
      t.stations = s.stations ∧
      t.tracker = s.tracker ∧
      t.callList = s.callList ∧
      t.timer = s.timer ∧
      t.pace = s.pace ∧
      t.loss = s.loss ∧
      t.archive = s.archive ∧
      t.history = s.history ∧
      t.line = s.line ∧
      t.frame = s.frame ∧
      t.tiles = s.tiles ∧
      t.alert = s.alert ∧
      t.pending = s.pending := by
  have h := event_proj (fun s => (s.conditions, s.straps, s.pitch, s.layout, s.stations, s.tracker, s.callList, s.timer, s.pace, s.loss, s.archive, s.history, s.line, s.frame, s.tiles, s.alert, s.pending))
    (by simp) (by simp) e
  simpa using h

theorem execReadStatus_keeps (m : ReadMoment) {s t : State} (e : execReadStatus m s = .next t) :
      t.conditions = s.conditions ∧
      t.straps = s.straps ∧
      t.pitch = s.pitch ∧
      t.layout = s.layout ∧
      t.stations = s.stations ∧
      t.tracker = s.tracker ∧
      t.callList = s.callList ∧
      t.timer = s.timer ∧
      t.pace = s.pace ∧
      t.loss = s.loss ∧
      t.archive = s.archive ∧
      t.history = s.history ∧
      t.line = s.line ∧
      t.frame = s.frame ∧
      t.tiles = s.tiles ∧
      t.alert = s.alert ∧
      t.pending = s.pending := by
  have h := event_proj (fun s => (s.conditions, s.straps, s.pitch, s.layout, s.stations, s.tracker, s.callList, s.timer, s.pace, s.loss, s.archive, s.history, s.line, s.frame, s.tiles, s.alert, s.pending))
    (by cases m with
      | taken => exact takeRead_proj (fun s => (s.conditions, s.straps, s.pitch, s.layout, s.stations, s.tracker, s.callList, s.timer, s.pace, s.loss, s.archive, s.history, s.line, s.frame, s.tiles, s.alert, s.pending)) (by simp) (by simp) (by simp)
      | firstByte => simp) (by simp) e
  simpa using h

theorem execStatusFlagByteSent_keeps {s t : State} (e : execStatusFlagByteSent s = .next t) :
      t.conditions = s.conditions ∧
      t.straps = s.straps ∧
      t.pitch = s.pitch ∧
      t.layout = s.layout ∧
      t.stations = s.stations ∧
      t.tracker = s.tracker ∧
      t.callList = s.callList ∧
      t.timer = s.timer ∧
      t.pace = s.pace ∧
      t.loss = s.loss ∧
      t.archive = s.archive ∧
      t.history = s.history ∧
      t.line = s.line ∧
      t.frame = s.frame ∧
      t.tiles = s.tiles ∧
      t.alert = s.alert ∧
      t.pending = s.pending := by
  have h := event_proj (fun s => (s.conditions, s.straps, s.pitch, s.layout, s.stations, s.tracker, s.callList, s.timer, s.pace, s.loss, s.archive, s.history, s.line, s.frame, s.tiles, s.alert, s.pending))
    (by simp) (by simp) e
  simpa using h

theorem execPresenceExtension_keeps {s t : State} (e : execPresenceExtension s = .next t) :
      t.conditions = s.conditions ∧
      t.straps = s.straps ∧
      t.pitch = s.pitch ∧
      t.layout = s.layout ∧
      t.stations = s.stations ∧
      t.tracker = s.tracker ∧
      t.callList = s.callList ∧
      t.timer = s.timer ∧
      t.pace = s.pace ∧
      t.loss = s.loss ∧
      t.archive = s.archive ∧
      t.history = s.history ∧
      t.line = s.line ∧
      t.frame = s.frame ∧
      t.tiles = s.tiles ∧
      t.alert = s.alert ∧
      t.pending = s.pending := by
  have h := event_proj (fun s => (s.conditions, s.straps, s.pitch, s.layout, s.stations, s.tracker, s.callList, s.timer, s.pace, s.loss, s.archive, s.history, s.line, s.frame, s.tiles, s.alert, s.pending))
    (by simp) (by simp) e
  simpa using h

theorem execReadStation_keeps (m : ArgReadMoment) {s t : State} (e : execReadStation m s = .next t) :
      t.conditions = s.conditions ∧
      t.straps = s.straps ∧
      t.pitch = s.pitch ∧
      t.layout = s.layout ∧
      t.stations = s.stations ∧
      t.tracker = s.tracker ∧
      t.callList = s.callList ∧
      t.timer = s.timer ∧
      t.pace = s.pace ∧
      t.loss = s.loss ∧
      t.archive = s.archive ∧
      t.history = s.history ∧
      t.line = s.line ∧
      t.frame = s.frame ∧
      t.tiles = s.tiles ∧
      t.alert = s.alert ∧
      t.pending = s.pending := by
  have h := event_proj (fun s => (s.conditions, s.straps, s.pitch, s.layout, s.stations, s.tracker, s.callList, s.timer, s.pace, s.loss, s.archive, s.history, s.line, s.frame, s.tiles, s.alert, s.pending))
    (by cases m with
      | taken n => exact takeRead_proj (fun s => (s.conditions, s.straps, s.pitch, s.layout, s.stations, s.tracker, s.callList, s.timer, s.pace, s.loss, s.archive, s.history, s.line, s.frame, s.tiles, s.alert, s.pending)) (by simp) (by simp) (by simp)
      | firstByte => simp) (by simp) e
  simpa using h

theorem execReadCalls_keeps {s t : State} (e : execReadCalls s = .next t) :
      t.conditions = s.conditions ∧
      t.straps = s.straps ∧
      t.pitch = s.pitch ∧
      t.layout = s.layout ∧
      t.stations = s.stations ∧
      t.tracker = s.tracker ∧
      t.callList = s.callList ∧
      t.timer = s.timer ∧
      t.pace = s.pace ∧
      t.loss = s.loss ∧
      t.archive = s.archive ∧
      t.history = s.history ∧
      t.line = s.line ∧
      t.frame = s.frame ∧
      t.tiles = s.tiles ∧
      t.alert = s.alert ∧
      t.pending = s.pending := by
  have h := event_proj (fun s => (s.conditions, s.straps, s.pitch, s.layout, s.stations, s.tracker, s.callList, s.timer, s.pace, s.loss, s.archive, s.history, s.line, s.frame, s.tiles, s.alert, s.pending))
    (by exact takeRead_proj (fun s => (s.conditions, s.straps, s.pitch, s.layout, s.stations, s.tracker, s.callList, s.timer, s.pace, s.loss, s.archive, s.history, s.line, s.frame, s.tiles, s.alert, s.pending)) (by simp) (by simp) (by simp)) (by simp) e
  simpa using h

theorem execCallRecordSlot_keeps {s t : State} (e : execCallRecordSlot s = .next t) :
      t.conditions = s.conditions ∧
      t.straps = s.straps ∧
      t.pitch = s.pitch ∧
      t.layout = s.layout ∧
      t.stations = s.stations ∧
      t.tracker = s.tracker ∧
      t.callList = s.callList ∧
      t.timer = s.timer ∧
      t.pace = s.pace ∧
      t.loss = s.loss ∧
      t.archive = s.archive ∧
      t.history = s.history ∧
      t.line = s.line ∧
      t.frame = s.frame ∧
      t.tiles = s.tiles ∧
      t.alert = s.alert ∧
      t.pending = s.pending := by
  have h := event_proj (fun s => (s.conditions, s.straps, s.pitch, s.layout, s.stations, s.tracker, s.callList, s.timer, s.pace, s.loss, s.archive, s.history, s.line, s.frame, s.tiles, s.alert, s.pending))
    (by simp) (by simp) e
  simpa using h

theorem execReadPace_keeps (m : ReadMoment) {s t : State} (e : execReadPace m s = .next t) :
      t.conditions = s.conditions ∧
      t.straps = s.straps ∧
      t.pitch = s.pitch ∧
      t.layout = s.layout ∧
      t.stations = s.stations ∧
      t.tracker = s.tracker ∧
      t.callList = s.callList ∧
      t.timer = s.timer ∧
      t.pace = s.pace ∧
      t.loss = s.loss ∧
      t.archive = s.archive ∧
      t.history = s.history ∧
      t.line = s.line ∧
      t.frame = s.frame ∧
      t.tiles = s.tiles ∧
      t.alert = s.alert ∧
      t.pending = s.pending := by
  have h := event_proj (fun s => (s.conditions, s.straps, s.pitch, s.layout, s.stations, s.tracker, s.callList, s.timer, s.pace, s.loss, s.archive, s.history, s.line, s.frame, s.tiles, s.alert, s.pending))
    (by cases m with
      | taken => exact takeRead_proj (fun s => (s.conditions, s.straps, s.pitch, s.layout, s.stations, s.tracker, s.callList, s.timer, s.pace, s.loss, s.archive, s.history, s.line, s.frame, s.tiles, s.alert, s.pending)) (by simp) (by simp) (by simp)
      | firstByte => simp) (by simp) e
  simpa using h

theorem execReadLoss_keeps (m : ReadMoment) {s t : State} (e : execReadLoss m s = .next t) :
      t.conditions = s.conditions ∧
      t.straps = s.straps ∧
      t.pitch = s.pitch ∧
      t.layout = s.layout ∧
      t.stations = s.stations ∧
      t.tracker = s.tracker ∧
      t.callList = s.callList ∧
      t.timer = s.timer ∧
      t.pace = s.pace ∧
      t.loss = s.loss ∧
      t.archive = s.archive ∧
      t.history = s.history ∧
      t.line = s.line ∧
      t.frame = s.frame ∧
      t.tiles = s.tiles ∧
      t.alert = s.alert ∧
      t.pending = s.pending := by
  have h := event_proj (fun s => (s.conditions, s.straps, s.pitch, s.layout, s.stations, s.tracker, s.callList, s.timer, s.pace, s.loss, s.archive, s.history, s.line, s.frame, s.tiles, s.alert, s.pending))
    (by cases m with
      | taken => exact takeRead_proj (fun s => (s.conditions, s.straps, s.pitch, s.layout, s.stations, s.tracker, s.callList, s.timer, s.pace, s.loss, s.archive, s.history, s.line, s.frame, s.tiles, s.alert, s.pending)) (by simp) (by simp) (by simp)
      | firstByte => simp) (by simp) e
  simpa using h

theorem execReadSummary_keeps (m : ArgReadMoment) {s t : State} (e : execReadSummary m s = .next t) :
      t.conditions = s.conditions ∧
      t.straps = s.straps ∧
      t.pitch = s.pitch ∧
      t.layout = s.layout ∧
      t.stations = s.stations ∧
      t.tracker = s.tracker ∧
      t.callList = s.callList ∧
      t.timer = s.timer ∧
      t.pace = s.pace ∧
      t.loss = s.loss ∧
      t.archive = s.archive ∧
      t.history = s.history ∧
      t.line = s.line ∧
      t.frame = s.frame ∧
      t.tiles = s.tiles ∧
      t.alert = s.alert ∧
      t.pending = s.pending := by
  have h := event_proj (fun s => (s.conditions, s.straps, s.pitch, s.layout, s.stations, s.tracker, s.callList, s.timer, s.pace, s.loss, s.archive, s.history, s.line, s.frame, s.tiles, s.alert, s.pending))
    (by cases m with
      | taken n => exact takeRead_proj (fun s => (s.conditions, s.straps, s.pitch, s.layout, s.stations, s.tracker, s.callList, s.timer, s.pace, s.loss, s.archive, s.history, s.line, s.frame, s.tiles, s.alert, s.pending)) (by simp) (by simp) (by simp)
      | firstByte => simp) (by simp) e
  simpa using h

theorem execReadHistory_keeps {s t : State} (e : execReadHistory s = .next t) :
      t.conditions = s.conditions ∧
      t.straps = s.straps ∧
      t.pitch = s.pitch ∧
      t.layout = s.layout ∧
      t.stations = s.stations ∧
      t.tracker = s.tracker ∧
      t.callList = s.callList ∧
      t.timer = s.timer ∧
      t.pace = s.pace ∧
      t.loss = s.loss ∧
      t.archive = s.archive ∧
      t.history = s.history ∧
      t.line = s.line ∧
      t.frame = s.frame ∧
      t.tiles = s.tiles ∧
      t.alert = s.alert ∧
      t.pending = s.pending := by
  have h := event_proj (fun s => (s.conditions, s.straps, s.pitch, s.layout, s.stations, s.tracker, s.callList, s.timer, s.pace, s.loss, s.archive, s.history, s.line, s.frame, s.tiles, s.alert, s.pending))
    (by exact takeRead_proj (fun s => (s.conditions, s.straps, s.pitch, s.layout, s.stations, s.tracker, s.callList, s.timer, s.pace, s.loss, s.archive, s.history, s.line, s.frame, s.tiles, s.alert, s.pending)) (by simp) (by simp) (by simp)) (by simp) e
  simpa using h

theorem execHistorySlot_keeps (m : SlotMoment) {s t : State} (e : execHistorySlot m s = .next t) :
      t.conditions = s.conditions ∧
      t.straps = s.straps ∧
      t.pitch = s.pitch ∧
      t.layout = s.layout ∧
      t.stations = s.stations ∧
      t.tracker = s.tracker ∧
      t.callList = s.callList ∧
      t.timer = s.timer ∧
      t.pace = s.pace ∧
      t.loss = s.loss ∧
      t.archive = s.archive ∧
      t.history = s.history ∧
      t.line = s.line ∧
      t.frame = s.frame ∧
      t.tiles = s.tiles ∧
      t.alert = s.alert ∧
      t.pending = s.pending := by
  have h := event_proj (fun s => (s.conditions, s.straps, s.pitch, s.layout, s.stations, s.tracker, s.callList, s.timer, s.pace, s.loss, s.archive, s.history, s.line, s.frame, s.tiles, s.alert, s.pending))
    (by cases m <;> simp) (by simp) e
  simpa using h

theorem execRewindHistory_keeps {s t : State} (e : execRewindHistory s = .next t) :
      t.conditions = s.conditions ∧
      t.straps = s.straps ∧
      t.pitch = s.pitch ∧
      t.layout = s.layout ∧
      t.stations = s.stations ∧
      t.tracker = s.tracker ∧
      t.callList = s.callList ∧
      t.timer = s.timer ∧
      t.pace = s.pace ∧
      t.loss = s.loss ∧
      t.archive = s.archive ∧
      t.history = s.history ∧
      t.line = s.line ∧
      t.frame = s.frame ∧
      t.tiles = s.tiles ∧
      t.alert = s.alert ∧
      t.pending = s.pending := by
  have h := event_proj (fun s => (s.conditions, s.straps, s.pitch, s.layout, s.stations, s.tracker, s.callList, s.timer, s.pace, s.loss, s.archive, s.history, s.line, s.frame, s.tiles, s.alert, s.pending))
    (by exact takeCommand_proj (fun s => (s.conditions, s.straps, s.pitch, s.layout, s.stations, s.tracker, s.callList, s.timer, s.pace, s.loss, s.archive, s.history, s.line, s.frame, s.tiles, s.alert, s.pending)) (by simp) (by simp) (by simp) (by simp)) (by simp) e
  simpa using h

theorem execStagePlan_keeps (length takt overtime : Half) (count : Byte) (breaks : Vector BreakArg 6) {s t : State} (e : execStagePlan length takt overtime count breaks s = .next t) :
      t.conditions = s.conditions ∧
      t.straps = s.straps ∧
      t.pitch = s.pitch ∧
      t.layout = s.layout ∧
      t.stations = s.stations ∧
      t.tracker = s.tracker ∧
      t.callList = s.callList ∧
      t.pace = s.pace ∧
      t.loss = s.loss ∧
      t.archive = s.archive ∧
      t.history = s.history ∧
      t.line = s.line ∧
      t.frame = s.frame ∧
      t.tiles = s.tiles ∧
      t.alert = s.alert ∧
      t.pending = s.pending := by
  have h := event_proj (fun s => (s.conditions, s.straps, s.pitch, s.layout, s.stations, s.tracker, s.callList, s.pace, s.loss, s.archive, s.history, s.line, s.frame, s.tiles, s.alert, s.pending))
    (by exact takeCommand_proj (fun s => (s.conditions, s.straps, s.pitch, s.layout, s.stations, s.tracker, s.callList, s.pace, s.loss, s.archive, s.history, s.line, s.frame, s.tiles, s.alert, s.pending)) (by simp) (by simp) (by simp) (by simp)) (by simp) e
  simpa using h

theorem execCommitPlan_keeps (mode : Byte) {s t : State} (e : execCommitPlan mode s = .next t) :
      t.conditions = s.conditions ∧
      t.straps = s.straps ∧
      t.pitch = s.pitch ∧
      t.layout = s.layout ∧
      t.stations = s.stations ∧
      t.callList = s.callList ∧
      t.loss = s.loss ∧
      t.history = s.history ∧
      t.line = s.line ∧
      t.frame = s.frame ∧
      t.pending = s.pending := by
  have h := centreEvent_proj (fun s => (s.conditions, s.straps, s.pitch, s.layout, s.stations, s.callList, s.loss, s.history, s.line, s.frame, s.pending))
    (by exact takeCommand_proj (fun s => (s.conditions, s.straps, s.pitch, s.layout, s.stations, s.callList, s.loss, s.history, s.line, s.frame, s.pending)) (by simp) (by simp) (by simp) (by simp)) (by simp) (by simp) e
  simpa using h

theorem execDiscardPlan_keeps {s t : State} (e : execDiscardPlan s = .next t) :
      t.conditions = s.conditions ∧
      t.straps = s.straps ∧
      t.pitch = s.pitch ∧
      t.layout = s.layout ∧
      t.stations = s.stations ∧
      t.tracker = s.tracker ∧
      t.callList = s.callList ∧
      t.pace = s.pace ∧
      t.loss = s.loss ∧
      t.archive = s.archive ∧
      t.history = s.history ∧
      t.line = s.line ∧
      t.frame = s.frame ∧
      t.tiles = s.tiles ∧
      t.alert = s.alert ∧
      t.pending = s.pending := by
  have h := event_proj (fun s => (s.conditions, s.straps, s.pitch, s.layout, s.stations, s.tracker, s.callList, s.pace, s.loss, s.archive, s.history, s.line, s.frame, s.tiles, s.alert, s.pending))
    (by exact takeCommand_proj (fun s => (s.conditions, s.straps, s.pitch, s.layout, s.stations, s.tracker, s.callList, s.pace, s.loss, s.archive, s.history, s.line, s.frame, s.tiles, s.alert, s.pending)) (by simp) (by simp) (by simp) (by simp)) (by simp) e
  simpa using h

theorem execPlantShiftStart_keeps (number offset : Half) {s t : State} (e : execPlantShiftStart number offset s = .next t) :
      t.conditions = s.conditions ∧
      t.straps = s.straps ∧
      t.pitch = s.pitch ∧
      t.layout = s.layout ∧
      t.callList = s.callList ∧
      t.history = s.history ∧
      t.line = s.line ∧
      t.frame = s.frame ∧
      t.pending = s.pending := by
  have h := centreEvent_proj (fun s => (s.conditions, s.straps, s.pitch, s.layout, s.callList, s.history, s.line, s.frame, s.pending))
    (by exact takeCommand_proj (fun s => (s.conditions, s.straps, s.pitch, s.layout, s.callList, s.history, s.line, s.frame, s.pending)) (by simp) (by simp) (by simp) (by simp [plantVerdict])) (by simp) (by simp) e
  simpa using h

theorem execShiftClose_keeps {s t : State} (e : execShiftClose s = .next t) :
      t.conditions = s.conditions ∧
      t.straps = s.straps ∧
      t.pitch = s.pitch ∧
      t.layout = s.layout ∧
      t.stations = s.stations ∧
      t.callList = s.callList ∧
      t.pace = s.pace ∧
      t.loss = s.loss ∧
      t.history = s.history ∧
      t.line = s.line ∧
      t.frame = s.frame ∧
      t.pending = s.pending := by
  have h := centreEvent_proj (fun s => (s.conditions, s.straps, s.pitch, s.layout, s.stations, s.callList, s.pace, s.loss, s.history, s.line, s.frame, s.pending))
    (by exact takeCommand_proj (fun s => (s.conditions, s.straps, s.pitch, s.layout, s.stations, s.callList, s.pace, s.loss, s.history, s.line, s.frame, s.pending)) (by simp) (by simp) (by simp) (by simp)) (by simp) (by simp) e
  simpa using h

theorem execAckCall_keeps (number : Half) (responder : Byte) {s t : State} (e : execAckCall number responder s = .next t) :
      t.conditions = s.conditions ∧
      t.straps = s.straps ∧
      t.pitch = s.pitch ∧
      t.layout = s.layout ∧
      t.stations = s.stations ∧
      t.tracker = s.tracker ∧
      t.timer = s.timer ∧
      t.pace = s.pace ∧
      t.loss = s.loss ∧
      t.archive = s.archive ∧
      t.history = s.history ∧
      t.line = s.line ∧
      t.frame = s.frame ∧
      t.tiles = s.tiles ∧
      t.alert = s.alert ∧
      t.pending = s.pending := by
  have h := event_proj (fun s => (s.conditions, s.straps, s.pitch, s.layout, s.stations, s.tracker, s.timer, s.pace, s.loss, s.archive, s.history, s.line, s.frame, s.tiles, s.alert, s.pending))
    (by exact takeCommand_proj (fun s => (s.conditions, s.straps, s.pitch, s.layout, s.stations, s.tracker, s.timer, s.pace, s.loss, s.archive, s.history, s.line, s.frame, s.tiles, s.alert, s.pending)) (by simp) (by simp) (by simp) (by simp)) (by simp) e
  simpa using h

theorem execClearCall_keeps (number : Half) (responder : Byte) {s t : State} (e : execClearCall number responder s = .next t) :
      t.conditions = s.conditions ∧
      t.straps = s.straps ∧
      t.pitch = s.pitch ∧
      t.layout = s.layout ∧
      t.timer = s.timer ∧
      t.pace = s.pace ∧
      t.archive = s.archive ∧
      t.line = s.line ∧
      t.frame = s.frame ∧
      t.pending = s.pending := by
  have h := centreEvent_proj (fun s => (s.conditions, s.straps, s.pitch, s.layout, s.timer, s.pace, s.archive, s.line, s.frame, s.pending))
    (by exact takeCommand_proj (fun s => (s.conditions, s.straps, s.pitch, s.layout, s.timer, s.pace, s.archive, s.line, s.frame, s.pending)) (by simp) (by simp) (by simp) (by simp)) (by simp) (by simp) e
  simpa using h

theorem execWriteLayoutZone_keeps (zone used first last pitch coast stall capacity : Byte) {s t : State} (e : execWriteLayoutZone zone used first last pitch coast stall capacity s = .next t) :
      t.conditions = s.conditions ∧
      t.straps = s.straps ∧
      t.stations = s.stations ∧
      t.callList = s.callList ∧
      t.timer = s.timer ∧
      t.pace = s.pace ∧
      t.loss = s.loss ∧
      t.archive = s.archive ∧
      t.history = s.history ∧
      t.line = s.line ∧
      t.frame = s.frame ∧
      t.pending = s.pending := by
  have h := centreEvent_proj (fun s => (s.conditions, s.straps, s.stations, s.callList, s.timer, s.pace, s.loss, s.archive, s.history, s.line, s.frame, s.pending))
    (by exact takeCommand_proj (fun s => (s.conditions, s.straps, s.stations, s.callList, s.timer, s.pace, s.loss, s.archive, s.history, s.line, s.frame, s.pending)) (by simp) (by simp) (by simp) (by simp)) (by simp) (by simp) e
  simpa using h

theorem execWriteLayoutStation_keeps (station flag length : Byte) {s t : State} (e : execWriteLayoutStation station flag length s = .next t) :
      t.conditions = s.conditions ∧
      t.straps = s.straps ∧
      t.pitch = s.pitch ∧
      t.stations = s.stations ∧
      t.callList = s.callList ∧
      t.timer = s.timer ∧
      t.pace = s.pace ∧
      t.loss = s.loss ∧
      t.archive = s.archive ∧
      t.history = s.history ∧
      t.line = s.line ∧
      t.frame = s.frame ∧
      t.pending = s.pending := by
  have h := centreEvent_proj (fun s => (s.conditions, s.straps, s.pitch, s.stations, s.callList, s.timer, s.pace, s.loss, s.archive, s.history, s.line, s.frame, s.pending))
    (by exact takeCommand_proj (fun s => (s.conditions, s.straps, s.pitch, s.stations, s.callList, s.timer, s.pace, s.loss, s.archive, s.history, s.line, s.frame, s.pending)) (by simp) (by simp) (by simp) (by simp)) (by simp) (by simp) e
  simpa using h

theorem execWritePolicy_keeps (thresholds : Vector Half 15) (grace : Half) {s t : State} (e : execWritePolicy thresholds grace s = .next t) :
      t.conditions = s.conditions ∧
      t.straps = s.straps ∧
      t.pitch = s.pitch ∧
      t.layout = s.layout ∧
      t.stations = s.stations ∧
      t.tracker = s.tracker ∧
      t.timer = s.timer ∧
      t.pace = s.pace ∧
      t.loss = s.loss ∧
      t.archive = s.archive ∧
      t.history = s.history ∧
      t.line = s.line ∧
      t.frame = s.frame ∧
      t.tiles = s.tiles ∧
      t.alert = s.alert ∧
      t.pending = s.pending := by
  have h := event_proj (fun s => (s.conditions, s.straps, s.pitch, s.layout, s.stations, s.tracker, s.timer, s.pace, s.loss, s.archive, s.history, s.line, s.frame, s.tiles, s.alert, s.pending))
    (by exact takeCommand_proj (fun s => (s.conditions, s.straps, s.pitch, s.layout, s.stations, s.tracker, s.timer, s.pace, s.loss, s.archive, s.history, s.line, s.frame, s.tiles, s.alert, s.pending)) (by simp) (by simp) (by simp) (by simp)) (by simp) e
  simpa using h

theorem execWriteLinkSettings_keeps (lineCode plantCode settings : Byte) {s t : State} (e : execWriteLinkSettings lineCode plantCode settings s = .next t) :
      t.conditions = s.conditions ∧
      t.straps = s.straps ∧
      t.pitch = s.pitch ∧
      t.layout = s.layout ∧
      t.stations = s.stations ∧
      t.tracker = s.tracker ∧
      t.callList = s.callList ∧
      t.timer = s.timer ∧
      t.pace = s.pace ∧
      t.loss = s.loss ∧
      t.archive = s.archive ∧
      t.history = s.history ∧
      t.frame = s.frame ∧
      t.pending = s.pending := by
  have h := centreEvent_proj (fun s => (s.conditions, s.straps, s.pitch, s.layout, s.stations, s.tracker, s.callList, s.timer, s.pace, s.loss, s.archive, s.history, s.frame, s.pending))
    (by exact takeCommand_proj (fun s => (s.conditions, s.straps, s.pitch, s.layout, s.stations, s.tracker, s.callList, s.timer, s.pace, s.loss, s.archive, s.history, s.frame, s.pending)) (by simp) (by simp) (by simp) (by simp)) (by simp) (by simp) e
  simpa using h

theorem execSetWindow_keeps (x0 y0 x1 y1 : Byte) {s t : State} (e : execSetWindow x0 y0 x1 y1 s = .next t) :
      t.conditions = s.conditions ∧
      t.straps = s.straps ∧
      t.pitch = s.pitch ∧
      t.layout = s.layout ∧
      t.stations = s.stations ∧
      t.tracker = s.tracker ∧
      t.callList = s.callList ∧
      t.timer = s.timer ∧
      t.pace = s.pace ∧
      t.loss = s.loss ∧
      t.archive = s.archive ∧
      t.history = s.history ∧
      t.line = s.line ∧
      t.tiles = s.tiles ∧
      t.alert = s.alert ∧
      t.pending = s.pending := by
  have h := event_proj (fun s => (s.conditions, s.straps, s.pitch, s.layout, s.stations, s.tracker, s.callList, s.timer, s.pace, s.loss, s.archive, s.history, s.line, s.tiles, s.alert, s.pending))
    (by exact takeCommand_proj (fun s => (s.conditions, s.straps, s.pitch, s.layout, s.stations, s.tracker, s.callList, s.timer, s.pace, s.loss, s.archive, s.history, s.line, s.tiles, s.alert, s.pending)) (by simp) (by simp) (by simp) (by simp)) (by simp) e
  simpa using h

theorem execSetCursor_keeps (x y : Byte) {s t : State} (e : execSetCursor x y s = .next t) :
      t.conditions = s.conditions ∧
      t.straps = s.straps ∧
      t.pitch = s.pitch ∧
      t.layout = s.layout ∧
      t.stations = s.stations ∧
      t.tracker = s.tracker ∧
      t.callList = s.callList ∧
      t.timer = s.timer ∧
      t.pace = s.pace ∧
      t.loss = s.loss ∧
      t.archive = s.archive ∧
      t.history = s.history ∧
      t.line = s.line ∧
      t.tiles = s.tiles ∧
      t.alert = s.alert ∧
      t.pending = s.pending := by
  have h := event_proj (fun s => (s.conditions, s.straps, s.pitch, s.layout, s.stations, s.tracker, s.callList, s.timer, s.pace, s.loss, s.archive, s.history, s.line, s.tiles, s.alert, s.pending))
    (by exact takeCommand_proj (fun s => (s.conditions, s.straps, s.pitch, s.layout, s.stations, s.tracker, s.callList, s.timer, s.pace, s.loss, s.archive, s.history, s.line, s.tiles, s.alert, s.pending)) (by simp) (by simp) (by simp) (by simp)) (by simp) e
  simpa using h

theorem execSetAddressControl_keeps (order column row wrap : Byte) {s t : State} (e : execSetAddressControl order column row wrap s = .next t) :
      t.conditions = s.conditions ∧
      t.straps = s.straps ∧
      t.pitch = s.pitch ∧
      t.layout = s.layout ∧
      t.stations = s.stations ∧
      t.tracker = s.tracker ∧
      t.callList = s.callList ∧
      t.timer = s.timer ∧
      t.pace = s.pace ∧
      t.loss = s.loss ∧
      t.archive = s.archive ∧
      t.history = s.history ∧
      t.line = s.line ∧
      t.tiles = s.tiles ∧
      t.alert = s.alert ∧
      t.pending = s.pending := by
  have h := event_proj (fun s => (s.conditions, s.straps, s.pitch, s.layout, s.stations, s.tracker, s.callList, s.timer, s.pace, s.loss, s.archive, s.history, s.line, s.tiles, s.alert, s.pending))
    (by exact takeCommand_proj (fun s => (s.conditions, s.straps, s.pitch, s.layout, s.stations, s.tracker, s.callList, s.timer, s.pace, s.loss, s.archive, s.history, s.line, s.tiles, s.alert, s.pending)) (by simp) (by simp) (by simp) (by simp)) (by simp) e
  simpa using h

theorem execSetColourMode_keeps (mode : Byte) {s t : State} (e : execSetColourMode mode s = .next t) :
      t.conditions = s.conditions ∧
      t.straps = s.straps ∧
      t.pitch = s.pitch ∧
      t.layout = s.layout ∧
      t.stations = s.stations ∧
      t.tracker = s.tracker ∧
      t.callList = s.callList ∧
      t.timer = s.timer ∧
      t.pace = s.pace ∧
      t.loss = s.loss ∧
      t.archive = s.archive ∧
      t.history = s.history ∧
      t.line = s.line ∧
      t.tiles = s.tiles ∧
      t.alert = s.alert ∧
      t.pending = s.pending := by
  have h := event_proj (fun s => (s.conditions, s.straps, s.pitch, s.layout, s.stations, s.tracker, s.callList, s.timer, s.pace, s.loss, s.archive, s.history, s.line, s.tiles, s.alert, s.pending))
    (by exact takeCommand_proj (fun s => (s.conditions, s.straps, s.pitch, s.layout, s.stations, s.tracker, s.callList, s.timer, s.pace, s.loss, s.archive, s.history, s.line, s.tiles, s.alert, s.pending)) (by simp) (by simp) (by simp) (by simp)) (by simp) e
  simpa using h

theorem execSetMask_keeps (flags : Byte) {s t : State} (e : execSetMask flags s = .next t) :
      t.conditions = s.conditions ∧
      t.straps = s.straps ∧
      t.pitch = s.pitch ∧
      t.layout = s.layout ∧
      t.stations = s.stations ∧
      t.tracker = s.tracker ∧
      t.callList = s.callList ∧
      t.timer = s.timer ∧
      t.pace = s.pace ∧
      t.loss = s.loss ∧
      t.archive = s.archive ∧
      t.history = s.history ∧
      t.line = s.line ∧
      t.tiles = s.tiles ∧
      t.alert = s.alert ∧
      t.pending = s.pending := by
  have h := event_proj (fun s => (s.conditions, s.straps, s.pitch, s.layout, s.stations, s.tracker, s.callList, s.timer, s.pace, s.loss, s.archive, s.history, s.line, s.tiles, s.alert, s.pending))
    (by exact takeCommand_proj (fun s => (s.conditions, s.straps, s.pitch, s.layout, s.stations, s.tracker, s.callList, s.timer, s.pace, s.loss, s.archive, s.history, s.line, s.tiles, s.alert, s.pending)) (by simp) (by simp) (by simp) (by simp)) (by simp) e
  simpa using h

theorem execSetMark_keeps {s t : State} (e : execSetMark s = .next t) :
      t.conditions = s.conditions ∧
      t.straps = s.straps ∧
      t.pitch = s.pitch ∧
      t.layout = s.layout ∧
      t.stations = s.stations ∧
      t.tracker = s.tracker ∧
      t.callList = s.callList ∧
      t.timer = s.timer ∧
      t.pace = s.pace ∧
      t.loss = s.loss ∧
      t.archive = s.archive ∧
      t.history = s.history ∧
      t.line = s.line ∧
      t.tiles = s.tiles ∧
      t.alert = s.alert ∧
      t.pending = s.pending := by
  have h := event_proj (fun s => (s.conditions, s.straps, s.pitch, s.layout, s.stations, s.tracker, s.callList, s.timer, s.pace, s.loss, s.archive, s.history, s.line, s.tiles, s.alert, s.pending))
    (by exact takeCommand_proj (fun s => (s.conditions, s.straps, s.pitch, s.layout, s.stations, s.tracker, s.callList, s.timer, s.pace, s.loss, s.archive, s.history, s.line, s.tiles, s.alert, s.pending)) (by simp) (by simp) (by simp) (by simp)) (by simp) e
  simpa using h

theorem execReturnToMark_keeps {s t : State} (e : execReturnToMark s = .next t) :
      t.conditions = s.conditions ∧
      t.straps = s.straps ∧
      t.pitch = s.pitch ∧
      t.layout = s.layout ∧
      t.stations = s.stations ∧
      t.tracker = s.tracker ∧
      t.callList = s.callList ∧
      t.timer = s.timer ∧
      t.pace = s.pace ∧
      t.loss = s.loss ∧
      t.archive = s.archive ∧
      t.history = s.history ∧
      t.line = s.line ∧
      t.tiles = s.tiles ∧
      t.alert = s.alert ∧
      t.pending = s.pending := by
  have h := event_proj (fun s => (s.conditions, s.straps, s.pitch, s.layout, s.stations, s.tracker, s.callList, s.timer, s.pace, s.loss, s.archive, s.history, s.line, s.tiles, s.alert, s.pending))
    (by exact takeCommand_proj (fun s => (s.conditions, s.straps, s.pitch, s.layout, s.stations, s.tracker, s.callList, s.timer, s.pace, s.loss, s.archive, s.history, s.line, s.tiles, s.alert, s.pending)) (by simp) (by simp) (by simp) (by simp)) (by simp) e
  simpa using h

theorem execWritePixels_keeps (origin : Byte) {s t : State} (e : execWritePixels origin s = .next t) :
      t.conditions = s.conditions ∧
      t.straps = s.straps ∧
      t.pitch = s.pitch ∧
      t.layout = s.layout ∧
      t.stations = s.stations ∧
      t.tracker = s.tracker ∧
      t.callList = s.callList ∧
      t.timer = s.timer ∧
      t.pace = s.pace ∧
      t.loss = s.loss ∧
      t.archive = s.archive ∧
      t.history = s.history ∧
      t.line = s.line ∧
      t.tiles = s.tiles ∧
      t.alert = s.alert ∧
      t.pending = s.pending := by
  have h := event_proj (fun s => (s.conditions, s.straps, s.pitch, s.layout, s.stations, s.tracker, s.callList, s.timer, s.pace, s.loss, s.archive, s.history, s.line, s.tiles, s.alert, s.pending))
    (by exact takeOrigin_proj (fun s => (s.conditions, s.straps, s.pitch, s.layout, s.stations, s.tracker, s.callList, s.timer, s.pace, s.loss, s.archive, s.history, s.line, s.tiles, s.alert, s.pending)) (by simp) (by simp) (by simp) (by simp)) (by simp) e
  simpa using h

theorem execPixelGroup_keeps (bytes : List Byte) {s t : State} (e : execPixelGroup bytes s = .next t) :
      t.conditions = s.conditions ∧
      t.straps = s.straps ∧
      t.pitch = s.pitch ∧
      t.layout = s.layout ∧
      t.stations = s.stations ∧
      t.tracker = s.tracker ∧
      t.callList = s.callList ∧
      t.timer = s.timer ∧
      t.pace = s.pace ∧
      t.loss = s.loss ∧
      t.archive = s.archive ∧
      t.history = s.history ∧
      t.line = s.line ∧
      t.tiles = s.tiles ∧
      t.alert = s.alert ∧
      t.pending = s.pending := by
  have h := event_proj (fun s => (s.conditions, s.straps, s.pitch, s.layout, s.stations, s.tracker, s.callList, s.timer, s.pace, s.loss, s.archive, s.history, s.line, s.tiles, s.alert, s.pending))
    (by exact applyGroup_proj (fun s => (s.conditions, s.straps, s.pitch, s.layout, s.stations, s.tracker, s.callList, s.timer, s.pace, s.loss, s.archive, s.history, s.line, s.tiles, s.alert, s.pending)) (by simp)) (by simp) e
  simpa using h

theorem execReadPixels_keeps {s t : State} (e : execReadPixels s = .next t) :
      t.conditions = s.conditions ∧
      t.straps = s.straps ∧
      t.pitch = s.pitch ∧
      t.layout = s.layout ∧
      t.stations = s.stations ∧
      t.tracker = s.tracker ∧
      t.callList = s.callList ∧
      t.timer = s.timer ∧
      t.pace = s.pace ∧
      t.loss = s.loss ∧
      t.archive = s.archive ∧
      t.history = s.history ∧
      t.line = s.line ∧
      t.tiles = s.tiles ∧
      t.alert = s.alert ∧
      t.pending = s.pending := by
  have h := event_proj (fun s => (s.conditions, s.straps, s.pitch, s.layout, s.stations, s.tracker, s.callList, s.timer, s.pace, s.loss, s.archive, s.history, s.line, s.tiles, s.alert, s.pending))
    (by exact takeReadPixels_proj (fun s => (s.conditions, s.straps, s.pitch, s.layout, s.stations, s.tracker, s.callList, s.timer, s.pace, s.loss, s.archive, s.history, s.line, s.tiles, s.alert, s.pending)) (by simp) (by simp) (by simp) (by simp)) (by simp) e
  simpa using h

theorem execPixelRead_keeps (m : SlotMoment) {s t : State} (e : execPixelRead m s = .next t) :
      t.conditions = s.conditions ∧
      t.straps = s.straps ∧
      t.pitch = s.pitch ∧
      t.layout = s.layout ∧
      t.stations = s.stations ∧
      t.tracker = s.tracker ∧
      t.callList = s.callList ∧
      t.timer = s.timer ∧
      t.pace = s.pace ∧
      t.loss = s.loss ∧
      t.archive = s.archive ∧
      t.history = s.history ∧
      t.line = s.line ∧
      t.tiles = s.tiles ∧
      t.alert = s.alert ∧
      t.pending = s.pending := by
  have h := event_proj (fun s => (s.conditions, s.straps, s.pitch, s.layout, s.stations, s.tracker, s.callList, s.timer, s.pace, s.loss, s.archive, s.history, s.line, s.tiles, s.alert, s.pending))
    (by cases m <;> simp) (by simp) e
  simpa using h

theorem execScrollSecond_keeps {s t : State} (e : execScrollSecond s = .next t) :
      t.conditions = s.conditions ∧
      t.straps = s.straps ∧
      t.pitch = s.pitch ∧
      t.layout = s.layout ∧
      t.stations = s.stations ∧
      t.tracker = s.tracker ∧
      t.callList = s.callList ∧
      t.timer = s.timer ∧
      t.pace = s.pace ∧
      t.loss = s.loss ∧
      t.archive = s.archive ∧
      t.history = s.history ∧
      t.line = s.line ∧
      t.plant = s.plant ∧
      t.frame = s.frame ∧
      t.tiles = s.tiles ∧
      t.alert = s.alert ∧
      t.pending = s.pending := by
  have h := event_proj (fun s => (s.conditions, s.straps, s.pitch, s.layout, s.stations, s.tracker, s.callList, s.timer, s.pace, s.loss, s.archive, s.history, s.line, s.plant, s.frame, s.tiles, s.alert, s.pending))
    (by simp) (by simp) e
  simpa using h

theorem execScrollStep_keeps {s t : State} (e : execScrollStep s = .next t) :
      t.conditions = s.conditions ∧
      t.straps = s.straps ∧
      t.pitch = s.pitch ∧
      t.layout = s.layout ∧
      t.stations = s.stations ∧
      t.tracker = s.tracker ∧
      t.callList = s.callList ∧
      t.timer = s.timer ∧
      t.pace = s.pace ∧
      t.loss = s.loss ∧
      t.archive = s.archive ∧
      t.history = s.history ∧
      t.line = s.line ∧
      t.plant = s.plant ∧
      t.frame = s.frame ∧
      t.tiles = s.tiles ∧
      t.alert = s.alert ∧
      t.pending = s.pending := by
  have h := event_proj (fun s => (s.conditions, s.straps, s.pitch, s.layout, s.stations, s.tracker, s.callList, s.timer, s.pace, s.loss, s.archive, s.history, s.line, s.plant, s.frame, s.tiles, s.alert, s.pending))
    (by simp) (by simp) e
  simpa using h

theorem execFlashToggle_keeps {s t : State} (e : execFlashToggle s = .next t) :
      t.conditions = s.conditions ∧
      t.straps = s.straps ∧
      t.pitch = s.pitch ∧
      t.layout = s.layout ∧
      t.stations = s.stations ∧
      t.tracker = s.tracker ∧
      t.callList = s.callList ∧
      t.timer = s.timer ∧
      t.pace = s.pace ∧
      t.loss = s.loss ∧
      t.archive = s.archive ∧
      t.history = s.history ∧
      t.line = s.line ∧
      t.plant = s.plant ∧
      t.frame = s.frame ∧
      t.tiles = s.tiles ∧
      t.alert = s.alert ∧
      t.pending = s.pending := by
  have h := event_proj (fun s => (s.conditions, s.straps, s.pitch, s.layout, s.stations, s.tracker, s.callList, s.timer, s.pace, s.loss, s.archive, s.history, s.line, s.plant, s.frame, s.tiles, s.alert, s.pending))
    (by simp) (by simp) e
  simpa using h

theorem execRenderPassComplete_keeps (entry : Fin 8) {s t : State} (e : execRenderPassComplete entry s = .next t) :
      t.conditions = s.conditions ∧
      t.straps = s.straps ∧
      t.pitch = s.pitch ∧
      t.layout = s.layout ∧
      t.stations = s.stations ∧
      t.tracker = s.tracker ∧
      t.callList = s.callList ∧
      t.timer = s.timer ∧
      t.pace = s.pace ∧
      t.loss = s.loss ∧
      t.archive = s.archive ∧
      t.history = s.history ∧
      t.line = s.line ∧
      t.plant = s.plant ∧
      t.tiles = s.tiles ∧
      t.alert = s.alert ∧
      t.pending = s.pending := by
  have h := event_proj (fun s => (s.conditions, s.straps, s.pitch, s.layout, s.stations, s.tracker, s.callList, s.timer, s.pace, s.loss, s.archive, s.history, s.line, s.plant, s.tiles, s.alert, s.pending))
    (by simp) (by simp) e
  simpa using h

theorem execWriteRegion_keeps (entry role x0 y0 x1 y1 flag header scroll : Byte) {s t : State} (e : execWriteRegion entry role x0 y0 x1 y1 flag header scroll s = .next t) :
      t.conditions = s.conditions ∧
      t.straps = s.straps ∧
      t.pitch = s.pitch ∧
      t.layout = s.layout ∧
      t.stations = s.stations ∧
      t.tracker = s.tracker ∧
      t.callList = s.callList ∧
      t.timer = s.timer ∧
      t.pace = s.pace ∧
      t.loss = s.loss ∧
      t.archive = s.archive ∧
      t.history = s.history ∧
      t.line = s.line ∧
      t.tiles = s.tiles ∧
      t.alert = s.alert ∧
      t.pending = s.pending := by
  have h := event_proj (fun s => (s.conditions, s.straps, s.pitch, s.layout, s.stations, s.tracker, s.callList, s.timer, s.pace, s.loss, s.archive, s.history, s.line, s.tiles, s.alert, s.pending))
    (by exact takeCommand_proj (fun s => (s.conditions, s.straps, s.pitch, s.layout, s.stations, s.tracker, s.callList, s.timer, s.pace, s.loss, s.archive, s.history, s.line, s.tiles, s.alert, s.pending)) (by simp) (by simp) (by simp) (by simp)) (by simp) e
  simpa using h

theorem execXalertChange_keeps (m : LevelMoment) {s t : State} (e : execXalertChange m s = .next t) :
      t.conditions = s.conditions ∧
      t.straps = s.straps ∧
      t.pitch = s.pitch ∧
      t.layout = s.layout ∧
      t.stations = s.stations ∧
      t.tracker = s.tracker ∧
      t.callList = s.callList ∧
      t.timer = s.timer ∧
      t.pace = s.pace ∧
      t.loss = s.loss ∧
      t.archive = s.archive ∧
      t.history = s.history ∧
      t.line = s.line ∧
      t.plant = s.plant ∧
      t.frame = s.frame ∧
      t.tiles = s.tiles ∧
      t.pending = s.pending := by
  have h := event_proj (fun s => (s.conditions, s.straps, s.pitch, s.layout, s.stations, s.tracker, s.callList, s.timer, s.pace, s.loss, s.archive, s.history, s.line, s.plant, s.frame, s.tiles, s.pending))
    (by simp) (by simp) e
  simpa using h

theorem execStartTimerExpiry_keeps {s t : State} (e : execStartTimerExpiry s = .next t) :
      t.conditions = s.conditions ∧
      t.straps = s.straps ∧
      t.pitch = s.pitch ∧
      t.layout = s.layout ∧
      t.stations = s.stations ∧
      t.tracker = s.tracker ∧
      t.callList = s.callList ∧
      t.timer = s.timer ∧
      t.pace = s.pace ∧
      t.loss = s.loss ∧
      t.archive = s.archive ∧
      t.history = s.history ∧
      t.line = s.line ∧
      t.plant = s.plant ∧
      t.frame = s.frame ∧
      t.alert = s.alert ∧
      t.pending = s.pending := by
  have h := event_proj (fun s => (s.conditions, s.straps, s.pitch, s.layout, s.stations, s.tracker, s.callList, s.timer, s.pace, s.loss, s.archive, s.history, s.line, s.plant, s.frame, s.alert, s.pending))
    (by simp) (by simp) e
  simpa using h

theorem execRampExpiry_keeps {s t : State} (e : execRampExpiry s = .next t) :
      t.conditions = s.conditions ∧
      t.straps = s.straps ∧
      t.pitch = s.pitch ∧
      t.layout = s.layout ∧
      t.stations = s.stations ∧
      t.tracker = s.tracker ∧
      t.callList = s.callList ∧
      t.timer = s.timer ∧
      t.pace = s.pace ∧
      t.loss = s.loss ∧
      t.archive = s.archive ∧
      t.history = s.history ∧
      t.line = s.line ∧
      t.plant = s.plant ∧
      t.frame = s.frame ∧
      t.alert = s.alert ∧
      t.pending = s.pending := by
  have h := event_proj (fun s => (s.conditions, s.straps, s.pitch, s.layout, s.stations, s.tracker, s.callList, s.timer, s.pace, s.loss, s.archive, s.history, s.line, s.plant, s.frame, s.alert, s.pending))
    (by simp) (by simp) e
  simpa using h

theorem execPresenceReturn_keeps (tile : Fin 30) (present : Bool) {s t : State} (e : execPresenceReturn tile present s = .next t) :
      t.conditions = s.conditions ∧
      t.straps = s.straps ∧
      t.pitch = s.pitch ∧
      t.layout = s.layout ∧
      t.stations = s.stations ∧
      t.tracker = s.tracker ∧
      t.callList = s.callList ∧
      t.timer = s.timer ∧
      t.pace = s.pace ∧
      t.loss = s.loss ∧
      t.archive = s.archive ∧
      t.history = s.history ∧
      t.line = s.line ∧
      t.plant = s.plant ∧
      t.frame = s.frame ∧
      t.alert = s.alert ∧
      t.pending = s.pending := by
  have h := event_proj (fun s => (s.conditions, s.straps, s.pitch, s.layout, s.stations, s.tracker, s.callList, s.timer, s.pace, s.loss, s.archive, s.history, s.line, s.plant, s.frame, s.alert, s.pending))
    (by simp) (by simp) e
  simpa using h

theorem execSetIntensity_keeps (target ramp flags : Byte) {s t : State} (e : execSetIntensity target ramp flags s = .next t) :
      t.conditions = s.conditions ∧
      t.straps = s.straps ∧
      t.pitch = s.pitch ∧
      t.layout = s.layout ∧
      t.stations = s.stations ∧
      t.tracker = s.tracker ∧
      t.callList = s.callList ∧
      t.timer = s.timer ∧
      t.pace = s.pace ∧
      t.loss = s.loss ∧
      t.archive = s.archive ∧
      t.history = s.history ∧
      t.line = s.line ∧
      t.frame = s.frame ∧
      t.alert = s.alert ∧
      t.pending = s.pending := by
  have h := event_proj (fun s => (s.conditions, s.straps, s.pitch, s.layout, s.stations, s.tracker, s.callList, s.timer, s.pace, s.loss, s.archive, s.history, s.line, s.frame, s.alert, s.pending))
    (by exact takeCommand_proj (fun s => (s.conditions, s.straps, s.pitch, s.layout, s.stations, s.tracker, s.callList, s.timer, s.pace, s.loss, s.archive, s.history, s.line, s.frame, s.alert, s.pending)) (by simp) (by simp) (by simp) (by simp)) (by simp) e
  simpa using h

theorem execRestartTiles_keeps {s t : State} (e : execRestartTiles s = .next t) :
      t.conditions = s.conditions ∧
      t.straps = s.straps ∧
      t.pitch = s.pitch ∧
      t.layout = s.layout ∧
      t.stations = s.stations ∧
      t.tracker = s.tracker ∧
      t.callList = s.callList ∧
      t.timer = s.timer ∧
      t.pace = s.pace ∧
      t.loss = s.loss ∧
      t.archive = s.archive ∧
      t.history = s.history ∧
      t.line = s.line ∧
      t.frame = s.frame ∧
      t.alert = s.alert ∧
      t.pending = s.pending := by
  have h := event_proj (fun s => (s.conditions, s.straps, s.pitch, s.layout, s.stations, s.tracker, s.callList, s.timer, s.pace, s.loss, s.archive, s.history, s.line, s.frame, s.alert, s.pending))
    (by exact takeCommand_proj (fun s => (s.conditions, s.straps, s.pitch, s.layout, s.stations, s.tracker, s.callList, s.timer, s.pace, s.loss, s.archive, s.history, s.line, s.frame, s.alert, s.pending)) (by simp) (by simp) (by simp) (by simp)) (by simp) e
  simpa using h

end Sys2Proof.Machine
end

