-- ==== Sys2Proof/Laws/Memory.lean ====
section
/-! SUPPORT. The Frame Store's pixels as memory: what a write, a clearing and a pass leave readable, and that
each keeps the canonical form. -/

namespace Sys2Proof.Machine.Memory

/-! ### Reading -/

@[simp] theorem read_nil (a : Nat) : Memory.read [] a = .black := rfl

/-- An address below the listed ones reads black. -/
theorem read_of_wfFrom {m : Memory} {lo a : Nat} (h : Memory.wfFrom lo m = true) (ha : a < lo) :
    m.read a = .black := by
  induction m generalizing lo with
  | nil => rfl
  | cons c rest ih =>
    obtain ⟨b, p⟩ := c
    simp only [Memory.wfFrom, Bool.and_eq_true, decide_eq_true_eq] at h
    rw [Memory.read, if_neg (by omega)]
    exact ih h.2 (by omega)

/-- Another address reads as before a write. -/
theorem read_write_ne (m : Memory) {a b : Nat} (p : Pixel) (h : b ≠ a) : (m.write a p).read b = m.read b := by
  induction m with
  | nil =>
    unfold Memory.write
    split <;> simp [Memory.read, h]
  | cons c rest ih =>
    obtain ⟨d, q⟩ := c
    simp only [Memory.write]
    split
    · split <;> simp [Memory.read, h]
    · split
      · rename_i _ e
        subst e
        split <;> simp [Memory.read, h]
      · simp [Memory.read, ih]

/-- The written address reads the written pixel. -/
theorem read_write_self {m : Memory} {lo : Nat} (h : Memory.wfFrom lo m = true) (a : Nat) (p : Pixel) :
    (m.write a p).read a = p := by
  induction m generalizing lo with
  | nil =>
    unfold Memory.write
    split
    · next e => simp [e]
    · simp [Memory.read]
  | cons c rest ih =>
    obtain ⟨d, q⟩ := c
    simp only [Memory.wfFrom, Bool.and_eq_true, decide_eq_true_eq] at h
    simp only [Memory.write]
    split
    · rename_i had
      split
      · next e => rw [Memory.read, if_neg (by omega), e, read_of_wfFrom h.2 (by omega)]
      · simp [Memory.read]
    · split
      · rename_i _ e
        subst e
        split
        · next e => rw [e, read_of_wfFrom h.2 (by omega)]
        · simp [Memory.read]
      · rename_i _ hne
        rw [Memory.read, if_neg hne]
        exact ih h.2

/-- A cleared address reads black, another as before. -/
theorem read_blacken {m : Memory} {lo : Nat} (h : Memory.wfFrom lo m = true) (f : Nat → Bool) (a : Nat) :
    (m.blacken f).read a = if f a then .black else m.read a := by
  induction m generalizing lo with
  | nil => simp [Memory.blacken, Memory.read]
  | cons c rest ih =>
    obtain ⟨d, q⟩ := c
    simp only [Memory.wfFrom, Bool.and_eq_true, decide_eq_true_eq] at h
    have ih' := ih h.2
    unfold Memory.blacken at ih' ⊢
    cases hd : f d with
    | true =>
      simp only [List.filter, hd, Bool.not_true, Memory.read]
      by_cases e : a = d
      · subst e; simp [ih', hd]
      · simp [ih', e]
    | false =>
      simp only [List.filter, hd, Bool.not_false, Memory.read]
      by_cases e : a = d
      · subst e; simp [hd]
      · simp [ih', e]

/-- The pixels a portion takes at its beginning read as the Frame Store's inside the tile's square. -/
theorem read_ofTile (m : Memory) (t : Fin 30) (a : Nat) :
    (m.ofTile t).read a =
      if Rect.holdsAddress ⟨16 * (t.val / 3), 16 * (t.val % 3), 16 * (t.val / 3) + 15, 16 * (t.val % 3) + 15⟩ a then
        m.read a
      else .black := by
  unfold Memory.ofTile
  induction m with
  | nil => simp [Memory.read]
  | cons c rest ih =>
    obtain ⟨d, q⟩ := c
    simp only [List.filter]
    split
    · rename_i hd
      by_cases e : a = d
      · subst e; simp [Memory.read, hd]
      · simp only [Memory.read, if_neg e]; exact ih
    · rename_i hd
      by_cases e : a = d
      · subst e; rw [ih]; simp [hd]
      · simp only [Memory.read, if_neg e]; exact ih

/-! ### The canonical form -/

theorem wfFrom_mono {m : Memory} {lo lo' : Nat} (h : Memory.wfFrom lo m = true) (hl : lo' ≤ lo) :
    Memory.wfFrom lo' m = true := by
  cases m with
  | nil => rfl
  | cons c rest =>
    simp only [Memory.wfFrom, Bool.and_eq_true, decide_eq_true_eq] at h ⊢
    exact ⟨⟨⟨by omega, h.1.1.2⟩, h.1.2⟩, h.2⟩

theorem wfFrom_write {m : Memory} {lo a : Nat} (p : Pixel) (h : Memory.wfFrom lo m = true) (hlo : lo ≤ a)
    (ha : a < 7680) : Memory.wfFrom lo (m.write a p) = true := by
  induction m generalizing lo with
  | nil =>
    unfold Memory.write
    split
    · rfl
    · next e => simp [Memory.wfFrom, hlo, ha, e]
  | cons c rest ih =>
    obtain ⟨d, q⟩ := c
    have h0 := h
    simp only [Memory.wfFrom, Bool.and_eq_true, decide_eq_true_eq] at h
    simp only [Memory.write]
    split
    · rename_i had
      split
      · exact h0
      · next e =>
        simp only [Memory.wfFrom, Bool.and_eq_true, decide_eq_true_eq]
        exact ⟨⟨⟨hlo, ha⟩, e⟩, ⟨⟨⟨by omega, h.1.1.2⟩, h.1.2⟩, h.2⟩⟩
    · split
      · rename_i _ e
        subst e
        split
        · exact wfFrom_mono h.2 (by omega)
        · next e =>
          simp only [Memory.wfFrom, Bool.and_eq_true, decide_eq_true_eq]
          exact ⟨⟨⟨hlo, ha⟩, e⟩, h.2⟩
      · rename_i h1 h2
        simp only [Memory.wfFrom, Bool.and_eq_true, decide_eq_true_eq]
        exact ⟨h.1, ih h.2 (by omega)⟩

/-- A write inside the frame keeps the canonical form. -/
theorem wf_write {m : Memory} {a : Nat} (p : Pixel) (h : m.wf = true) (ha : a < 7680) : (m.write a p).wf = true :=
  wfFrom_write p h (Nat.zero_le a) ha

/-- A clearing keeps the canonical form. -/
theorem wfFrom_blacken {m : Memory} {lo : Nat} (f : Nat → Bool) (h : Memory.wfFrom lo m = true) :
    Memory.wfFrom lo (m.blacken f) = true := by
  induction m generalizing lo with
  | nil => rfl
  | cons c rest ih =>
    obtain ⟨d, q⟩ := c
    simp only [Memory.wfFrom, Bool.and_eq_true, decide_eq_true_eq] at h
    have ih' := ih h.2
    unfold Memory.blacken at ih' ⊢
    cases hd : f d with
    | true =>
      simp only [List.filter, hd, Bool.not_true]
      exact wfFrom_mono ih' (by omega)
    | false =>
      simp only [List.filter, hd, Bool.not_false, Memory.wfFrom, Bool.and_eq_true, decide_eq_true_eq]
      exact ⟨h.1, ih'⟩

theorem wf_blacken {m : Memory} (f : Nat → Bool) (h : m.wf = true) : (m.blacken f).wf = true := wfFrom_blacken f h

/-! ### Passes -/

/-- An address that no pixel of the run has reads as before. -/
theorem read_drawFrom_ne (r : Region) (c : Capture) (a : Nat) (n i : Nat) (m : Memory)
    (h : ∀ j, i ≤ j → j < i + n → a ≠ r.address j) : (r.drawFrom c i n m).read a = m.read a := by
  induction n generalizing i m with
  | zero => rfl
  | succ n ih =>
    rw [Region.drawFrom, ih (i + 1) _ fun j h1 h2 => h j (by omega) (by omega), Region.drawPixel,
      read_write_ne _ _ (h i (by omega) (by omega))]

/-- A run of a pass inside the frame keeps the canonical form. -/
theorem wf_drawFrom (r : Region) (c : Capture) (n i : Nat) (m : Memory) (hm : m.wf = true)
    (h : ∀ j, i ≤ j → j < i + n → r.address j < 7680) : (r.drawFrom c i n m).wf = true := by
  induction n generalizing i m with
  | zero => exact hm
  | succ n ih =>
    rw [Region.drawFrom]
    exact ih (i + 1) _ (wf_write _ hm (h i (by omega) (by omega))) fun j h1 h2 => h j (by omega) (by omega)

end Sys2Proof.Machine.Memory
end

