-- ==== Sys2Proof/Laws/Outputs.lean ====
section
/-! SUPPORT. What the part shows: MISO, a reply whose slot a close takes, and text drawn character by character. -/

namespace Sys2Proof.Machine

/-! ### MISO (R132, R178) -/

@[simp] theorem served_waiting (i : Nat) : Transaction.waiting.served i = none := rfl

/-- Once a transaction has begun, MISO drives its reply. -/
theorem served_of_ne_waiting {t : Transaction} (h : t ≠ .waiting) (i : Nat) : t.served i = some (t.reply i) :=
  if_neg h

theorem miso_inReset {s : State} (h : s.inReset = true) (i : Nat) : s.miso i = none := by simp [State.miso, h]

theorem miso_running {s : State} (h : s.inReset = false) (i : Nat) : s.miso i = s.plant.transaction.served i := by
  simp [State.miso, h]

/-- Outside hard reset MISO is high-impedance exactly where no transaction has begun. -/
theorem miso_eq_none_iff {s : State} (h : s.inReset = false) (i : Nat) :
    s.miso i = none ↔ s.plant.transaction = .waiting := by
  simp [State.miso, h, Transaction.served]

/-! ### A reply whose slot a close takes (R109) -/

/-- The header of an EMPTY or WRITING slot, or of none, goes on as taken. -/
@[simp] theorem slotTaken_no_body (j : Option (Fin 4)) (header : List Byte) (cut : Bool) (k : Fin 4) :
    (Transaction.summary j (some ⟨header, [], cut⟩)).slotTaken k = .summary j (some ⟨header, [], cut⟩) := by
  cases j <;> simp [Transaction.slotTaken]

@[simp] theorem slotTaken_no_slot (r : Option SummaryReply) (k : Fin 4) :
    (Transaction.summary none r).slotTaken k = .summary none r := rfl

theorem slotTaken_other_slot {j k : Fin 4} (h : j ≠ k) (r : Option SummaryReply) :
    (Transaction.summary (some j) r).slotTaken k = .summary (some j) r := by
  cases r <;> simp [Transaction.slotTaken, h]

/-- From the cut on, every byte of a COMPLETE slot's reply is 0xFF. -/
theorem served_slotTaken {r : SummaryReply} (h : r.body ≠ []) (k : Fin 4) (i : Nat) :
    ((Transaction.summary (some k) (some r)).slotTaken k).served i = some 0xFF := by
  simp [Transaction.slotTaken, h, Transaction.served, Transaction.reply]

/-! ### Text (R163) -/

/-- A character wholly inside the columns, on a line wholly inside the rows, shows its glyph. -/
theorem TextLine.pixel_char {t : TextLine} {w h j row col : Nat} {g : Glyph} {c : Colour}
    (hh : t.top + 8 ≤ h) (hw : t.left + 6 * j + 5 ≤ w) (hr : row < 7) (hc : col < 5)
    (hj : t.cells[j]? = some (g, c)) :
    t.pixel w h (t.left + 6 * j + col) (t.top + row) = if g.bit row col then some c.pixel else none := by
  have hdiv : (t.left + 6 * j + col - t.left) / 6 = j := by omega
  have hmod : (t.left + 6 * j + col - t.left) % 6 = col := by omega
  have hrow : t.top + row - t.top = row := by omega
  have hin : t.top + 8 ≤ h ∧ t.top ≤ t.top + row ∧ t.top + row < t.top + 7 ∧ t.left ≤ t.left + 6 * j + col := by
    omega
  unfold TextLine.pixel
  rw [if_pos hin]
  simp only [hdiv, hmod, hrow]
  rw [if_pos ⟨hc, hw⟩, hj]

/-- A pixel that a line lights lies in one of its drawn characters. -/
theorem TextLine.char_of_pixel {t : TextLine} {w h x y : Nat} {p : Pixel} (e : t.pixel w h x y = some p) :
    ∃ j row col g c, t.top + 8 ≤ h ∧ t.left + 6 * j + 5 ≤ w ∧ row < 7 ∧ col < 5 ∧ x = t.left + 6 * j + col ∧
      y = t.top + row ∧ t.cells[j]? = some (g, c) ∧ g.bit row col = true ∧ p = c.pixel := by
  unfold TextLine.pixel at e
  split at e
  · rename_i hin
    dsimp only at e
    split at e
    · rename_i hcol
      split at e
      · rename_i g c hj
        split at e
        · rename_i hb
          cases e
          exact ⟨(x - t.left) / 6, y - t.top, (x - t.left) % 6, g, c, hin.1, hcol.2, by omega, hcol.1, by omega,
            by omega, hj, hb, rfl⟩
        · cases e
      · cases e
    · cases e
  · cases e

/-- A line lights nothing outside its seven rows. -/
theorem TextLine.pixel_outside {t : TextLine} {w h x y : Nat} (hy : y < t.top ∨ t.top + 7 ≤ y) :
    t.pixel w h x y = none := by
  unfold TextLine.pixel
  rw [if_neg (by omega)]

/-- Lines eight rows apart: the character of a line decides its pixels. -/
theorem textPixel_char {ls : List TextLine} (apart : ls.Pairwise fun a b => a.top + 8 ≤ b.top) {t : TextLine}
    (ht : t ∈ ls) {w h j row col : Nat} {g : Glyph} {c : Colour} (hh : t.top + 8 ≤ h)
    (hw : t.left + 6 * j + 5 ≤ w) (hr : row < 7) (hc : col < 5) (hj : t.cells[j]? = some (g, c)) :
    textPixel ls w h (t.left + 6 * j + col) (t.top + row) = if g.bit row col then c.pixel else Colour.black.pixel := by
  unfold textPixel
  suffices e : (ls.findSome? fun u => u.pixel w h (t.left + 6 * j + col) (t.top + row)) =
      if g.bit row col then some c.pixel else none by
    rw [e]; split <;> rfl
  induction ls with
  | nil => cases ht
  | cons a rest ih =>
    rw [List.pairwise_cons] at apart
    rcases List.mem_cons.1 ht with rfl | hmem
    · rw [List.findSome?_cons, TextLine.pixel_char hh hw hr hc hj]
      have none_rest : (rest.findSome? fun u => u.pixel w h (t.left + 6 * j + col) (t.top + row)) = none :=
        List.findSome?_eq_none_iff.2 fun u hu => TextLine.pixel_outside (Or.inl (by have := apart.1 u hu; omega))
      split <;> simp_all
    · have out : a.pixel w h (t.left + 6 * j + col) (t.top + row) = none :=
        TextLine.pixel_outside (Or.inr (by have := apart.1 t hmem; omega))
      rw [List.findSome?_cons, out]
      exact ih apart.2 hmem

/-- A pixel that no drawn character covers is black. -/
theorem textPixel_black {ls : List TextLine} {w h x y : Nat}
    (none_covers : ∀ t ∈ ls, ∀ j row col, j < t.cells.length → ¬(t.top + 8 ≤ h ∧ t.left + 6 * j + 5 ≤ w ∧
      row < 7 ∧ col < 5 ∧ x = t.left + 6 * j + col ∧ y = t.top + row)) :
    textPixel ls w h x y = Colour.black.pixel := by
  unfold textPixel
  rw [List.findSome?_eq_none_iff.2]
  · rfl
  · intro t ht
    cases e : t.pixel w h x y with
    | none => rfl
    | some p =>
      obtain ⟨j, row, col, g, c, hh, hw, hr, hc, hx, hy, hj, _, _⟩ := TextLine.char_of_pixel e
      have hlen : j < t.cells.length := by
        by_contra hge
        rw [List.getElem?_eq_none (Nat.le_of_not_lt hge)] at hj
        cases hj
      exact absurd ⟨hh, hw, hr, hc, hx, hy⟩ (none_covers t ht j row col hlen)

/-- The lines of a stack are its texts, one under another (R166). -/
theorem mem_stackLines {n : Nat} {ts : List (List (Glyph × Colour))} {t : TextLine} :
    t ∈ stackLines n ts ↔ ∃ k cells, ts[k]? = some cells ∧ t = ⟨8 * (n + k), 0, cells⟩ := by
  induction ts generalizing n with
  | nil => simp [stackLines]
  | cons a rest ih =>
    rw [stackLines, List.mem_cons, ih]
    constructor
    · rintro (rfl | ⟨k, cells, hk, rfl⟩)
      · exact ⟨0, a, rfl, rfl⟩
      · exact ⟨k + 1, cells, hk, by rw [Nat.add_right_comm, Nat.add_assoc]⟩
    · rintro ⟨k, cells, hk, rfl⟩
      cases k with
      | zero => cases hk; exact Or.inl rfl
      | succ k => exact Or.inr ⟨k, cells, hk, by rw [Nat.add_right_comm, Nat.add_assoc]⟩

/-- The lines of a stack lie eight rows apart. -/
theorem stackLines_apart (n : Nat) (ts : List (List (Glyph × Colour))) :
    (stackLines n ts).Pairwise fun a b => a.top + 8 ≤ b.top := by
  induction ts generalizing n with
  | nil => exact List.Pairwise.nil
  | cons a rest ih =>
    refine List.Pairwise.cons (fun b hb => ?_) (ih (n + 1))
    obtain ⟨k, cells, _, rfl⟩ := mem_stackLines.1 hb
    show 8 * n + 8 ≤ 8 * (n + 1 + k)
    omega

end Sys2Proof.Machine
end

