-- ==== Sys2Proof/Laws/Requests.lean ====
section
/-! SUPPORT. What serving the requests of an event gives, in the words of Safety: which regions start a pass and
which have a request pending. -/

namespace Sys2Proof.Machine

/-- Serving changes nothing a pass captures. -/
theorem captureFor_serve (u : State) (r : Role) : (serve u).captureFor r = u.captureFor r := by
  cases r <;> rfl

theorem requested_serve (u : State) (r : Region) : (serve u).requested r = u.requested r := by
  unfold State.requested State.startedPass
  rw [captureFor_serve]

/-- Serving gives each requested role its passes. -/
theorem serve_Requested (roles : List Role) {s u : State} (hr : u.engine.regions = s.engine.regions)
    (h : ∀ r, u.engine.requests.has r = decide (r ∈ roles)) : Requested roles s (serve u) := by
  intro i
  rw [serve_region, hr, h, requested_serve]
  simp

/-- The whole engine after serving, where the event left the rest of it as it was. -/
theorem serve_RequestedOnly (roles : List Role) {s u : State}
    (he : { u.engine with requests := .none } = s.engine)
    (h : ∀ r, u.engine.requests.has r = decide (r ∈ roles)) : RequestedOnly roles s (serve u) := by
  have hr : u.engine.regions = s.engine.regions := by rw [← he]
  refine ⟨?_, serve_Requested roles hr h⟩
  rw [← he]
  rfl

/-- With no role requested the engine is as it was. -/
theorem requestedOnly_nil {s t : State} (h : RequestedOnly [] s t) : t.engine = s.engine := by
  obtain ⟨h, hr⟩ := h
  have : t.engine.regions = s.engine.regions := Tab.ext_at fun i => by simpa using hr i
  rw [← h, ← this]

/-- Requests leave everything but the engine's render states. -/
theorem RequestedOnly.onlyRenders {roles : List Role} {s t : State} (h : RequestedOnly roles s t) :
    OnlyRenders s.engine t.engine := by
  refine ⟨h.1, fun i => ?_⟩
  rw [h.2 i]
  split <;> rfl

end Sys2Proof.Machine
end

