-- ==== Sys2Proof/Laws/Tracker.lean ====
section
/-! SUPPORT. The Conveyor Tracker: what a moment does to the filters of its inputs and of XALERT, what the derived sets depend on,
what settling the Tracker gives each zone, and what the alert decision leaves. -/

namespace Sys2Proof.Machine

/-- Two states agree on every input of the stop-reason sets. -/
structure SameInputs (s t : State) : Prop where
  layout : t.layout = s.layout
  calls : t.callList.calls.map (fun c => (c.zone, c.phase)) = s.callList.calls.map (fun c => (c.zone, c.phase))
  state : t.timer.state = s.timer.state
  xstop : t.tracker.xstop = s.tracker.xstop
  buffers : t.tracker.buffers = s.tracker.buffers

theorem any_of_map_eq {α β : Type} (f : α → β) (p : β → Bool) {l m : List α} (h : l.map f = m.map f) :
    (l.any fun a => p (f a)) = m.any fun a => p (f a) := by
  have : (l.map f).any p = (m.map f).any p := by rw [h]
  simpa [List.any_map, Function.comp_def] using this

theorem SameInputs.zoneHeld {s t : State} (h : SameInputs s t) (k : Fin 6) : t.zoneHeld k = s.zoneHeld k :=
  any_of_map_eq (fun c : Call => (c.zone, c.phase)) (fun p => decide (p.1 = k) && decide (p.2 = .hold)) h.calls

theorem SameInputs.base {s t : State} (h : SameInputs s t) (k : Fin 6) : t.baseReasons k = s.baseReasons k := by
  unfold State.baseReasons
  rw [h.layout, h.state, h.xstop, h.zoneHeld]

theorem SameInputs.blocked {s t : State} (h : SameInputs s t) (n : Nat) : t.blockedPass n = s.blockedPass n := by
  induction n with
  | zero => rfl
  | succ n ih =>
    simp only [State.blockedPass, ih, State.fullAt, State.baseAt, State.bufferFull, h.layout, h.buffers, h.base]

theorem SameInputs.starved {s t : State} (h : SameInputs s t) (n : Nat) : t.starvedPass n = s.starvedPass n := by
  induction n with
  | zero => rfl
  | succ n ih =>
    simp only [State.starvedPass, ih, State.emptyAt, State.baseAt, State.bufferEmpty, h.layout, h.buffers, h.base]

/-- The derived sets depend on the inputs alone (R22). -/
theorem SameInputs.derived {s t : State} (h : SameInputs s t) (k : Fin 6) :
    t.derivedReasons k = s.derivedReasons k := by
  simp only [State.derivedReasons, h.base, h.blocked, h.starved]

theorem SameInputs.trans {s t u : State} (h : SameInputs s t) (g : SameInputs t u) : SameInputs s u :=
  ⟨g.layout.trans h.layout, g.calls.trans h.calls, g.state.trans h.state, g.xstop.trans h.xstop,
    g.buffers.trans h.buffers⟩

/-! ### The PITCH filters (R14) -/

/-- A qualified pulse, given whole, is what a HIGH level and its 20 µs give an armed input. -/
theorem pulse_is_level_held (f : PinFilter) (h : f.taken = false) :
    (f.afterPitch (.level true)).afterPitch .held = f.afterPitch .pulse ∧ (f.afterPitch (.level true)).qualifies .held = true := by
  simp [PinFilter.afterPitch, PinFilter.qualifies, PinFilter.given, PinFilter.settled, h]

/-- An input back at the level taken leaves nothing timed, so the 20 µs that follow change nothing. -/
theorem level_taken_rejects (f : PinFilter) :
    f.afterPitch (.level f.taken) = ⟨f.taken, false⟩ ∧ (f.afterPitch (.level f.taken)).afterPitch .held = f.afterPitch (.level f.taken) := by
  simp [PinFilter.afterPitch, PinFilter.given, PinFilter.settled]

/-- A moment of one input changes its filter alone, and the Tracker with all that follows a step only where it
qualifies a pulse of a used zone. -/
theorem givePitch_spec (k : Fin 6) (m : PitchMoment) (s : State) :
    (givePitch k m s).pitch = s.pitch.upd k (PinFilter.afterPitch m) ∧
      givePitch k m s =
        if (s.pitch.at_ k).qualifies m = true ∧ s.layout.zoneUsed k = true
          then stepZone k (s.onPitch k (PinFilter.afterPitch m)) else s.onPitch k (PinFilter.afterPitch m) := by
  refine ⟨?_, by simp [givePitch]⟩
  unfold givePitch
  dsimp only
  split <;> simp

/-- What a layout write does to the PITCH filters (R14). -/
theorem storeZone_pitch (k : Fin 6) (new : Layout) (s : State) :
    (storeZone k new s).pitch = .tab fun j => (s.pitch.at_ j).afterWrite j s.layout new := by
  simp [storeZone, raiseLayout]

/-! ### XSTOP and XALERT (R26, R177) -/

/-- A level taken whole is what the level and its 20 µs give. -/
theorem taken_is_level_held (active high : Bool) (f : PinFilter) :
    (f.afterLevel active (.level high)).afterLevel active .held = f.afterLevel active (.taken high) := by
  obtain ⟨t, m⟩ := f
  simp only [PinFilter.afterLevel, PinFilter.given, PinFilter.settled]
  cases active <;> cases high <;> cases t <;> rfl

/-- An excursion that ends before its 20 µs leaves the level taken, and nothing timed. -/
theorem excursion_rejected (active high : Bool) (f : PinFilter) :
    (f.afterLevel active (.level high)).taken = f.taken ∧
      ((high == active) = f.taken →
        (f.afterLevel active (.level high)).afterLevel active .held = ⟨f.taken, false⟩) := by
  constructor
  · rfl
  · rintro h
    simp [PinFilter.afterLevel, PinFilter.given, PinFilter.settled, h]

/-- What a moment of XSTOP gives: its filter, and the change of a taken level settled. -/
theorem giveXstop_spec (m : LevelMoment) (s : State) :
    (giveXstop m s).tracker.xstop = s.tracker.xstop.afterLevel true m ∧
      giveXstop m s =
        (let t : State := { s with tracker := { s.tracker with xstop := s.tracker.xstop.afterLevel true m } }
         if (s.tracker.xstop.afterLevel true m).taken = s.tracker.xstop.taken then t
         else settleTracker s (t.raise .banner)) := by
  refine ⟨?_, rfl⟩
  unfold giveXstop
  dsimp only
  split
  · rfl
  · unfold settleTracker requalify State.raiseIf rederive
    dsimp only
    split <;> split <;> rfl

/-- What a moment of XALERT gives: its filter, and the banner requested where the level taken changes. -/
theorem giveXalert_spec (m : LevelMoment) (s : State) :
    (giveXalert m s).alert = { s.alert with xalert := s.alert.xalert.afterLevel false m } ∧
      (giveXalert m s).engine.requests =
        if (s.alert.xalert.afterLevel false m).taken = s.alert.xalert.taken then s.engine.requests
        else s.engine.requests.add .banner := by
  unfold giveXalert
  dsimp only
  constructor
  · simp
  · by_cases h : (s.alert.xalert.afterLevel false m).taken = s.alert.xalert.taken <;> simp [h]

/-! ### Settling the Tracker -/

theorem setsDerived_iff (s : State) : s.setsDerived = true ↔ s.SetsCurrent := by
  simp [State.setsDerived, State.SetsCurrent, List.all_eq_true]

theorem withReasons_self (z : ZoneState) : z.withReasons z.reasons = z := by
  unfold ZoneState.withReasons
  split
  · rename_i h; simp at h
  · rfl

/-- A zone after the sets are derived again (R24). -/
theorem rederive_zone (s : State) (k : Fin 6) :
    (rederive s).tracker.zones.at_ k = (s.tracker.zones.at_ k).withReasons (s.derivedReasons k) := by
  unfold rederive
  split
  · rename_i h
    rw [← (setsDerived_iff s).1 h k, withReasons_self]
  · simp [State.raise]

@[simp] theorem withReasons_reasons (z : ZoneState) (r : ReasonSet) : (z.withReasons r).reasons = r := by
  unfold ZoneState.withReasons
  split <;> rfl

@[simp] theorem requalified_reasons (z : ZoneState) (b n : Bool) : (z.requalified b n).reasons = z.reasons := by
  unfold ZoneState.requalified
  split <;> rfl

theorem rederive_inputs (s : State) : SameInputs s (rederive s) := by
  refine ⟨by simp, by simp, by simp, ?_, ?_⟩ <;> · unfold rederive; split <;> simp [State.raise]

theorem requalify_inputs (old s : State) : SameInputs s (requalify old s) := by
  refine ⟨by simp, by simp, by simp, ?_, ?_⟩ <;>
    · unfold requalify State.raiseIf; dsimp only; split <;> simp [State.raise]

theorem requalify_zone (old s : State) (k : Fin 6) :
    (requalify old s).tracker.zones.at_ k =
      (s.tracker.zones.at_ k).requalified (old.qualifies k) (s.qualifies k) := by
  unfold requalify State.raiseIf
  dsimp only
  split <;> simp [State.raise]

theorem settleTracker_inputs (old s : State) : SameInputs s (settleTracker old s) :=
  (rederive_inputs s).trans (requalify_inputs _ _)

/-- A zone qualifies by the layout, its set and the shift state alone (R29). -/
theorem qualifies_congr {s t : State} (k : Fin 6) (hl : t.layout = s.layout)
    (hr : (t.tracker.zones.at_ k).reasons = (s.tracker.zones.at_ k).reasons)
    (hs : t.timer.state = s.timer.state) : t.qualifies k = s.qualifies k := by
  simp only [State.qualifies, State.zstop, hl, hr, hs]

/-- A zone after the Tracker has settled (R24, R29). -/
theorem settleTracker_zone (old s : State) (k : Fin 6) :
    (settleTracker old s).tracker.zones.at_ k =
      ((s.tracker.zones.at_ k).withReasons ((settleTracker old s).derivedReasons k)).requalified
        (old.qualifies k) ((settleTracker old s).qualifies k) := by
  have h1 : (settleTracker old s).qualifies k = (rederive s).qualifies k := by
    apply qualifies_congr
    · simp [settleTracker]
    · simp [settleTracker, requalify_zone]
    · simp [settleTracker]
  rw [(settleTracker_inputs old s).derived, h1]
  unfold settleTracker
  rw [requalify_zone, rederive_zone]

/-- Settling leaves the sets derived. -/
theorem settleTracker_setsCurrent (old s : State) : (settleTracker old s).SetsCurrent := by
  intro k
  rw [settleTracker_zone]
  simp

/-- The state after settling satisfies Safety's word for it. -/
theorem settleTracker_settled (old s : State) :
    Settled s.tracker.zones.at_ old (settleTracker old s) := settleTracker_zone old s

/-- A changed set requests STATIONS and TICKER (R24). -/
theorem rederive_requests (s : State) (r : Role) :
    (rederive s).engine.requests.has r =
      (s.engine.requests.has r || decide (r ∈ if SetsChange s (rederive s) then [Role.stations, .ticker] else [])) := by
  have zone (k : Fin 6) : ((rederive s).tracker.zones.at_ k).reasons = s.derivedReasons k := by simp [rederive_zone]
  by_cases h : s.setsDerived = true
  · have : ¬SetsChange s (rederive s) := by
      rintro ⟨k, hk⟩
      exact hk (by rw [zone, (setsDerived_iff s).1 h k])
    rw [if_neg this, rederive, if_pos h]
    simp
  · have : SetsChange s (rederive s) := by
      by_contra hn
      refine h ((setsDerived_iff s).2 fun k => ?_)
      by_contra hk
      exact hn ⟨k, by rw [zone]; exact fun e => hk e.symm⟩
    rw [if_pos this, rederive, if_neg h]
    simp only [raise_fields, has_add]
    cases r <;> simp [Role.isEngine]

/-- A STALL that stall qualification clears requests STATIONS (R31). -/
theorem requalify_requests (old s : State) (r : Role) :
    (requalify old s).engine.requests.has r =
      (s.engine.requests.has r || (stallCleared s (requalify old s) && decide (r = .stations))) := by
  have zones : (requalify old s).tracker.zones = .tab fun k =>
      (s.tracker.zones.at_ k).requalified (old.qualifies k) (s.qualifies k) := by
    unfold requalify State.raiseIf
    dsimp only
    split <;> rfl
  have cleared : stallCleared s (requalify old s) = stallCleared s { s with
      tracker := { s.tracker with
        zones := .tab fun k => (s.tracker.zones.at_ k).requalified (old.qualifies k) (s.qualifies k) } } := by
    unfold stallCleared
    rw [zones]
  rw [cleared]
  simp only [requalify, raiseIf_engine]
  cases stallCleared s _ <;> cases r <;> simp [has_add, Role.isEngine]

/-- With the shift state as it was there is nothing to hand on (R68). -/
theorem handOn_same {old s : State} (h : s.timer.state = old.timer.state) : handOn old s = s := if_pos h

/-- A change of shift state handed on settles every zone once, against the state the change began in (R68). -/
theorem handOn_settled {old s : State} (h : s.timer.state ≠ old.timer.state) :
    Settled s.tracker.zones.at_ old (handOn old s) := by
  unfold handOn
  rw [if_neg h]
  exact settleTracker_settled old ((s.raise .banner).raise .clock)

/-- What depends on the inputs and the zones carries over. -/
theorem Settled.congr {base : Fin 6 → ZoneState} {s u t : State} (h : Settled base s u) (hi : SameInputs u t)
    (hz : t.tracker.zones = u.tracker.zones) : Settled base s t := by
  intro k
  have hq : t.qualifies k = u.qualifies k := qualifies_congr k hi.layout (by rw [hz]) hi.state
  rw [hz, h k, hi.derived, hq]

theorem SetsCurrent.congr {u t : State} (h : u.SetsCurrent) (hi : SameInputs u t)
    (hz : t.tracker.zones = u.tracker.zones) : t.SetsCurrent := by
  intro k
  rw [hz, hi.derived]
  exact h k

/-! ### The alert decision -/

/-- The causes present depend on calls, layout and zones alone (R176). -/
theorem presentCauses_congr {s t : State} (hc : t.callList = s.callList) (hl : t.layout = s.layout)
    (hz : t.tracker = s.tracker) : t.presentCauses = s.presentCauses := by
  simp only [State.presentCauses, hc, hl, hz]

theorem decideAlert_causesCurrent (old s : State) : (decideAlert old s).CausesCurrent := by
  unfold State.CausesCurrent
  rw [presentCauses_congr (s := s) (by simp) (by simp) (by simp)]
  unfold decideAlert State.onAlert State.onTiles
  dsimp only
  split <;> rfl

theorem serve_causesCurrent {s : State} (h : s.CausesCurrent) : (serve s).CausesCurrent := h

/-- With the cause set current and nothing else changed, the alert decision changes nothing. -/
theorem decideAlert_self (s : State) (h : s.CausesCurrent) : decideAlert s s = s := by
  have e : (s.onAlert fun a => { a with causes := s.presentCauses }) = s := by
    unfold State.CausesCurrent at h
    unfold State.onAlert
    rw [← h]
  unfold decideAlert
  dsimp only
  rw [e]
  simp

/-- The alert decision gives the actual intensity by R175. -/
theorem decideAlert_intensity {old s : State} (h : s.tiles = old.tiles) :
    IntensityFollows old (decideAlert old s) := by
  unfold IntensityFollows decideAlert State.onAlert State.onTiles
  dsimp only
  rw [h]
  split <;> simp_all [State.effectiveTarget, AlertLogic.asserted]

theorem serve_intensity {s t : State} (h : IntensityFollows s t) : IntensityFollows s (serve t) := h

/-- The alert decision changes the causes and the actual intensity alone. -/
theorem decideAlert_echoes (old s : State) :
    { (decideAlert old s).alert with causes := s.alert.causes } = s.alert ∧
      { (decideAlert old s).tiles with actual := s.tiles.actual } = s.tiles ∧
      (decideAlert old s).engine = s.engine := by
  unfold decideAlert State.onAlert State.onTiles
  dsimp only
  split <;> simp

end Sys2Proof.Machine
end

