-- ==== Sys2Proof/Laws/Wires.lean ====
section
/-! SUPPORT. The bits of the two ports: what a byte's eight bits give back, and that an edge of SCK is another
command, or none, taken with the port's clock changed. -/

namespace Sys2Proof.Machine

/-- A byte clocked bit by bit, most significant bit first, is that byte. -/
theorem byteOfBits_getMsbD (b : Byte) : byteOfBits ((List.range 8).map b.getMsbD) = b := by
  revert b
  decide

@[simp] theorem onNext_next (f : State → State) (t : State) : onNext f (.next t) = .next (f t) := rfl

/-- What the argument bytes of a plant command spell is the command of a row. -/
theorem takeSpelled_exec (c : PlantCommand) (args : List Byte) :
    ∃ i, (∀ e, i ≠ .commandByte (.edge e)) ∧ ∀ s, takeSpelled c args s = exec i s :=
  let b := byteAt args
  let h := halfAt args
  match c with
  | .readStatus => ⟨.readStatus .taken, nofun, fun _ => rfl⟩
  | .readStation => ⟨.readStation (.taken (b 0)), nofun, fun _ => rfl⟩
  | .readCalls => ⟨.readCalls, nofun, fun _ => rfl⟩
  | .readPace => ⟨.readPace .taken, nofun, fun _ => rfl⟩
  | .readLoss => ⟨.readLoss .taken, nofun, fun _ => rfl⟩
  | .readSummary => ⟨.readSummary (.taken (b 0)), nofun, fun _ => rfl⟩
  | .readHistory => ⟨.readHistory, nofun, fun _ => rfl⟩
  | .rewindHistory => ⟨.rewindHistory, nofun, fun _ => rfl⟩
  | .stagePlan => ⟨.stagePlan (h 0) (h 2) (h 4) (b 6) (Vector.ofFn fun i : Fin 6 => breakAt args i.val), nofun, fun _ => rfl⟩
  | .commitPlan => ⟨.commitPlan (b 0), nofun, fun _ => rfl⟩
  | .discardPlan => ⟨.discardPlan, nofun, fun _ => rfl⟩
  | .shiftStart => ⟨.plantShiftStart (h 0) (h 2), nofun, fun _ => rfl⟩
  | .shiftClose => ⟨.shiftClose, nofun, fun _ => rfl⟩
  | .ackCall => ⟨.ackCall (h 0) (b 2), nofun, fun _ => rfl⟩
  | .clearCall => ⟨.clearCall (h 0) (b 2), nofun, fun _ => rfl⟩
  | .writeLayoutZone => ⟨.writeLayoutZone (b 0) (b 1) (b 2) (b 3) (b 4) (b 5) (b 6) (b 7), nofun, fun _ => rfl⟩
  | .writeLayoutStation => ⟨.writeLayoutStation (b 0) (b 1) (b 2), nofun, fun _ => rfl⟩
  | .writePolicy => ⟨.writePolicy (Vector.ofFn fun i : Fin 15 => h (2 * i.val)) (h 30), nofun, fun _ => rfl⟩
  | .writeLinkSettings => ⟨.writeLinkSettings (b 0) (b 1) (b 2), nofun, fun _ => rfl⟩
  | .setWindow => ⟨.setWindow (b 0) (b 1) (b 2) (b 3), nofun, fun _ => rfl⟩
  | .setCursor => ⟨.setCursor (b 0) (b 1), nofun, fun _ => rfl⟩
  | .setAddressControl => ⟨.setAddressControl (b 0) (b 1) (b 2) (b 3), nofun, fun _ => rfl⟩
  | .setColourMode => ⟨.setColourMode (b 0), nofun, fun _ => rfl⟩
  | .setMask => ⟨.setMask (b 0), nofun, fun _ => rfl⟩
  | .setMark => ⟨.setMark, nofun, fun _ => rfl⟩
  | .returnToMark => ⟨.returnToMark, nofun, fun _ => rfl⟩
  | .writePixels => ⟨.writePixels (b 0), nofun, fun _ => rfl⟩
  | .readPixels => ⟨.readPixels, nofun, fun _ => rfl⟩
  | .writeRegion => ⟨.writeRegion (b 0) (b 1) (b 2) (b 3) (b 4) (b 5) (b 6) (b 7) (b 8), nofun, fun _ => rfl⟩
  | .setIntensity => ⟨.setIntensity (b 0) (b 1) (b 2), nofun, fun _ => rfl⟩
  | .restartTiles => ⟨.restartTiles, nofun, fun _ => rfl⟩

/-- A result that is a command's of a row other than an edge's, taken with the Plant Port's clock changed, or is that
change alone. -/
def ClockedCommand (s : State) (r : Result) : Prop :=
  ∃ c, r = .next (setPlantClock c s) ∨
    ∃ i, (∀ e, i ≠ .commandByte (.edge e)) ∧ r = exec i (setPlantClock c s)

theorem setPlantClock_twice (c d : PlantClock) (s : State) : setPlantClock d (setPlantClock c s) = setPlantClock d s :=
  rfl

theorem setPlantClock_self (s : State) : setPlantClock s.plant.clock s = s := rfl

theorem ClockedCommand.of_clock {s : State} {r : Result} (c : PlantClock) (h : ClockedCommand (setPlantClock c s) r) :
    ClockedCommand s r := h

theorem ClockedCommand.stay (s : State) : ClockedCommand s (.next s) := ⟨s.plant.clock, Or.inl rfl⟩

theorem ClockedCommand.clock (c : PlantClock) (s : State) : ClockedCommand s (.next (setPlantClock c s)) :=
  ⟨c, Or.inl rfl⟩

theorem ClockedCommand.command (i : Instr) (hi : ∀ e, i ≠ .commandByte (.edge e)) (s : State) :
    ClockedCommand s (exec i s) := ⟨s.plant.clock, Or.inr ⟨i, hi, rfl⟩⟩

theorem ClockedCommand.spelled (c : PlantCommand) (args : List Byte) (s : State) :
    ClockedCommand s (takeSpelled c args s) := by
  obtain ⟨i, hi, h⟩ := takeSpelled_exec c args
  rw [h]
  exact .command i hi s

/-- A byte of a reply clocked out. -/
theorem replyByteClocked_clocked (s : State) : ClockedCommand s (replyByteClocked s) := by
  unfold replyByteClocked
  dsimp only
  split
  · split
    · exact .of_clock _ (.command .statusFlagByteSent nofun _)
    · exact .clock _ _
  · split
    · exact .of_clock _ (.command (.historySlot .ends) nofun _)
    · exact .clock _ _
  · split
    · exact .of_clock _ (.command (.pixelRead .ends) nofun _)
    · exact .clock _ _
  all_goals exact .clock _ _

/-- A byte from MOSI whole. -/
theorem mosiByteClocked_clocked (b : Byte) (s : State) : ClockedCommand s (mosiByteClocked b s) := by
  unfold mosiByteClocked
  dsimp only
  split
  · split
    · exact .command (.unknownCommand b) nofun s
    · split
      · exact .spelled _ _ s
      · exact .command (.commandByte (.byte b)) nofun s
  · split
    · exact .clock _ _
    · exact .of_clock _ (.spelled _ _ _)
  · split
    · exact .clock _ _
    · exact .of_clock _ (.command (.pixelGroup _) nofun _)
  all_goals first
    | exact .stay s
    | exact replyByteClocked_clocked s

/-- What the first bit of a reply byte captures. -/
theorem replyByteBegins_clocked (s : State) : ClockedCommand s (replyByteBegins s) := by
  unfold replyByteBegins
  dsimp only
  split
  · exact .command (.readStatus .firstByte) nofun s
  · split
    · exact .command .presenceExtension nofun s
    · exact .stay s
  · exact .command (.readStation .firstByte) nofun s
  · split
    · exact .command .callRecordSlot nofun s
    · exact .stay s
  · exact .command (.readPace .firstByte) nofun s
  · split
    · exact .command (.readLoss .firstByte) nofun s
    · exact .stay s
  · exact .command (.readSummary .firstByte) nofun s
  · exact .command (.historySlot .begins) nofun s
  · exact .command (.pixelRead .begins) nofun s
  all_goals exact .stay s

/-- An edge of SCK is another row's command, or none, with the Plant Port's clock changed before it, and MISO driven
after it at a falling edge. -/
theorem commandEdge_spec (e : SckEdge) (s : State) :
    ∃ r, ClockedCommand s r ∧
      (execCommandByte (.edge e) s = r ∨ execCommandByte (.edge e) s = onNext driveMiso r) := by
  show ∃ r, _ ∧ (sckEdge e s = r ∨ sckEdge e s = onNext driveMiso r)
  unfold sckEdge
  split
  · exact ⟨_, .stay s, Or.inl rfl⟩
  · cases e with
    | rises mosi =>
      dsimp only
      split
      · exact ⟨_, .stay s, Or.inl rfl⟩
      · refine ⟨_, ?_, Or.inl rfl⟩
        unfold sckRises
        dsimp only
        split
        · exact .clock _ _
        · exact .of_clock _ (mosiByteClocked_clocked _ _)
    | falls =>
      dsimp only
      split
      · refine ⟨_, ?_, Or.inr rfl⟩
        split
        · exact .of_clock _ (replyByteBegins_clocked _)
        · exact .clock _ _
      · exact ⟨_, .stay s, Or.inl rfl⟩

/-- A property that does not look at the Plant Port's clock and that every other row's command keeps is kept by an
edge of SCK. -/
theorem commandEdge_keeps {I : State → Prop} (hc : ∀ c s, I s → I (setPlantClock c s))
    (he : ∀ i s t, (∀ e, i ≠ .commandByte (.edge e)) → I s → exec i s = .next t → I t)
    {e : SckEdge} {s t : State} (h : I s) (h' : execCommandByte (.edge e) s = .next t) : I t := by
  have key : ∀ r u, ClockedCommand s r → r = .next u → I u := by
    rintro r u ⟨c, rfl | ⟨i, hi, rfl⟩⟩ hu
    · cases hu; exact hc _ _ h
    · exact he i _ _ hi (hc _ _ h) hu
  obtain ⟨r, hr, e' | e'⟩ := commandEdge_spec e s
  · exact key r t hr (e'.symm.trans h')
  · rw [e'] at h'
    cases r with
    | next u =>
      cases h'
      exact hc _ _ (key _ u hr rfl)
    | fault f => cases f
    | refused f => cases h'

/-! ### The two wires (R122) -/

/-- An SDA edge with SCL LOW is no condition. -/
@[simp] theorem sda_edge_scl_low (s : State) : lineEdge (.sdaFalls false) s = s ∧ lineEdge (.sdaRises false) s = s :=
  ⟨rfl, rfl⟩

/-- With no START since the last STOP no bit is taken. -/
theorem sclRises_stopped {s : State} (h : s.line.clock.place = .stopped) (sda : Bool) : sclRises sda s = s := by
  simp [sclRises, h]

/-- The eight bits of an address byte, from its START: the byte acts, its acknowledge clock still to come. -/
theorem addressByte_clocked {s : State} {bits : List Bool} (h : s.line.clock = ⟨.address, bits, [], 0, true⟩)
    (n : bits.length = 7) (sda : Bool) :
    sclRises sda s =
      (takeAddress (byteOfBits (bits ++ [sda])) s).onLine fun l =>
        { l with clock := ⟨.address, bits ++ [sda], [], 0, true⟩ } := by
  simp [sclRises, addressByteClocked, LineClock.shifted, h, n]

/-- In hard reset SDA is released (R178). -/
theorem sdaReleased_inReset {s : State} (h : s.inReset = true) : s.sdaReleased = true := by simp [State.sdaReleased, h]

/-! ### MISO (R132, R178) -/

theorem misoLevel_inReset {s : State} (h : s.inReset = true) : s.misoLevel = none := by simp [State.misoLevel, h]

/-- Outside hard reset MISO is high-impedance exactly where no transaction has begun. -/
theorem misoLevel_eq_none_iff {s : State} (h : s.inReset = false) :
    s.misoLevel = none ↔ s.plant.transaction = .waiting := by
  simp [State.misoLevel, h]

/-- Past the last record of READ CALLS every byte is an end marker (R139). -/
theorem calls_end_marker (slot : List Byte) (i : Nat) (h : slot.length ≤ i) :
    (Transaction.calls [] slot).reply i = 0 := by
  simp [Transaction.reply, List.getElem?_eq_none h]

/-- The end slot of READ CALLS is 0 in every byte (R135, R139). -/
theorem calls_end_slot (i : Nat) : (Transaction.calls [] [0]).reply i = 0 := by
  cases i with
  | zero => rfl
  | succ n => exact calls_end_marker _ _ (by simp)

end Sys2Proof.Machine
end

