-- ==== Sys2Proof/WellFormed.lean ====
section
/-! DEFINITION. Which commands are well formed: the operands the wire can carry where the operand's type
does not already say so. exec gives every command a next state; on an ill-formed one its docstring says which. -/

namespace Sys2Proof

/-- Bits received of a byte that never completed: fewer than eight (R122, R132). -/
def partialBitsOk (bits : Nat) : Bool := bits < 8

/-- The largest pixel group has three bytes (R149), and the longest argument list 32 (R181). -/
def partialBytesOk (bytes : Nat) : Bool := bytes < 32

/-- A pixel group is one, two or three bytes (R149). -/
def groupOk (bytes : List Byte) : Bool := 1 ≤ bytes.length && bytes.length ≤ 3

/-- COMMAND_BYTE carries the code of a recognised command that takes arguments (R141). -/
def takesArguments (code : Byte) : Bool :=
  match decodePlantCode code with
  | some c => 0 < c.argBytes
  | none => false

/-- A command whose operands the wire can carry and whose row they fit. -/
def Instr.wellFormed : Instr → Bool
  | .callSecond (some number) => 1 ≤ number && number ≤ 9999
  | .lineFrame _ bits => partialBitsOk bits
  | .csRising bytes bits => partialBytesOk bytes && partialBitsOk bits
  | .unknownCommand code => (decodePlantCode code).isNone
  | .pixelGroup bytes => groupOk bytes
  | .commandByte (.byte code) => takesArguments code
  | .commandByte (.edge _)
  | .hardReset _ | .endOfHardReset _ _ _ _ | .step _ | .xstopChange _ | .xalertChange _
  | .stallMonitorSecond _ | .runClockSecond | .shiftTimerSecond | .closeCompletion | .callSecond none
  | .lineLinkSecond | .plantLinkSecond | .scrollSecond | .scrollStep | .flashToggle | .startTimerExpiry
  | .rampExpiry | .presenceReturn _ _ | .renderPassComplete _ | .addressByte _ | .lineStatusRead
  | .pull | .release | .leaderAck | .leaderReset | .bufferSet | .countAdjust | .lineShiftStart
  | .timeMark | .keepalive | .csFalling | .readStatus _ | .statusFlagByteSent | .presenceExtension
  | .readStation _ | .readCalls | .callRecordSlot | .readPace _ | .readLoss _ | .readSummary _
  | .readHistory | .historySlot _ | .rewindHistory | .stagePlan _ _ _ _ _ | .commitPlan _
  | .discardPlan | .plantShiftStart _ _ | .shiftClose | .ackCall _ _ | .clearCall _ _
  | .writeLayoutZone _ _ _ _ _ _ _ _ | .writeLayoutStation _ _ _ | .writePolicy _ _
  | .writeLinkSettings _ _ _ | .setWindow _ _ _ _ | .setCursor _ _ | .setAddressControl _ _ _ _
  | .setColourMode _ | .setMask _ | .setMark | .returnToMark | .writePixels _ | .readPixels
  | .pixelRead _ | .writeRegion _ _ _ _ _ _ _ _ _ | .setIntensity _ _ _ | .restartTiles => true

end Sys2Proof
end

