-- ==== Sys2Proof/Tests/Slice0.lean ====
section
/-! SUPPORT. Tests: an ill-formed term for each check of WellFormed, worked rows of the spec, and for each
statement's hypotheses states and operands that meet them, at the ends of the ranges its clauses divide. -/

namespace Sys2Proof.Tests

open Sys2Proof.Machine

/-! ### Ill-formed commands -/

theorem test_wf_call_number_low : (Instr.callSecond (some 0)).wellFormed = false := by decide
theorem test_wf_call_number_high : (Instr.callSecond (some 10000)).wellFormed = false := by decide
theorem test_wf_frame_bits : (Instr.lineFrame [] 8).wellFormed = false := by decide
theorem test_wf_cs_bytes : (Instr.csRising 32 0).wellFormed = false := by decide
theorem test_wf_cs_bits : (Instr.csRising 0 8).wellFormed = false := by decide
theorem test_wf_unknown_code : (Instr.unknownCommand 0x01).wellFormed = false := by decide
theorem test_wf_group_empty : (Instr.pixelGroup []).wellFormed = false := by decide
theorem test_wf_group_long : (Instr.pixelGroup [0, 0, 0, 0]).wellFormed = false := by decide
theorem test_wf_command_unknown : (Instr.commandByte (.byte 0xFF)).wellFormed = false := by decide
theorem test_wf_command_no_arguments : (Instr.commandByte (.byte 0x01)).wellFormed = false := by decide

/-! ### States of the tests -/

/-- The state a command answers. -/
def after (c : Instr) (s : State) : State :=
  match exec c s with
  | .next t => t
  | .fault _ | .refused _ => s

/-- With one frame in the Line Intake Queue. -/
def queued (f : Frame) (s : State) : State := { s with line := { s.line with queue := [f] } }

/-- With the Plant Port's decoder at a place. -/
def plantAt (t : Transaction) (s : State) : State := { s with plant := { s.plant with transaction := t } }

/-- With the two wires' clock, and with the Plant Port's, at a place. -/
def lineClockAt (c : LineClock) (s : State) : State := { s with line := { s.line with clock := c } }
def plantClockAt (c : PlantClock) (s : State) : State := { s with plant := { s.plant with clock := c } }

/-- The bits of a byte, first bit first. -/
def bitsOf (b : Byte) (n : Nat) : List Bool := (List.range n).map b.getMsbD

/-- With a pulse in qualification on one PITCH input. -/
def qualifying (k : Fin 6) (s : State) : State := { s with pitch := s.pitch.put k ⟨false, true⟩ }

/-- With a shift state. -/
def inState (x : ShiftState) (s : State) : State := { s with timer := { s.timer with state := x } }

/-- With a render state in one entry. -/
def rendering (i : Fin 8) (r : Render) (s : State) : State :=
  { s with engine := { s.engine with regions := s.engine.regions.upd i fun x => { x with render := r } } }

/-- The plan of section 5.12. -/
def plan : Plan := { length := 28800, takt := 600, overtime := 1800, breaks := [⟨7200, 600⟩, ⟨14400, 1800⟩, ⟨21600, 600⟩] }

/-- Right after reset with that plan active, and shift 301 open at a clock. -/
def shiftAt (clock wc : Nat) : State :=
  let s := State.reset
  { s with
    timer := { s.timer with state := .production, number := 301, active := some plan, clock := clock, wc := wc }
    pace := { s.pace with figures := figuresOf (25800 - wc) (wc * 10000 / 600) 430000 0 } }

/-- In CLOSING, its slot WRITING. -/
def closing : State :=
  let s := shiftAt 100 100
  { s with
    timer := { s.timer with state := .closing }
    archive := { slots := s.archive.slots.put 0 (.writing (s.snapshot .command)), newest := some 0 } }

/-- In OVERTIME at a clock, the target held at 430 cars. -/
def overtimeAt (clock : Nat) : State :=
  let s := shiftAt clock 25800
  { s with
    timer := { s.timer with state := .overtime }
    pace := { s.pace with held := 430000, figures := figuresOf 0 430000 430000 0 } }

/-- A call at station 3 of zone 0, one step before its mark. -/
def call : Call :=
  { number := 1, station := 3, zone := 0, kinds := [.parts], openedAt := 0, openedTag := 0, phase := .warn
    remaining := 1, level := 0, escalation := 0, grace := 0, ack := none, holdTime := 0, everHeld := false }

/-- With one call open. -/
def withCall (c : Call) (s : State) : State :=
  { s with
    callList := { s.callList with calls := [c], allocator := 2 }
    stations := s.stations.put c.station { openCall := some 1, callsShift := 1, chargedLoss := 0, lastKind := some .parts } }

/-- A history record, and a log of some. -/
def record : HistoryRecord := closingRecord call .station State.reset
def logged (n : Nat) (cursor : Option Nat) : State :=
  { State.reset with
    history := List.replicate n record, plant := { State.reset.plant with historyCursor := cursor } }

/-- No region in force: every pixel is the plant's (R144). -/
def plantOwned (s : State) : State :=
  { s with engine := { s.engine with regions := .tab fun i => { s.engine.regions.at_ i with enabled := false, render := .idle } } }

/-- The line of section 2.11 before its first event, or with a phase and buffer counts. -/
def line3 : State :=
  let s := shiftAt 100 100
  let zone (first last pitch capacity : Nat) : ZoneRecord := ⟨first, last, pitch, 4, 1, false, capacity⟩
  let z (n : Nat) : ZoneState := { ZoneState.cleared with accumulator := n }
  { s with
    layout :=
      { used := 3
        zones := #v[zone 0 19 32 4, zone 20 31 40 6, zone 32 47 40 0, zone 0 0 32 0, zone 0 0 32 0, zone 0 0 32 0]
        stations := .tab fun _ => ⟨true, 20⟩ }
    tracker :=
      { s.tracker with
        zones := #v[z 31, z 5, z 39, z 0, z 0, z 0]
        buffers := #v[⟨3, false, false⟩, ⟨1, false, false⟩, ⟨0, false, false⟩, ⟨0, false, false⟩, ⟨0, false, false⟩] }
    callList := { s.callList with calls := [{ call with number := 112, station := 24, zone := 1 }] }
    stations := s.stations.put 24 ⟨some 112, 1, 0, some .parts⟩
    pace := { s.pace with actual := 200 } }

/-! ### Worked rows of the spec -/

/-- The end of hard reset with every strap LOW gives the state right after reset (log 2). -/
theorem test_reset : exec (.endOfHardReset 0 0 false) (State.held ⟨true, true, false⟩ ⟨0, 0, false⟩ []) = .next State.reset := rfl

/-- Section 2.11, event 1: the call at its mark enters HOLD and stops zone 1 alone. -/
theorem test_step_enters_hold :
    let t := after (.step ⟨1, .pulse⟩) line3
    (t.zstop 0, t.zstop 1, t.zstop 2) = (false, true, false) ∧ (t.tracker.zones.at_ 1).accumulator = 6 ∧
      (t.tracker.zones.at_ 1).coast = 0 := by decide

/-- Section 2.11, events 1 and 3: zone 2's car draws the buffer empty, is counted, and zone 2 is STARVED. -/
theorem test_step_end_of_line :
    let t := after (.step ⟨2, .pulse⟩) (after (.step ⟨1, .pulse⟩) line3)
    t.pace.actual = 201 ∧ (t.tracker.buffers.at_ 1).count = 0 ∧ (t.tracker.zones.at_ 2).reasons.starved = true := by
  decide

/-- R14: a HIGH level held for the 20 µs is one step; a short LOW inside it does not end the pulse, a LOW held for the
20 µs arms the input again, and a short HIGH is rejected. -/
theorem test_pitch_filter :
    let steps (ms : List PitchMoment) : Nat :=
      ((ms.foldl (fun s m => after (.step ⟨0, m⟩) s) State.reset).tracker.zones.at_ 0).accumulator
    steps [.level true, .held] = 1 ∧ steps [.level true, .level false, .held] = 0 ∧
      steps [.level true, .held, .level false, .level true, .held] = 1 ∧
      steps [.level true, .held, .level false, .held, .level true, .held] = 2 := by decide

/-- R26, R177: a level held for the 20 µs is taken, XSTOP's HIGH as asserted and XALERT's LOW, and a shorter one is
rejected. -/
theorem test_level_filters :
    let xstop (ms : List LevelMoment) : Bool :=
      (ms.foldl (fun s m => after (.xstopChange m) s) State.reset).tracker.xstop.taken
    let xalert (ms : List LevelMoment) : Bool :=
      (ms.foldl (fun s m => after (.xalertChange m) s) State.reset).alert.xalert.taken
    xstop [.level true] = false ∧ xstop [.level true, .held] = true ∧ xstop [.level true, .level false, .held] = false ∧
      xstop [.taken true, .level false, .level true, .held] = true ∧ xstop [.taken true, .level false, .held] = false ∧
      xalert [.level false] = false ∧ xalert [.level false, .held] = true ∧
      xalert [.level false, .level true, .held] = false ∧ xalert [.taken false, .taken true] = false := by decide

/-- R178: a LOW on RSTn shorter than its 10 µs is rejected, and hard reset ends when both conditions are gone. -/
theorem test_reset_conditions :
    let held (cs : List Instr) : Bool := (cs.foldl (fun s c => after c s) State.reset).inReset
    held [.hardReset] = true ∧ held [.hardReset .rstnFalls] = false ∧
      held [.hardReset .rstnFalls, .hardReset .rstnHeld] = true ∧
      held [.hardReset .rstnFalls, .endOfHardReset 0 0 false .rstn, .hardReset .rstnHeld] = false ∧
      held [.hardReset .supplyFalls, .hardReset .rstn, .endOfHardReset 0 0 false .supply] = true ∧
      held [.hardReset .supplyFalls, .hardReset .rstn, .endOfHardReset 0 0 false .rstn] = true ∧
      held [.hardReset .supplyFalls, .hardReset .rstn, .endOfHardReset 0 0 false] = false := by decide

/-- R14, R8: a pulse in qualification when its zone goes out of service gives no step. -/
theorem test_pitch_dropped :
    let old : Layout := { State.reset.layout with used := 2 }
    let new := State.reset.layout
    (PinFilter.afterWrite ⟨false, true⟩ 1 old new = ⟨false, false⟩) ∧
      (PinFilter.afterWrite ⟨true, true⟩ 1 old new = ⟨true, true⟩) ∧
      (PinFilter.afterWrite ⟨false, true⟩ 1 new old = ⟨false, true⟩) := by decide

/-- R18: a delivery into a full buffer holds the count and sets OVER, a draw from an empty one UNDER. -/
theorem test_buffer_bounds :
    (Buffer.deliver ⟨4, false, false⟩ 4 = ⟨4, true, false⟩) ∧ (Buffer.draw ⟨0, false, false⟩ = ⟨0, false, true⟩) := by
  decide

/-- R28: with an allowance of 4 the fifth coast step sets OVERRUN. -/
theorem test_overrun_fifth_coast :
    let r := State.reset.layout.zones.at_ 0
    let z (n : Nat) : ZoneState := { ZoneState.cleared with coast := n }
    (((z 3).afterStep r true).overrun, ((z 4).afterStep r true).overrun) = (false, true) := by decide

/-- Section 3.13, row 1: the allocator passes 9999, 1 and 2, which calls hold. -/
theorem test_allocator_wraps : advanceAllocator [9999, 1, 2, 9998] 9998 = 3 := by decide

/-- R40: a station of length 20. -/
theorem test_pitch_remaining :
    (initialRemaining 20 0, initialRemaining 20 6, initialRemaining 20 19, initialRemaining 20 200) = (20, 14, 1, 1) := by
  decide

/-- R57's table. -/
theorem test_policy_ordering :
    storedThresholds 300 0 200 = ⟨300, 0, 300⟩ ∧ storedThresholds 0 100 50 = ⟨0, 100, 100⟩ ∧
      storedThresholds 5000 4000 0 = ⟨3600, 3600, 0⟩ ∧ storedThresholds 60 30 90 = ⟨60, 60, 90⟩ := by decide

/-- R59: HELP alone has no level 3, and grown by PARTS it takes 600. -/
theorem test_effective_threshold :
    Policy.reset.effective [.help] 3 = 0 ∧ Policy.reset.effective [.help, .parts] 3 = 600 := by decide

/-- R65's table, rows 2, 3 and 5. -/
theorem test_plan_fitting :
    judgePlan 1000 600 0 1 [⟨600, 600⟩] = .ok ⟨1800, 600, 0, [⟨600, 600⟩]⟩ ∧
      judgePlan 28800 600 0 1 [⟨28500, 600⟩] = .ok ⟨28800, 600, 0, [⟨28500, 300⟩]⟩ ∧
      judgePlan 28800 600 0 2 [⟨7200, 600⟩, ⟨7500, 600⟩] = .error .invalid := by decide

/-- R70: an offset of 15000 gives Wc 13800 and opens in BREAK. -/
theorem test_shift_open_in_break :
    let p : Plan := { plan with breaks := [⟨7200, 600⟩, ⟨14400, 1800⟩] }
    let t := ShiftTimer.reset.opened p 5 15000
    (t.wc, t.state) = (13800, .inBreak) := by decide

/-- Section 4.9: the second of run clock 57200, two productive advances into the break. -/
theorem test_double_advance_into_break :
    let s := shiftAt 7198 7198
    let t := after .shiftTimerSecond { s with timer := { s.timer with correction := 3 } }
    (t.timer.clock, t.timer.wc, t.timer.correction, t.timer.state) = (7200, 7200, 2, .inBreak) := by decide

/-- Section 5.12: Rp, Em and Gm at clock 10000, and Gm after the commit with T = 570. -/
theorem test_commit_now_figures :
    let s := shiftAt 10000 9400
    let t := after (.commitPlan 1) (plantAt (.arguments .commitPlan)
      { s with timer := { s.timer with staged := some { plan with takt := 570 } } })
    (s.computeFigures.rp, s.computeFigures.em, s.computeFigures.gm) = (16400, 156666, 430000) ∧
      (t.pace.figures.em, t.pace.figures.gm) = (156666, 444385) := by decide

/-- R99: a set with PLAN is charged to HOLD, and not to BLOCKED. -/
theorem test_charge_under_plan :
    let z (r : ReasonSet) : ZoneState := { ZoneState.cleared with reasons := r }
    (z ⟨true, true, false, true, false⟩).lossCause = some .hold ∧
      (z ⟨false, true, false, true, false⟩).lossCause = none := by decide

/-- R114, R115: an overwrite under the cursor leaves it on the new oldest, which carries the flag. -/
theorem test_overwrite_under_cursor :
    (historyAfterRemoval [record, record] (some 0)).map HistoryRecord.droppedBefore = [true] ∧
      (cursorAfterRemoval (some 0), cursorAfterRemoval (some 1)) = (some 0, some 0) := by decide

/-- R179: a KEEPALIVE is 0x50 with check 0xB0. -/
theorem test_keepalive_frame : judgeFrame [0x50, 0xB0] = .ok .keepalive := by rfl

/-- R125, R179: a SHIFT START of shift 0x0123 at offset 0x0004, most significant byte first. -/
theorem test_shift_start_frame : judgeFrame [0x41, 0x01, 0x23, 0x00, 0x04, 0x97] = .ok (.shiftStart 0x0123 0x0004) := by rfl

/-- R180: after reset the block shows 16 free slots and sums to 0. -/
theorem test_line_block_after_reset :
    State.reset.lineBlock = [0, 0, 0, 0, 0, 0, 0, 0, 0, 0, 0, 0, 0, 0, 16, 240] := by decide

/-- R145's table, rows 2 to 4. -/
theorem test_set_window :
    let w (a b c d : Byte) := (after (.setWindow a b c d) (plantAt (.arguments .setWindow) State.reset)).frame.window
    w 13 6 10 5 = ⟨10, 5, 13, 6⟩ ∧ w 150 40 255 255 = ⟨150, 40, 159, 47⟩ ∧ w 200 0 170 0 = ⟨159, 0, 159, 0⟩ := by
  decide

/-- R149's table. -/
theorem test_pixel_conversions :
    pixelC8 0xF2 = ⟨15, 9, 10⟩ ∧ pixelC8 0x61 = ⟨6, 0, 5⟩ ∧ pixelC16 0xFD 0x11 = ⟨15, 10, 8⟩ ∧
      pixelC16 0x08 0x61 = ⟨0, 0, 0⟩ := by decide

/-- R144, R152: after reset every pixel is the engine's; a write is dropped and the collision flag set. -/
theorem test_collision :
    let t := after (.pixelGroup [0xFF]) (plantAt (.pixelsIn .c8) State.reset)
    (t.plant.collision, t.frame.pixels, t.frame.cursor) = (true, [], ⟨1, 0⟩) := by decide

/-- R165's table, rows 3 and 4. -/
theorem test_lamp_cells :
    (cellWidth 80 48, lampsDrawn 80 48, cellWidth 7 5, lampsDrawn 7 5) = (2, 40, 2, 3) := by decide

/-- R172: the third missing return makes a tile ABSENT. -/
theorem test_tile_absent :
    TilePresence.returned ⟨false, 1⟩ false = ⟨false, 2⟩ ∧ TilePresence.returned ⟨false, 2⟩ false = ⟨true, 3⟩ := by decide

/-- R173: RESTART TILES with TST 1 darkens the portion in flight, which group 0's start within it does not relight. -/
theorem test_restart_darkens_portion :
    let s := plantAt .ready { State.reset with straps := ⟨0, 1, false⟩ }
    let t := after .startTimerExpiry (after .restartTiles s)
    (s.tiles.portion.lit, t.tiles.startCount, t.tiles.portion.lit) = (true, 1, false) := by decide

/-- R175: with asymmetric on, the fourth expiry above the target lowers the intensity. -/
theorem test_asymmetric_ramp :
    let d : TileDriver := { TileDriver.reset with actual := 40, asymmetric := true, decreaseCount := 3 }
    ((d.ramped 32).actual, (d.ramped 32).decreaseCount, ({ d with decreaseCount := 2 }.ramped 32).actual) = (39, 0, 40) := by
  decide

/-- R168's example: line 1 in 17 characters, line 2 in 23. -/
theorem test_pace_lines :
    (paceLines 444 156 150 (-6) (some 96) 12).map (fun t => t.cells.length) = [17, 23] := by decide

/-- R166's example: station 24, PARTS and SAFETY, 7 minutes, level 3. -/
theorem test_ticker_text :
    TickerLine.text ⟨24, [.parts, .safety], 7, 3, .red⟩ =
      [.d2, .d4, .space, .gP, .gS, .space, .d0, .d7, .space, .gL, .d3] := by decide

/-- R164: a zone with PLAN and HOLD from another station's call shows DIM WHITE. -/
theorem test_lamp_under_plan :
    let s := State.reset
    let z : ZoneState := { ZoneState.cleared with reasons := ⟨true, true, false, false, false⟩ }
    State.lamp { s with
      line := { s.line with link := ⟨.up, 0, some 2⟩ }
      tracker := { s.tracker with zones := .tab fun _ => z } } 3 = ⟨.dimWhite, false⟩ := by decide

/-- R68: the advance that leaves a break at L and closes hands on BREAK to CLOSING alone: no zone starts to qualify,
and its stepped mark stays clear. -/
theorem test_break_ends_at_length :
    let s := inState .inBreak (shiftAt 28799 25799)
    let t := after .shiftTimerSecond { s with timer := { s.timer with
      active := some { plan with breaks := [⟨28200, 600⟩], overtime := 0 } } }
    (t.timer.state, (t.tracker.zones.at_ 0).stepped) = (.closing, false) := by decide

/-- R109: a close that takes the slot cuts a COMPLETE slot's reply and leaves the header of an EMPTY one. -/
theorem test_slot_taken :
    let reply (body : List Byte) : Transaction := .summary (some 1) (some ⟨[0, 0, 0, 0, 0, 0, 0, 0], body, false⟩)
    ((reply []).slotTaken 1).served 3 = some 0 ∧ ((reply [0xA5]).slotTaken 1).served 3 = some 0xFF := by decide

/-- R132, R178: MISO is high-impedance in hard reset and with CS HIGH, and drives 0xFF for a command byte. -/
theorem test_miso :
    (State.held ⟨true, false, false⟩ ⟨0, 0, false⟩ []).miso 0 = none ∧ State.reset.miso 0 = none ∧
      (after .csFalling State.reset).miso 0 = some 0xFF := by decide

/-- R122, R123: the eighth bit of the own address makes the part answer, and SDA is pulled LOW as SCL falls. -/
theorem test_line_address_bits :
    let s := lineClockAt ⟨.address, bitsOf 0x70 7, [], 0, true⟩ State.reset
    let t := after (.addressByte (.edge (.sclRises false))) s
    (t.line.phase, t.line.answer, (after (.addressByte (.edge .sclFalls)) t).sdaReleased) =
      (.receiving, .ack, false) := by decide

/-- R122: in a read the part drives the next bit of the byte served, and a NACK ends the read. -/
theorem test_line_read_bits :
    let s (c : LineClock) := lineClockAt c { State.reset with line := { State.reset.line with phase := .serving [1, 0x7F] } }
    (after (.addressByte (.edge .sclFalls)) (s ⟨.data, [], [], 1, true⟩)).sdaReleased = false ∧
      (after (.addressByte (.edge .sclFalls)) (s ⟨.data, [false], [], 1, true⟩)).sdaReleased = true ∧
      (after (.addressByte (.edge (.sclRises true))) (s ⟨.data, bitsOf 1 8, [], 1, true⟩)).line.phase = .ignoring ∧
      (after (.addressByte (.edge (.sclRises false))) (s ⟨.data, bitsOf 1 8, [], 1, true⟩)).line.phase =
        .serving [1, 0x7F] := by decide

/-- R122, R124: a STOP and a repeated START judge the frame clocked in, the bits of a byte cut short discarded. -/
theorem test_line_stop_and_start :
    let s := lineClockAt ⟨.data, [true, true], [0x50, 0xB0], 0, true⟩
      { State.reset with line := { State.reset.line with phase := .receiving } }
    (after (.addressByte (.edge (.sdaRises true))) s).line.queue = [.keepalive] ∧
      (after (.addressByte (.edge (.sdaRises true))) s).line.clock.place = .stopped ∧
      (after (.addressByte (.edge (.sdaFalls true))) s).line.queue = [.keepalive] ∧
      (after (.addressByte (.edge (.sdaFalls true))) s).line.clock.place = .address := by decide

/-- R132, R133: the eighth bit takes SET MARK from the ready decoder, and SET MASK with its argument. -/
theorem test_plant_command_bits :
    let s (t : Transaction) (b : Byte) := plantClockAt ⟨false, bitsOf b 7, [], 0, true⟩
      (plantAt t { State.reset with frame := { State.reset.frame with cursor := ⟨3, 4⟩ } })
    (after (.commandByte (.edge (.rises true))) (s .ready 0x35)).frame.mark = ⟨3, 4⟩ ∧
      (after (.commandByte (.edge (.rises true))) (s (.arguments .setMask) 0x05)).frame.mask = ⟨true, false, true⟩ ∧
      (after (.commandByte (.edge (.rises false))) (s .ready 0x34)).plant.transaction = .arguments .setMask := by decide

/-- R132, R135: as SCK falls before a reply its first byte is captured, and MISO takes the most significant bit. -/
theorem test_plant_reply_bits :
    let s := plantClockAt ⟨true, [], [], 0, true⟩ (plantAt (.station 0 none) State.reset)
    let t := after (.commandByte (.edge .falls)) s
    t.miso 0 = some 0xC0 ∧ t.misoLevel = some true ∧
      (after (.commandByte (.edge .falls)) (plantClockAt ⟨true, bitsOf 0 2, [], 0, true⟩ t)).misoLevel = some false := by
  decide

/-- R139: past the last record of READ CALLS, and in its end slot, every byte is 0. -/
theorem test_calls_end :
    (plantAt (.calls [] [0]) State.reset).miso 5 = some 0 ∧
      (plantAt (.calls [] [22, 1]) State.reset).miso 2 = some 0 ∧
      (plantAt (.calls [7] [22, 1]) State.reset).miso 1 = some 1 := by decide

/-! ### What the test states meet -/

theorem quiet_reset : State.reset.Quiet := rfl
theorem sets_reset : State.reset.SetsCurrent := by unfold State.SetsCurrent; decide
theorem causes_reset : State.reset.CausesCurrent := by unfold State.CausesCurrent; decide
theorem calls_reset : State.reset.CallsForm := by unfold State.CallsForm; decide
theorem history_reset : State.reset.HistoryForm := by unfold State.HistoryForm; simp [State.reset, State.held, PlantPort.reset]
theorem frame_reset : State.reset.FrameForm := by
  unfold State.FrameForm Rect.InFrame Point.InFrame; decide
theorem regions_reset : State.reset.RegionsApart := by unfold State.RegionsApart; decide
theorem line_reset : State.reset.LineForm := by unfold State.LineForm ZoneRecord.InRange; decide
theorem queue_reset : State.reset.QueueForm := by unfold State.QueueForm; decide
theorem counts_reset : State.reset.CountsInRange := by unfold State.CountsInRange TilePresence.InRange; decide

theorem timer_reset : State.reset.TimerForm := by
  refine ⟨?_, ?_, ?_, ?_, ?_, ?_, ?_⟩ <;> simp [State.reset, State.held, ShiftTimer.reset, PaceUnit.reset]

/-- The calls of `withCall call` on the state after reset. -/
theorem calls_call : (withCall call State.reset).CallsForm := by unfold State.CallsForm; decide

/-- A shift open at a clock meets the timer's form. -/
theorem timer_shift : (shiftAt 100 100).TimerForm := by
  refine ⟨?_, ?_, ?_, ?_, ?_, ?_, ?_⟩
  · intro p h
    have : p = plan := by simpa [shiftAt, State.reset, State.held, ShiftTimer.reset, eq_comm] using h
    subst this; unfold Plan.InRange; decide
  all_goals decide

/-! ### Witnesses: the block, its invariants and hard reset -/

/-- The chain at its 256th pixel, entry 0 at its pass's last pixel, entry 5 idle. -/
theorem witness_EmptyQueueDrawsAndSendsOnePixel :
    let s := State.reset
    let u := { s with tiles := { s.tiles with portion := { s.tiles.portion with sent := 256 } } }
    let v := rendering 0 (.busy (.banner none true) 1280 false) s
    s.pending = [] ∧ s.inReset = false ∧ s.tiles.portion.sent < 256 ∧ 256 ≤ u.tiles.portion.sent ∧
      u.pending = [] ∧ u.inReset = false ∧ v.pending = [] ∧ v.inReset = false ∧
      (v.engine.regions.at_ 0).area = 1280 ∧ (s.engine.regions.at_ 5).render = .idle := by decide

/-- A pass in flight in a state that meets the form of the frame and of the regions. -/
theorem witness_EmptyQueueDrawsAndSendsOnePixel_forms :
    let s := State.reset
    s.FrameForm ∧ s.RegionsApart ∧ s.pending = [] ∧ s.inReset = false ∧
      (s.engine.regions.at_ 4).render = .busy (.clock none) 0 false ∧ 0 < (s.engine.regions.at_ 4).area :=
  ⟨frame_reset, regions_reset, rfl, rfl, rfl, by decide⟩

theorem witness_HardResetHoldsBackEvents :
    (State.held ⟨false, true, false⟩ ⟨0, 0, false⟩ []).inReset = true ∧ (∀ i, Instr.pull ≠ .hardReset i) ∧
      ∀ a t x g, Instr.pull ≠ .endOfHardReset a t x g :=
  ⟨rfl, nofun, nofun⟩

/-- Each moment that leaves a condition present, and two that leave none. -/
theorem witness_HardResetSetsEveryBlock :
    let present (i : ResetInput) (c : ResetConditions) : Bool := (c.after i).supplyLow || (c.after i).rstnLow
    present .rstn ⟨false, false, false⟩ = true ∧ present .supplyFalls ⟨false, false, false⟩ = true ∧
      present .rstnHeld ⟨false, false, true⟩ = true ∧ present .rstnFalls ⟨true, false, false⟩ = true ∧
      present .rstnFalls ⟨false, false, false⟩ = false ∧ present .rstnHeld ⟨false, false, false⟩ = false := by decide

/-- One state meets the invariants of every "a step keeps" statement and steps to a next state. -/
theorem witness_step_keeps_invariants :
    let s := State.reset
    s.FrameForm ∧ s.RegionsApart ∧ s.LineForm ∧ s.CallsForm ∧ s.TimerForm ∧ s.SetsCurrent ∧ s.CausesCurrent ∧
      s.QueueForm ∧ s.HistoryForm ∧ s.CountsInRange ∧ s.Quiet ∧ ∃ t, step s = .next t :=
  ⟨frame_reset, regions_reset, line_reset, calls_reset, timer_reset, sets_reset, causes_reset, queue_reset,
    history_reset, counts_reset, quiet_reset, _, rfl⟩

/-- The last condition goes, one of two goes, and no hard reset is in force. -/
theorem witness_EndOfHardResetSamplesStrapsAndStarts :
    let s (c : ResetConditions) : State := State.held c ⟨0, 0, false⟩ []
    (∀ c, (s c).Quiet) ∧ (s ⟨true, false, false⟩).inReset = true ∧
      (ResetConditions.without .supply ⟨true, false, false⟩ = ⟨false, false, false⟩) ∧
      (ResetConditions.without .supply ⟨true, true, false⟩ = ⟨false, true, false⟩) ∧
      State.reset.Quiet ∧ State.reset.inReset = false := ⟨fun _ => rfl, rfl, rfl, rfl, rfl, rfl⟩

/-- A second that leaves a break withdraws a stop request and has its zone start to qualify; one that enters a break has
it stop. -/
theorem witness_StepKeepsStopSetsAndAlertCausesDerived :
    let s := shiftAt 7199 7199
    let t := after .shiftTimerSecond s
    let u := { t with timer := { t.timer with clock := 7799 } }
    let v := after .shiftTimerSecond u
    let sent (x : State) : State := { x with pending := [.shiftTimerSecond] }
    (step (sent s) = .next t ∧ step (sent u) = .next v) ∧ (s.qualifies 0, t.qualifies 0) = (true, false) ∧
      (u.zstop 0, v.zstop 0) = (true, false) ∧ (u.qualifies 0, v.qualifies 0) = (false, true) ∧
      s.SetsCurrent ∧ s.CausesCurrent := by
  refine ⟨⟨rfl, rfl⟩, ?_⟩
  unfold State.SetsCurrent State.CausesCurrent; decide

/-! ### Witnesses: Conveyor Tracker -/

/-- Zone 0 is the last used zone, zone 1 the first unused; a call one step before its mark; a zone with STALL; a pulse
in qualification, and a moment that takes no step of a used zone. -/
theorem witness_StepMovesItsZoneAndItsCalls :
    let s := State.reset
    let c := withCall call s
    let u := { s with tracker := { s.tracker with zones := s.tracker.zones.upd 0 fun z => { z with stall := true } } }
    s.inReset = false ∧ s.layout.zoneUsed 1 = false ∧ s.Quiet ∧ s.CausesCurrent ∧
      c.inReset = false ∧ c.layout.zoneUsed 0 = true ∧ (∃ x ∈ c.callList.calls, x.zone = 0 ∧ x.phase = .warn ∧ x.remaining ≤ 1) ∧
      u.inReset = false ∧ u.layout.zoneUsed 0 = true ∧ (u.tracker.zones.at_ 0).stall = true ∧
      c.Quiet ∧ u.Quiet ∧ (qualifying 0 s).Quiet ∧ (qualifying 0 s).CausesCurrent ∧
      (qualifying 0 s).layout.zoneUsed 0 = true ∧ (qualifying 0 s).pitch.at_ 0 = ⟨false, true⟩ ∧
      s.pitch.at_ 0 = ⟨false, false⟩ ∧ PitchMoment.held ≠ .pulse := by
  unfold State.Quiet State.CausesCurrent; decide

/-- A step before a car and one that completes it; buffers ahead and behind zone 1; the last used zone with A below
9999, at 9999, with no shift open, and in OVERTIME one car before the target. -/
theorem witness_StepHandsCarsToBuffersAndActualCount :
    let s := line3
    let full := { s with pace := { s.pace with actual := 9999 } }
    let o := overtimeAt 30000
    let near := { o with pace := { o.pace with actual := 429 }, tracker := { o.tracker with zones := s.tracker.zones } }
    (qualifying 1 s).inReset = false ∧ (qualifying 1 s).layout.zoneUsed 1 = true ∧
      (qualifying 1 s).pitch.at_ 1 = ⟨false, true⟩ ∧
      s.inReset = false ∧ s.layout.zoneUsed 1 = true ∧
      (s.tracker.zones.at_ 1).accumulator + 1 < (s.layout.zones.at_ 1).pitch ∧
      (s.layout.zones.at_ 0).pitch ≤ (s.tracker.zones.at_ 0).accumulator + 1 ∧
      (s.layout.bufferUsed 0 = true ∧ upstreamZone 0 = 0 ∧ s.layout.bufferUsed 1 = true ∧ downstreamZone 1 = 2) ∧
      (2 + 1 = s.layout.used ∧ s.timer.state.isOpen = true ∧ s.pace.actual < 9999) ∧
      (full.inReset = false ∧ 9999 ≤ full.pace.actual) ∧
      ((inState .noShift s).timer.state.isOpen = false ∧ (inState .noShift s).inReset = false) ∧
      (near.layout.zoneUsed 0 = true ∧ near.layout.used = 1 ∧ near.timer.state = .overtime ∧
        (near.layout.zones.at_ 0).pitch ≤ (near.tracker.zones.at_ 0).accumulator + 1 ∧
        near.computeFigures.g ≤ near.pace.actual + 1) := by decide

/-- A moment that takes the other level, one that times it, and one that keeps the level taken, of either input. -/
theorem witness_SafetyStopAndXalertFollowTheirInputs :
    let s := State.reset
    s.inReset = false ∧ s.Quiet ∧ s.SetsCurrent ∧ s.CausesCurrent ∧ s.layout.zoneUsed 0 = true ∧
      s.tracker.xstop = ⟨false, false⟩ ∧ s.tracker.xstop.afterLevel true (.taken true) = ⟨true, false⟩ ∧
      s.tracker.xstop.afterLevel true (.level true) = ⟨false, true⟩ ∧
      s.alert.xalert.afterLevel false (.level true) = s.alert.xalert := by
  unfold State.Quiet State.SetsCurrent State.CausesCurrent; decide

/-- A qualifying zone with its mark set and clear, one that does not qualify, and an unused zone. -/
theorem witness_StallMonitorCountsSilentSeconds :
    let s := shiftAt 100 100
    let m := { s with tracker := { s.tracker with zones := s.tracker.zones.upd 0 fun z => { z with stepped := true } } }
    s.inReset = false ∧ s.Quiet ∧ s.CausesCurrent ∧ s.layout.zoneUsed 0 = true ∧ s.layout.zoneUsed 1 = false ∧
      s.qualifies 0 = true ∧ (s.tracker.zones.at_ 0).stepped = false ∧
      m.Quiet ∧ m.CausesCurrent ∧ m.qualifies 0 = true ∧ (m.tracker.zones.at_ 0).stepped = true ∧
      State.reset.qualifies 0 = false := by
  unfold State.Quiet State.CausesCurrent; decide

/-- On three zones buffer 1 is the last used and buffer 2 the first unused. -/
theorem witness_BufferSetStoresClampedCount :
    let s (b : Byte) := queued (.bufferSet b 2) line3
    (∀ b, (s b).inReset = false ∧ (s b).Quiet ∧ (s b).line.queue = .bufferSet b 2 :: []) ∧
      line3.SetsCurrent ∧ line3.CausesCurrent ∧ (1 : Byte).toNat + 1 < line3.layout.used ∧
      line3.layout.used ≤ (2 : Byte).toNat + 1 ∧ 4 < (5 : Byte).toNat := by
  refine ⟨fun b => ⟨rfl, rfl, rfl⟩, ?_⟩
  unfold State.SetsCurrent State.CausesCurrent; decide

/-! ### Witnesses: seconds and the shift -/

/-- A line link one second before its timeout. -/
theorem witness_TimebaseSecondsCountAndLinksFallSilent :
    let s := { State.reset with line := { State.reset.line with link := ⟨.up, 1, some 2⟩ } }
    s.inReset = false ∧ s.Quiet := by unfold State.Quiet; decide

/-- The last second before L and before the overtime limit, into and out of a break. -/
theorem witness_ShiftSecondAdvancesClockBreaksAndFigures :
    let ok (s : State) : Bool :=
      let p := s.timer.plan
      let c := s.timer.clock + 1
      !s.inReset && decide (s.engine.requests = .none) && s.timer.state.isOpen && decide (s.timer.correction = 0) && decide (c ≠ p.length) &&
        !(decide (s.timer.state = .overtime) && decide (p.length + p.overtime ≤ c))
    ok (shiftAt 28798 25798) = true ∧ ok (overtimeAt 30598) = true ∧ ok (shiftAt 7199 7199) = true ∧
      ok (inState .inBreak (shiftAt 7799 7200)) = true := by decide

theorem witness_TimeCorrectionPacesShiftSeconds :
    let s (n : Int) : State := let u := shiftAt 100 100; { u with timer := { u.timer with correction := n } }
    State.reset.inReset = false ∧ State.reset.Quiet ∧ State.reset.CausesCurrent ∧
      State.reset.timer.state.isOpen = false ∧
      ((s (-1)).inReset = false ∧ (s (-1)).Quiet ∧ (s (-1)).CausesCurrent ∧ (s (-1)).timer.state.isOpen = true ∧
        (s (-1)).timer.correction < 0) ∧
      ((s 1).inReset = false ∧ (s 1).Quiet ∧ (s 1).CausesCurrent ∧ (s 1).timer.state.isOpen = true ∧
        0 < (s 1).timer.correction) := by
  unfold State.Quiet State.CausesCurrent; decide

theorem witness_ProductiveAdvanceChargesLostSeconds :
    let s := shiftAt 100 100
    let o := overtimeAt 29000
    s.inReset = false ∧ s.timer.state = .production ∧ s.timer.correction = 0 ∧
      o.inReset = false ∧ o.timer.state = .overtime ∧ o.timer.correction = 0 := by decide

/-- The state and the plan's length as the seven clauses of the end tests divide them. -/
theorem witness_EndTestsCloseShiftOrEnterOvertime :
    let s := shiftAt 28799 25799
    let o := overtimeAt 30599
    let short : Plan := { plan with overtime := 0 }
    let t := { s with timer := { s.timer with active := some short } }
    let ends : Plan := { plan with breaks := [⟨28200, 600⟩] }
    let b := inState .inBreak { s with timer := { s.timer with active := some ends } }
    (s.Quiet ∧ t.Quiet ∧ b.Quiet ∧ o.Quiet) ∧ s.inReset = false ∧ s.timer.state.isOpen = true ∧ s.timer.correction = 0 ∧
      (s.timer.clock + 1 = s.timer.plan.length ∧ s.timer.plan.breaks.any (fun x => decide (x.start = 28800)) = false ∧
        s.timer.state = .production ∧ 0 < s.timer.plan.overtime) ∧
      t.timer.plan.overtime = 0 ∧
      (b.timer.state = .inBreak ∧ b.timer.clock + 1 = b.timer.plan.length ∧
        b.timer.plan.breaks.any (fun x => decide (x.start + x.length = 28800)) = true) ∧
      (o.timer.state = .overtime ∧ o.timer.plan.length + o.timer.plan.overtime ≤ o.timer.clock + 1) := by
  unfold State.Quiet; decide

/-- Those states meet the timer's form: in PRODUCTION with overtime and without, in a break that ends at L, and in
OVERTIME. -/
theorem witness_EndTestsCloseShiftOrEnterOvertime_form :
    let under (p : Plan) (s : State) : State := { s with timer := { s.timer with active := some p } }
    let s := shiftAt 28799 25799
    s.TimerForm ∧ (under { plan with overtime := 0 } s).TimerForm ∧
      (inState .inBreak (under { plan with breaks := [⟨28200, 600⟩] } s)).TimerForm ∧
      (overtimeAt 30599).TimerForm := by
  refine ⟨?_, ?_, ?_, ?_⟩
  all_goals
    refine ⟨?_, ?_, ?_, ?_, ?_, ?_, ?_⟩
    · rintro p (h | h | h) <;> cases h
      unfold Plan.InRange; decide
    all_goals decide

/-- Seconds that close from PRODUCTION and from a break with no overtime allowed, and from OVERTIME at its limit. -/
theorem witness_EndTestsCloseShiftOrEnterOvertime_closes :
    let under (p : Plan) (s : State) : State := { s with timer := { s.timer with active := some p } }
    let s := shiftAt 28799 25799
    let ends (x : State) : ShiftState := (after .shiftTimerSecond x).timer.state
    ends (under { plan with overtime := 0 } s) = .closing ∧
      ends (inState .inBreak (under { plan with overtime := 0, breaks := [⟨28200, 600⟩] } s)) = .closing ∧
      ends (overtimeAt 30599) = .closing := by decide

theorem witness_CloseCompletionFreesShiftAndOpensPendingStart :
    let held := { closing with timer := { closing.timer with pendingStart := some ⟨302, 0⟩ } }
    State.reset.timer.state ≠ .closing ∧
      closing.inReset = false ∧ closing.Quiet ∧ closing.CausesCurrent ∧ closing.timer.state = .closing ∧
      closing.archive.newest = some 0 ∧ closing.timer.pendingStart = none ∧
      held.Quiet ∧ held.CausesCurrent ∧ held.timer.pendingStart = some ⟨302, 0⟩ ∧
      held.timer.next.orElse (fun _ => held.timer.active) = some plan := by
  unfold State.Quiet State.CausesCurrent; decide

/-- Closed and open, a delta that changes A and one that does not, OVERTIME below and at the target. -/
theorem witness_CountAdjust :
    let s := queued (.countAdjust 1) (shiftAt 100 100)
    let o (n : Nat) : State := let u := overtimeAt 29000; { u with pace := { u.pace with actual := n } }
    s.inReset = false ∧ s.Quiet ∧ s.CausesCurrent ∧ s.timer.state.isOpen = true ∧
      s.line.queue = .countAdjust 1 :: [] ∧ State.reset.timer.state.isOpen = false ∧
      (max 0 (min 9999 ((s.pace.actual : Int) + (1 : Byte).toInt))).toNat ≠ s.pace.actual ∧
      (max 0 (min 9999 ((s.pace.actual : Int) + (0 : Byte).toInt))).toNat = s.pace.actual ∧
      (o 428).pace.actual + 1 < (o 428).computeFigures.g ∧ (o 429).computeFigures.g ≤ (o 429).pace.actual + 1 := by
  unfold State.Quiet State.CausesCurrent; decide

/-- The form those frames ask for, under COUNT ADJUST, TIME MARK and KEEPALIVE alike. -/
theorem witness_CountAdjust_form (f : Frame) :
    (queued f (shiftAt 100 100)).TimerForm ∧ (queued f (shiftAt 100 100)).line.queue = f :: [] := ⟨timer_shift, rfl⟩

/-- Marks 60 and 61 seconds from the clock on either side, and one of another shift. -/
theorem witness_TimeMark :
    let s := shiftAt 100 100
    let gap (m : Half) : Int := (m.toNat : Int) - s.timer.clock
    s.timer.state.isOpen = true ∧ (301 : Half).toNat = s.timer.number ∧ (300 : Half).toNat ≠ s.timer.number ∧
      gap 160 = 60 ∧ gap 161 = 61 ∧ gap 40 = -60 ∧ gap 39 = -61 := by decide

theorem witness_ShiftStartOpensShift :
    let s := inState .noShift (shiftAt 0 0)
    let q := queued (.shiftStart 1 0) s
    let p := plantAt (.arguments .shiftStart) s
    q.Quiet ∧ p.Quiet ∧ (1 : Half) ≠ 0 ∧ q.inReset = false ∧ q.timer.state = .noShift ∧ q.line.queue = .shiftStart 1 0 :: [] ∧
      q.timer.next.orElse (fun _ => q.timer.active) = some plan ∧
      p.inReset = false ∧ p.timer.state = .noShift ∧ p.plant.transaction = .arguments .shiftStart ∧
      p.timer.next.orElse (fun _ => p.timer.active) = some plan := by
  unfold State.Quiet; decide

/-- No plan; the open shift's own number (the gaps of `witness_TimeMark`); CLOSING; another number. -/
theorem witness_ShiftStartRefusedMarkedHeldOrEndingShift :
    let s := shiftAt 100 100
    let r := State.reset
    (r.inReset = false ∧ r.Quiet ∧ r.CausesCurrent ∧ r.timer.state = .noShift ∧ r.timer.next = none ∧ r.timer.active = none) ∧
      (s.inReset = false ∧ s.Quiet ∧ s.CausesCurrent ∧ s.timer.state.isOpen = true ∧
        (301 : Half).toNat = s.timer.number ∧ (302 : Half).toNat ≠ s.timer.number ∧ (302 : Half) ≠ 0) ∧
      (closing.inReset = false ∧ closing.Quiet ∧ closing.CausesCurrent ∧ closing.timer.state = .closing) ∧
      (queued (.shiftStart 302 0) s).line.queue = .shiftStart 302 0 :: [] ∧
      (plantAt (.arguments .shiftStart) s).plant.transaction = .arguments .shiftStart := by
  unfold State.Quiet State.CausesCurrent; decide

/-- Counts 6 and 7; lists in order and out of order. -/
theorem witness_StagePlanJudgesClampsAndFits :
    let s := plantAt (.arguments .stagePlan) State.reset
    let bs : Vector BreakArg 6 := #v[⟨100, 60⟩, ⟨160, 60⟩, ⟨159, 60⟩, ⟨0, 0⟩, ⟨0, 0⟩, ⟨0, 0⟩]
    let size (b : BreakArg) : Nat := max 60 (min 3600 b.length.toNat)
    let ordered (n : Nat) : Prop := List.IsChain
      (fun a b => a.start.toNat < b.start.toNat ∧ a.start.toNat + size a ≤ b.start.toNat) (bs.toList.take n)
    s.inReset = false ∧ s.Quiet ∧ s.plant.transaction = .arguments .stagePlan ∧ ordered 2 ∧ ¬ordered 3 ∧
      (6 : Byte).toNat ≤ 6 ∧ 6 < (7 : Byte).toNat := by
  unfold State.Quiet; decide

theorem witness_CommitPlanRefusedOrNextAndDiscardPlan :
    let s := plantAt (.arguments .commitPlan) State.reset
    let staged (u : State) : State := plantAt (.arguments .commitPlan) { u with timer := { u.timer with staged := some plan } }
    let d := plantAt .ready State.reset
    (s.inReset = false ∧ s.Quiet ∧ s.CausesCurrent ∧ s.plant.transaction = .arguments .commitPlan ∧ s.timer.staged = none) ∧
      ((staged closing).Quiet ∧ (staged closing).CausesCurrent ∧ (staged closing).timer.state = .closing ∧
        (staged closing).timer.staged = some plan) ∧
      ((staged s).CausesCurrent ∧ (staged s).timer.state = .noShift) ∧
      (d.inReset = false ∧ d.Quiet ∧ d.plant.transaction = .ready) ∧ 1 < (2 : Byte).toNat ∧ (1 : Byte).toNat ≤ 1 := by
  unfold State.Quiet State.CausesCurrent; decide

/-- In PRODUCTION before, at and past the new L, and in OVERTIME before and at the new L. -/
theorem witness_CommitPlanNowRebasesAndDecidesAgain :
    let staged (l : Nat) (u : State) : State :=
      plantAt (.arguments .commitPlan) { u with timer := { u.timer with staged := some ⟨l, 600, 1800, []⟩ } }
    let ok (l : Nat) (u : State) : Bool :=
      !(staged l u).inReset && decide ((staged l u).engine.requests = .none) && decide ((staged l u).plant.transaction = .arguments .commitPlan) &&
        (staged l u).timer.state.isOpen && decide ((staged l u).timer.staged = some ⟨l, 600, 1800, []⟩)
    ok 10001 (shiftAt 10000 9400) = true ∧ ok 10000 (shiftAt 10000 9400) = true ∧ ok 8200 (shiftAt 10000 9400) = true ∧
      ok 29001 (overtimeAt 29000) = true ∧ ok 29000 (overtimeAt 29000) = true := by decide

theorem witness_ShiftCloseStartsCloseWithSnapshot :
    let s := plantAt .ready (shiftAt 100 100)
    let r := plantAt .ready State.reset
    (s.inReset = false ∧ s.Quiet ∧ s.plant.transaction = .ready ∧ s.timer.state.isOpen = true) ∧
      (r.inReset = false ∧ r.plant.transaction = .ready ∧ r.timer.state.isOpen = false ∧ r.Quiet ∧ r.CausesCurrent) := by
  unfold State.Quiet State.CausesCurrent; decide

/-! ### Witnesses: calls -/

/-- Station 15 is the last enabled one after reset; SAFETY and another kind. -/
theorem witness_PullOpensCall :
    let s (k : Byte) := queued (.pull 15 k 0) State.reset
    (∀ k, (s k).inReset = false ∧ (s k).Quiet ∧ (s k).CallsForm ∧ (s k).line.queue = .pull 15 k 0 :: []) ∧
      (15 : Byte).toNat = (15 : Fin 48).val ∧ State.reset.layout.enabled 15 = true ∧
      State.reset.layout.stationZone 15 = some 0 ∧ (3 : Byte).toNat = Kind.safety.code ∧ (0 : Byte).toNat = Kind.quality.code ∧
      State.reset.callList.atStation 15 = none :=
  ⟨fun _ => ⟨rfl, rfl, calls_reset, rfl⟩, by decide⟩

/-- Stations 47 and 48, a disabled station, kind codes 4 and 5, a kind held and kinds not held. -/
theorem witness_PullRefusedOrGrowsOpenCall :
    let s := withCall call State.reset
    (∀ f, (queued f s).inReset = false ∧ (queued f s).Quiet ∧ (queued f s).CallsForm ∧ (queued f s).line.queue = f :: []) ∧
      s.CausesCurrent ∧ 48 ≤ (48 : Byte).toNat ∧ (47 : Fin 48).val = (47 : Byte).toNat ∧ s.layout.enabled 47 = false ∧
      s.layout.enabled 3 = true ∧ 4 < (5 : Byte).toNat ∧ s.callList.atStation 3 = some call ∧
      Kind.parts ∈ call.kinds ∧ Kind.safety ∉ call.kinds ∧ Kind.help ∉ call.kinds ∧ Kind.help.code = (4 : Byte).toNat := by
  refine ⟨fun _ => ⟨rfl, rfl, calls_call, rfl⟩, ?_⟩
  unfold State.CausesCurrent; decide

theorem witness_ReleaseResetAndClearCloseTheirCall :
    let s := withCall call State.reset
    let p := plantAt (.arguments .clearCall) s
    (∀ f, (queued f s).inReset = false ∧ (queued f s).Quiet ∧ (queued f s).line.queue = f :: []) ∧
      s.callList.atStation call.station = some call ∧ (3 : Byte).toNat = call.station.val ∧ (1 : Byte) ≠ 0 ∧
      p.inReset = false ∧ (1 : Half).toNat = call.number ∧ p.callList.numbered call.number = some call ∧
      p.plant.transaction = .arguments .clearCall :=
  ⟨fun _ => ⟨rfl, rfl, rfl⟩, by decide⟩

/-- A call without and with an acknowledgement; a station and a number without a call; id 0; station 48. -/
theorem witness_AcknowledgementsStoredOnceAndRefusalsChangeNothingElse :
    let acked : Call := { call with ack := some ⟨.line, 1, 0⟩ }
    let s := withCall call State.reset
    let a := withCall acked State.reset
    (∀ f, (queued f s).inReset = false ∧ (queued f s).Quiet ∧ (queued f s).line.queue = f :: []) ∧
      (∀ c, (plantAt (.arguments c) s).plant.transaction = .arguments c) ∧
      s.CausesCurrent ∧ s.callList.atStation 3 = some call ∧ call.ack = none ∧ a.callList.atStation 3 = some acked ∧
      acked.ack ≠ none ∧ (∀ st : Fin 48, st.val = (4 : Byte).toNat → s.callList.atStation st = none) ∧
      s.callList.numbered 1 = some call ∧ s.callList.numbered 2 = none ∧ a.callList.numbered 1 = some acked ∧
      48 ≤ (48 : Byte).toNat := by
  refine ⟨fun _ => ⟨rfl, rfl, rfl⟩, fun _ => rfl, ?_⟩
  unfold State.CausesCurrent; decide

theorem witness_CallSecondRaisesHoldTimeEscalationAndLevel :
    (withCall call State.reset).inReset = false ∧ (withCall call State.reset).Quiet := ⟨rfl, rfl⟩

/-- Timeout codes 3 and 4. -/
theorem witness_PolicyAndLinkSettingsAreStored :
    let s (c : PlantCommand) := plantAt (.arguments c) State.reset
    (∀ c, (s c).inReset = false ∧ (s c).Quiet ∧ (s c).plant.transaction = .arguments c) ∧
      State.reset.CausesCurrent ∧ (3 : Byte).toNat ≤ 3 ∧ 3 < (4 : Byte).toNat :=
  ⟨fun _ => ⟨rfl, rfl, rfl⟩, causes_reset, by decide⟩

/-! ### Witnesses: the two ports -/

/-- ADR 0: own write and read, broadcast write and read, another address; queues of 15 and 16 frames. -/
theorem witness_AddressByteIsAnsweredByOwnAddressBroadcastAndQueue :
    let s (n : Nat) := { State.reset with line := { State.reset.line with queue := List.replicate n .keepalive } }
    let address (b : Byte) := b.toNat / 2
    (∀ n, (s n).inReset = false ∧ (s n).Quiet ∧ (s n).line.broadcastEnable = true) ∧
      (s 15).line.queue.length < 16 ∧ 16 ≤ (s 16).line.queue.length ∧
      address 0x70 = 0x38 + State.reset.straps.adr.toNat ∧ ¬(0x70 : Byte).toNat % 2 = 1 ∧ address 0x71 = address 0x70 ∧
      (0x71 : Byte).toNat % 2 = 1 ∧ address 0 = 0 ∧ address 1 = 0 ∧ address 0x72 ≠ 0 ∧ address 0x72 ≠ address 0x70 :=
  ⟨fun _ => ⟨rfl, rfl, rfl⟩, by decide⟩

theorem witness_LineStatusReadCapturesBlockAndClearsMissed : State.reset.inReset = false ∧ State.reset.Quiet := ⟨rfl, rfl⟩

/-- The clock of the two wires stopped, within a byte, at its last bit and at its acknowledge bit, in an address byte and
after it, in each phase. -/
theorem witness_AddressByte_edges :
    let s (p : LinePhase) (c : LineClock) := lineClockAt c { State.reset with line := { State.reset.line with phase := p } }
    (∀ p c, (s p c).inReset = false ∧ (s p c).Quiet ∧ (s p c).line.phase = p ∧ (s p c).line.clock = c) ∧
      (bitsOf 0x70 6).length < 7 ∧ (bitsOf 0x70 7).length = 7 ∧ 8 ≤ (bitsOf 0x70 8).length :=
  ⟨fun _ _ => ⟨rfl, rfl, rfl, rfl⟩, by decide⟩

/-- A KEEPALIVE whole, cut short and with a bad check; an unknown type; no byte; no taken transaction. -/
theorem witness_LineFrameIsJudgedIntoQueueOrResult :
    let s := { State.reset with line := { State.reset.line with phase := .receiving } }
    let sum (b : List Byte) : Nat := (b.map BitVec.toNat).sum % 256
    s.inReset = false ∧ s.Quiet ∧ s.line.phase = .receiving ∧ State.reset.line.phase ≠ .receiving ∧
      [0x50, 0xB0] = Frame.keepalive.bytes ++ 0xB0 :: [] ∧ sum [0x50, 0xB0] = 0 ∧ sum [0x50, 0xB1] ≠ 0 ∧
      ([0x50] : List Byte).length < 2 := by
  unfold State.Quiet; decide

/-- A plant command with the decoder waiting, a RELEASE's command before a KEEPALIVE, CS falling in a transaction. -/
theorem witness_CommandsOutsideTheirPlaceChangeNothing :
    let s := queued .keepalive State.reset
    s.inReset = false ∧ s.Quiet ∧ s.CausesCurrent ∧ Spells .setMask (.setMask 0) ∧ s.plant.transaction = .waiting ∧
      (∀ f rest, s.line.queue = f :: rest → f.type ≠ .release) ∧
      (plantAt .ready s).CausesCurrent ∧ (plantAt .ready s).plant.transaction = .ready ∧
      decodePlantCode 0x01 = some .readStatus ∧ PlantCommand.readStatus.argBytes = 0 := by
  refine ⟨rfl, rfl, causes_reset, .setMask 0, rfl, ?_, causes_reset, rfl, rfl, rfl⟩
  intro f rest h
  cases h
  decide

/-- A transaction that each slot, flag byte or pixel does not belong to: another read's, an entry already captured,
and a WRITE PIXELS that was refused. -/
theorem witness_CommandsOutsideTheirPlace_slots :
    let at_ (t : Transaction) : State := plantAt t State.reset
    let free (t : Transaction) : Prop := (at_ t).inReset = false ∧ (at_ t).Quiet ∧ (at_ t).CausesCurrent
    let shown : StatusReply := ⟨[], false, false, some []⟩
    (∀ t, free t) ∧
      (at_ (.status (some shown))).plant.transaction ≠ .status none ∧
      (∀ r, (at_ (.status none)).plant.transaction ≠ .status (some r)) ∧
      (∀ r, (at_ (.status (some shown))).plant.transaction = .status (some r) → r.extension ≠ none) ∧
      (∀ n, (at_ (.station 0 (some []))).plant.transaction ≠ .station n none) ∧
      (∀ a b, (at_ (.pace none)).plant.transaction ≠ .calls a b) ∧
      (at_ (.pace (some []))).plant.transaction ≠ .pace none ∧
      (∀ n e, (at_ (.pace none)).plant.transaction ≠ .loss n e) ∧
      (∀ x, (at_ (.summary none (some ⟨[], [], false⟩))).plant.transaction ≠ .summary x none) ∧
      (∀ sl, (at_ (.loss 0 [])).plant.transaction ≠ .history sl) ∧
      (∀ sl, (at_ (.history none)).plant.transaction ≠ .history (some sl)) ∧
      (∀ m, (at_ .pixelsRefused).plant.transaction ≠ .pixelsIn m) ∧
      (∀ p, (at_ .pixelsRefused).plant.transaction ≠ .pixelsOut p) ∧
      (∀ p, (at_ (.pixelsOut none)).plant.transaction ≠ .pixelsOut (some p)) := by
  refine ⟨fun t => ⟨rfl, rfl, causes_reset⟩, ?_⟩
  simp [plantAt]

/-- Each transaction state the clauses name, with an unknown code and one with arguments. -/
theorem witness_CsEdgesAndCommandBytesFrameTransactions :
    (∀ t, (plantAt t State.reset).inReset = false ∧ (plantAt t State.reset).Quiet ∧
        (plantAt t State.reset).plant.transaction = t) ∧
      Spells .setMask (.setMask 5) ∧
      decodePlantCode 0x00 = none ∧ decodePlantCode 0x34 = some .setMask ∧ 0 < PlantCommand.setMask.argBytes :=
  ⟨fun _ => ⟨rfl, rfl, rfl⟩, .setMask 5, by decide⟩

/-- Any transaction at any place of its clock: within a byte and at its last bit; a command without arguments, the last
argument byte and one before it, whole and incomplete groups; a byte's first bit, with each reply waiting for one. -/
theorem witness_CommandByte_edges :
    (∀ t c, (plantClockAt c (plantAt t State.reset)).inReset = false ∧ (plantClockAt c (plantAt t State.reset)).Quiet ∧
        (plantClockAt c (plantAt t State.reset)).plant.transaction = t ∧
        (plantClockAt c (plantAt t State.reset)).plant.clock = c) ∧
      clockedByte (bitsOf 0x35 8) = 0x35 ∧ decodePlantCode 0x35 = some .setMark ∧ SpelledBy .setMark [] .setMark ∧
      clockedByte (bitsOf 5 8) = 5 ∧ SpelledBy .setMask ([] ++ [5]) (.setMask 5) ∧
      ([] ++ [(5 : Byte)]).length < PlantCommand.setCursor.argBytes ∧
      (∀ i, (plantAt (.station 0 none) State.reset).miso i = some 0xFF) :=
  ⟨fun _ _ => ⟨rfl, rfl, rfl, rfl⟩, by decide, rfl, .setMark, by decide, .setMask 5, by decide, fun _ => rfl⟩

/-- No slot written, and slot 0 the newest with ages 0 and 3. -/
theorem witness_ReadsAreTakenWithoutResult :
    (∀ t, (plantAt t closing).inReset = false ∧ (plantAt t closing).Quiet ∧ (plantAt t closing).plant.transaction = t) ∧
      State.reset.archive.newest = none ∧ closing.archive.newest = some 0 ∧ (3 : Fin 4).val = (3 : Byte).toNat ∧
      3 < (4 : Byte).toNat := ⟨fun _ => ⟨rfl, rfl, rfl⟩, by decide⟩

theorem witness_ReadStatusCapturesAndClearsShownCollision :
    let r : StatusReply := ⟨[], true, false, none⟩
    let e : StatusReply := { r with extension := some [] }
    (∀ t, (plantAt t State.reset).inReset = false ∧ (plantAt t State.reset).Quiet ∧
        (plantAt t State.reset).plant.transaction = t) ∧ r.extension = none ∧ e.extension ≠ none :=
  ⟨fun _ => ⟨rfl, rfl, rfl⟩, by decide⟩

/-- Stations 47 and 48; a noted call open, and notes of closed calls alone; the first and last entry of each part of
READ LOSS, and the first past the end. -/
theorem witness_StationCallPaceAndLossRepliesAreCaptured :
    let s := withCall call State.reset
    (∀ t, (plantAt t s).inReset = false ∧ (plantAt t s).Quiet ∧ (plantAt t s).plant.transaction = t) ∧
      (47 : Fin 48).val = (47 : Byte).toNat ∧ 48 ≤ (48 : Byte).toNat ∧
      (s.callList.numbered 1 = some call ∧ (s.callList.numbered 9).isSome = false) ∧
      (5 = (5 : Fin 6).val ∧ 6 = 6 + (0 : Fin 5).val ∧ 10 = 6 + (4 : Fin 5).val ∧
        11 = 11 + 5 * (0 : Fin 6).val + (0 : Fin 5).val ∧ 40 = 11 + 5 * (5 : Fin 6).val + (4 : Fin 5).val ∧
        41 = 41 + 5 * (0 : Fin 6).val + (0 : Fin 5).val ∧ 70 = 41 + 5 * (5 : Fin 6).val + (4 : Fin 5).val ∧
        71 = 71 + (0 : Fin 6).val ∧ 76 = 71 + (5 : Fin 6).val ∧ 77 = 77 + (0 : Fin 5).val ∧
        81 = 77 + (4 : Fin 5).val) :=
  ⟨fun _ => ⟨rfl, rfl, rfl⟩, by decide⟩

/-- No slot, an EMPTY one, a WRITING one and a COMPLETE one. -/
theorem witness_ReadSummaryServesSelectedSlot :
    let done := after .closeCompletion closing
    let r := (shiftAt 100 100).snapshot .command
    (∀ t, (plantAt t closing).inReset = false ∧ (plantAt t closing).Quiet ∧ (plantAt t closing).plant.transaction = t) ∧
      closing.archive.slots.at_ 1 = .empty ∧ closing.archive.slots.at_ 0 = .writing r ∧
      done.inReset = false ∧ done.Quiet ∧ done.archive.slots.at_ 0 = .complete r :=
  ⟨fun _ => ⟨rfl, rfl, rfl⟩, by unfold State.Quiet; decide⟩

/-- The cursor at end, and on the oldest and the newest of two records. -/
theorem witness_HistorySlotsFollowCursorAndRewind :
    (∀ t, (plantAt t (logged 2 none)).inReset = false ∧ (plantAt t (logged 2 none)).Quiet ∧
        (plantAt t (logged 2 none)).plant.transaction = t) ∧
      (logged 2 none).HistoryForm ∧ (logged 2 (some 0)).HistoryForm ∧ (logged 2 (some 1)).HistoryForm ∧
      (logged 2 (some 1)).history[1]? = some record := by
  refine ⟨fun _ => ⟨rfl, rfl, rfl⟩, ?_, ?_, ?_, rfl⟩ <;> unfold State.HistoryForm <;> simp [logged]

/-! ### Witnesses: layout, Frame Store, board and tiles -/

/-- Zone numbers 5 and 6; an open shift; a write that meets the tests, one that does not, one that strands a call. -/
theorem witness_LayoutZoneWriteIsJudgedAndApplied :
    let c := PlantCommand.writeLayoutZone
    let r := plantAt (.arguments c) State.reset
    let o := plantAt (.arguments c) (shiftAt 100 100)
    let answer (s : State) (last : Byte) : PlantResult := (after (.writeLayoutZone 0 1 0 last 32 4 1 0) s).plant.lastResult
    let out := qualifying 1 { r with layout := { r.layout with used := 2 } }
    (out.pitch.at_ 1 = ⟨false, true⟩ ∧ out.layout.used = 2 ∧ out.Quiet ∧ out.CausesCurrent ∧
      (after (.writeLayoutZone 0 1 0 15 32 4 1 0) out).plant.lastResult = .ok ∧
      (after (.writeLayoutZone 0 1 0 15 32 4 1 0) out).pitch.at_ 1 = ⟨false, false⟩) ∧
    (r.inReset = false ∧ r.Quiet ∧ r.CausesCurrent ∧ r.plant.transaction = .arguments c ∧ r.timer.state = .noShift) ∧
      (o.Quiet ∧ o.CausesCurrent ∧ o.timer.state ≠ .noShift) ∧
      (5 : Fin 6).val = (5 : Byte).toNat ∧ 5 < (6 : Byte).toNat ∧
      answer r 15 = .ok ∧ answer (withCall call r) 2 = .state ∧
      (after (.writeLayoutZone 0 1 1 15 32 4 1 0) r).plant.lastResult = .invalid := by
  unfold State.Quiet State.CausesCurrent; decide

/-- Stations 47 and 48; a station with a call, its flag off or its length changed, and left as it is. -/
theorem witness_LayoutStationWriteIsJudgedAndApplied :
    let c := PlantCommand.writeLayoutStation
    let r := plantAt (.arguments c) (withCall call State.reset)
    let o := plantAt (.arguments c) (shiftAt 100 100)
    (r.inReset = false ∧ r.Quiet ∧ r.CausesCurrent ∧ r.plant.transaction = .arguments c ∧ r.timer.state = .noShift) ∧
      (o.Quiet ∧ o.CausesCurrent ∧ o.timer.state ≠ .noShift) ∧
      (47 : Fin 48).val = (47 : Byte).toNat ∧ 47 < (48 : Byte).toNat ∧ r.callList.atStation 3 ≠ none ∧
      (r.layout.stations.at_ 3).length = 16 ∧ r.callList.atStation 4 = none := by
  unfold State.Quiet State.CausesCurrent; decide

theorem witness_plant_commands_without_conditions :
    ∀ t, (plantAt t State.reset).inReset = false ∧ (plantAt t State.reset).Quiet ∧
      (plantAt t State.reset).plant.transaction = t := fun _ => ⟨rfl, rfl, rfl⟩

/-- Codes at and above the last of SET ADDRESS CONTROL, SET COLOUR MODE, WRITE PIXELS and SET INTENSITY. -/
theorem witness_code_bounds :
    (1 : Byte).toNat ≤ 1 ∧ 1 < (2 : Byte).toNat ∧ 2 < (3 : Byte).toNat ∧ (5 : Byte).toNat ≤ 5 ∧ 5 < (6 : Byte).toNat := by
  decide

/-- The whole frame as window, the cursor outside a smaller one. -/
theorem witness_PixelTransfersBeginAtCursorAndReadsAdvance :
    let s := State.reset
    let w : Rect := ⟨10, 5, 13, 6⟩
    s.frame.window.InFrame ∧ w.InFrame ∧ w.holds s.frame.cursor.x s.frame.cursor.y = false := by
  unfold Rect.InFrame; decide

/-- The cursor on an engine-owned pixel, and on a plant-owned one. -/
theorem witness_PixelGroupsAreWrittenOrDroppedPixelByPixel :
    let s := State.reset
    let u := plantOwned s
    (∃ i : Fin 8, (s.engine.regions.at_ i).enabled = true ∧ (s.engine.regions.at_ i).role ≠ .message ∧
        (s.engine.regions.at_ i).rect.holds s.frame.cursor.x s.frame.cursor.y = true) ∧
      (∀ i : Fin 8, (u.engine.regions.at_ i).enabled = false) ∧ u.frame.pixels.wf = true ∧ u.frame.cursor.InFrame ∧
      u.inReset = false ∧ u.Quiet ∧
      (∀ m, (plantAt (.pixelsIn m) u).plant.transaction = .pixelsIn m) := by
  unfold State.Quiet Point.InFrame
  exact ⟨by decide, by decide, by decide, by decide, by decide, by decide, fun _ => rfl⟩

/-- Entry 7 and role 5, and the first codes past them; an overlap, a role held elsewhere, and a write applied. -/
theorem witness_RegionWriteIsJudgedAndApplied :
    let s := plantAt (.arguments .writeRegion) State.reset
    let answer (entry role x0 y0 x1 y1 flag : Byte) : PlantResult :=
      (after (.writeRegion entry role x0 y0 x1 y1 flag 0 4) s).plant.lastResult
    s.inReset = false ∧ s.Quiet ∧ s.frame.pixels.wf = true ∧ s.plant.transaction = .arguments .writeRegion ∧
      7 < (8 : Byte).toNat ∧ 5 < (6 : Byte).toNat ∧ (7 : Fin 8).val = (7 : Byte).toNat ∧
      answer 7 5 0 0 1 1 1 = .overlap ∧ answer 0 0 0 0 9 7 1 = .invalid ∧ answer 7 5 0 0 1 1 0 = .ok := by
  unfold State.Quiet; decide

/-- A role with a capture; a station with a call and one without; the lines of 8 rows and characters of 5 columns. -/
theorem witness_PassCapturesWhatItsRoleShows :
    let s := withCall call State.reset
    s.captureFor .clock = some (.clock none) ∧ s.callList.atStation 3 = some call ∧
      s.callList.atStation 4 = none ∧ s.layout.stationZone 4 = some 0 ∧ s.line.link.state ≠ .up := by decide

theorem witness_PictureDrawsCellsAndTextLines :
    let r := State.reset.engine.regions.at_ 3
    let w := r.rect.x1 + 1 - r.rect.x0
    let h := r.rect.y1 + 1 - r.rect.y0
    119 < w ∧ 15 < h ∧ r.headerRows ≤ 2 := by decide

/-- An idle entry, and passes without and with a pending request. -/
theorem witness_PassCompletionLeavesPictureAndServesPending :
    let s := State.reset
    let c : Capture := .clock none
    let u := rendering 4 (.busy c 640 true) s
    s.inReset = false ∧ s.Quiet ∧ s.frame.pixels.wf = true ∧ (s.engine.regions.at_ 4).rect.InFrame ∧
      (s.engine.regions.at_ 4).render = .busy c 0 false ∧ (s.engine.regions.at_ 5).render = .idle ∧
      u.Quiet ∧ u.frame.pixels.wf = true ∧ (u.engine.regions.at_ 4).rect.InFrame ∧
      (u.engine.regions.at_ 4).render = .busy c 640 true := by
  unfold State.Quiet Rect.InFrame; decide

/-- Two calls fit the two lines of the ticker, three do not; the scroll count below and at the interval. -/
theorem witness_TickerScrollsAndFlashToggles :
    let s (n count : Nat) : State :=
      { State.reset with
        callList := { State.reset.callList with calls := List.replicate n call }
        engine := { State.reset.engine with scrollCount := count } }
    (∀ n m, (s n m).inReset = false ∧ (s n m).Quiet) ∧
      (State.reset.engine.inForce .ticker).map (fun r => (r.scrollLines, r.scrollInterval)) = some (2, 4) ∧
      ((s 2 0).callList.calls.length ≤ 2 ∧ 2 < (s 3 0).callList.calls.length) ∧
      ((s 3 3).engine.scrollCount < 4 ∧ 4 ≤ (s 3 4).engine.scrollCount) := ⟨fun _ _ => ⟨rfl, rfl⟩, by decide⟩

/-- Tile 29 with its group enabled and, at a start count of 9, disabled. -/
theorem witness_TileReturnsAndStartCountFollowTheChain :
    let s := State.reset
    let u := { s with tiles := { s.tiles with startCount := 9 } }
    s.inReset = false ∧ s.Quiet ∧ (29 : Fin 30).val / 3 < s.tiles.startCount ∧ u.Quiet ∧
      u.tiles.startCount ≤ (29 : Fin 30).val / 3 := by unfold State.Quiet; decide

/-- The actual intensity one below, at and one above the target; the decrease count 2 and 3. -/
theorem witness_IntensityIsSetAndRampsTowardTarget :
    let s (actual count : Nat) : State :=
      { State.reset with
        tiles := { State.reset.tiles with actual := actual, asymmetric := true, decreaseCount := count } }
    (∀ a c, (s a c).inReset = false ∧ (s a c).Quiet ∧ (s a c).tiles.rampCode ≠ 0) ∧
      (s 31 0).effectiveTarget = 32 ∧ (s 33 2).tiles.decreaseCount < 3 ∧ 3 ≤ (s 33 3).tiles.decreaseCount :=
  ⟨fun _ _ => ⟨rfl, rfl, (by decide : (2 : Nat) ≠ 0)⟩, by decide⟩

end Sys2Proof.Tests
end

section
/-! The commands that reach neither the line layout, the station records, the Conveyor Tracker nor the Call List. -/

namespace Sys2Proof.Machine

/-- The commands that can change the layout, the station records, the Tracker or the Call List; an edge of SCK can
complete the bytes of any of them. -/
def Instr.reachesLine : Instr → Bool
  | .hardReset _ | .step _ | .xstopChange _ | .stallMonitorSecond _ | .shiftTimerSecond | .closeCompletion
  | .callSecond _ | .pull | .release | .leaderAck | .leaderReset | .bufferSet | .countAdjust | .lineShiftStart
  | .commitPlan _ | .plantShiftStart _ _ | .shiftClose | .ackCall _ _ | .clearCall _ _
  | .writeLayoutZone _ _ _ _ _ _ _ _ | .writeLayoutStation _ _ _ | .writePolicy _ _ | .commandByte (.edge _) => true
  | _ => false

/-- Two states agree on the layout, the station records, the Tracker and the Call List. -/
structure SameLine (s t : State) : Prop where
  layout : t.layout = s.layout
  stations : t.stations = s.stations
  tracker : t.tracker = s.tracker
  callList : t.callList = s.callList

theorem endReset_sameLine (adr : BitVec 3) (tst : BitVec 2) (xtal : Bool) (s : State) :
    SameLine s (endReset adr tst xtal s) := by
  constructor <;> simp [endReset]

theorem execEndOfHardReset_sameLine (adr : BitVec 3) (tst : BitVec 2) (xtal : Bool) (gone : ResetEnd) {s t : State}
    (e : execEndOfHardReset adr tst xtal s gone = .next t) : SameLine s t := by
  rw [execEndOfHardReset_next] at e
  cases e
  dsimp only
  split
  · have h := endReset_sameLine adr tst xtal { s with conditions := s.conditions.without gone }
    exact ⟨h.layout, h.stations, h.tracker, h.callList⟩
  · exact ⟨rfl, rfl, rfl, rfl⟩

/-- The frame of every other command, in the words of SameLine. -/
theorem exec_sameLine {c : Instr} {s t : State} (e : exec c s = .next t) (hc : Instr.reachesLine c = false) : SameLine s t := by
  cases c with
  | endOfHardReset adr tst xtal gone => exact execEndOfHardReset_sameLine adr tst xtal gone e
  | xalertChange m => constructor <;> simp only [execXalertChange_keeps m e]
  | runClockSecond => constructor <;> simp only [execRunClockSecond_keeps e]
  | lineLinkSecond => constructor <;> simp only [execLineLinkSecond_keeps e]
  | plantLinkSecond => constructor <;> simp only [execPlantLinkSecond_keeps e]
  | scrollSecond => constructor <;> simp only [execScrollSecond_keeps e]
  | scrollStep => constructor <;> simp only [execScrollStep_keeps e]
  | flashToggle => constructor <;> simp only [execFlashToggle_keeps e]
  | startTimerExpiry => constructor <;> simp only [execStartTimerExpiry_keeps e]
  | rampExpiry => constructor <;> simp only [execRampExpiry_keeps e]
  | presenceReturn tile present => constructor <;> simp only [execPresenceReturn_keeps tile present e]
  | renderPassComplete entry => constructor <;> simp only [execRenderPassComplete_keeps entry e]
  | addressByte input => constructor <;> simp only [execAddressByte_keeps input e]
  | lineStatusRead => constructor <;> simp only [execLineStatusRead_keeps e]
  | lineFrame bytes bits => constructor <;> simp only [execLineFrame_keeps bytes bits e]
  | timeMark => constructor <;> simp only [execTimeMark_keeps e]
  | keepalive => constructor <;> simp only [execKeepalive_keeps e]
  | csFalling => constructor <;> simp only [execCsFalling_keeps e]
  | csRising bytes bits => constructor <;> simp only [execCsRising_keeps bytes bits e]
  | unknownCommand code => constructor <;> simp only [execUnknownCommand_keeps code e]
  | readStatus m => constructor <;> simp only [execReadStatus_keeps m e]
  | statusFlagByteSent => constructor <;> simp only [execStatusFlagByteSent_keeps e]
  | presenceExtension => constructor <;> simp only [execPresenceExtension_keeps e]
  | readStation m => constructor <;> simp only [execReadStation_keeps m e]
  | readCalls => constructor <;> simp only [execReadCalls_keeps e]
  | callRecordSlot => constructor <;> simp only [execCallRecordSlot_keeps e]
  | readPace m => constructor <;> simp only [execReadPace_keeps m e]
  | readLoss m => constructor <;> simp only [execReadLoss_keeps m e]
  | readSummary m => constructor <;> simp only [execReadSummary_keeps m e]
  | readHistory => constructor <;> simp only [execReadHistory_keeps e]
  | historySlot m => constructor <;> simp only [execHistorySlot_keeps m e]
  | rewindHistory => constructor <;> simp only [execRewindHistory_keeps e]
  | stagePlan l k o n b => constructor <;> simp only [execStagePlan_keeps l k o n b e]
  | discardPlan => constructor <;> simp only [execDiscardPlan_keeps e]
  | writeLinkSettings a b c => constructor <;> simp only [execWriteLinkSettings_keeps a b c e]
  | setWindow a b c d => constructor <;> simp only [execSetWindow_keeps a b c d e]
  | setCursor x y => constructor <;> simp only [execSetCursor_keeps x y e]
  | setAddressControl a b c d => constructor <;> simp only [execSetAddressControl_keeps a b c d e]
  | setColourMode m => constructor <;> simp only [execSetColourMode_keeps m e]
  | setMask f => constructor <;> simp only [execSetMask_keeps f e]
  | setMark => constructor <;> simp only [execSetMark_keeps e]
  | returnToMark => constructor <;> simp only [execReturnToMark_keeps e]
  | writePixels o => constructor <;> simp only [execWritePixels_keeps o e]
  | pixelGroup bytes => constructor <;> simp only [execPixelGroup_keeps bytes e]
  | readPixels => constructor <;> simp only [execReadPixels_keeps e]
  | pixelRead m => constructor <;> simp only [execPixelRead_keeps m e]
  | writeRegion a b c d f g h i j => constructor <;> simp only [execWriteRegion_keeps a b c d f g h i j e]
  | setIntensity a b c => constructor <;> simp only [execSetIntensity_keeps a b c e]
  | restartTiles => constructor <;> simp only [execRestartTiles_keeps e]
  | commandByte input =>
    cases input with
    | byte code => constructor <;> simp only [execCommandByte_byte_keeps code e]
    | edge => nomatch hc
  | hardReset | step | xstopChange | stallMonitorSecond | shiftTimerSecond | closeCompletion | callSecond | pull
  | release | leaderAck | leaderReset | bufferSet | countAdjust | lineShiftStart | commitPlan | plantShiftStart
  | shiftClose | ackCall | clearCall | writeLayoutZone | writeLayoutStation | writePolicy => nomatch hc

theorem tick_sameLine (s : State) : SameLine s (tick s) := by
  constructor <;> simp only [tick_keeps]

/-- A property that looks at neither the queue nor the Plant Port's clock, and that the tick and every command but an
edge of SCK keep, is kept by the step. -/
theorem step_keeps_of_rows {I : State → Prop} (hq : ∀ s q, I s → I { s with pending := q })
    (hp : ∀ c s, I s → I (setPlantClock c s)) (ht : ∀ s, I s → I (tick s))
    (he : ∀ {c : Instr} {s t : State}, (∀ x, c ≠ .commandByte (.edge x)) → I s → exec c s = .next t → I t)
    {s t : State} (h : I s) (e : step s = .next t) : I t := by
  refine step_keeps hq ht (fun c s t h e => ?_) h e
  by_cases edge : ∃ x, c = .commandByte (.edge x)
  · obtain ⟨x, rfl⟩ := edge
    exact commandEdge_keeps hp (fun _ _ _ hc => he hc) h e
  · exact he (fun x hx => edge ⟨x, hx⟩) h e

end Sys2Proof.Machine
end

section
/-! The layout's form and the Tracker's counts (LineForm): what each event does to them. -/

namespace Sys2Proof.Machine

/-! ### What LineForm looks at -/

/-- The part of the state that LineForm looks at: the layout, the accumulators and the buffer counts. -/
def State.lineView (s : State) : Layout × (Fin 6 → Nat) × (Fin 5 → Nat) :=
  (s.layout, fun k => (s.tracker.zones.at_ k).accumulator, fun b => (s.tracker.buffers.at_ b).count)

/-- The layout's own part of LineForm (R1, R6). -/
structure Layout.Form (l : Layout) : Prop where
  used_pos : 1 ≤ l.used
  used_le : l.used ≤ 6
  zones : ∀ k, (l.zones.at_ k).InRange
  stations : ∀ st, 4 ≤ (l.stations.at_ st).length ∧ (l.stations.at_ st).length ≤ 64
  first_zero : (l.zones.at_ 0).first = 0
  first_le_last : ∀ k, l.zoneUsed k = true → (l.zones.at_ k).first ≤ (l.zones.at_ k).last
  follows : ∀ b : Fin 5, l.bufferUsed b = true →
    (l.zones.at_ (downstreamZone b)).first = (l.zones.at_ (upstreamZone b)).last + 1

/-- The Tracker's part of LineForm (R16, R17). -/
structure State.CountsFit (s : State) : Prop where
  accumulator : ∀ k, (s.tracker.zones.at_ k).accumulator < (s.layout.zones.at_ k).pitch
  count : ∀ b, (s.tracker.buffers.at_ b).count ≤ s.layout.capacity b
  unused : ∀ b, s.layout.bufferUsed b = false → (s.tracker.buffers.at_ b).count = 0

theorem lineForm_iff (s : State) : s.LineForm ↔ s.layout.Form ∧ s.CountsFit := by
  constructor
  · rintro ⟨h1, h2, h3, h4, h5, h6, h7, h8, h9, h10⟩
    exact ⟨⟨h1, h2, h3, h4, h5, h6, h7⟩, ⟨h8, h9, h10⟩⟩
  · rintro ⟨⟨h1, h2, h3, h4, h5, h6, h7⟩, ⟨h8, h9, h10⟩⟩
    exact ⟨h1, h2, h3, h4, h5, h6, h7, h8, h9, h10⟩

theorem State.LineForm.congr {s t : State} (h : s.LineForm) (e : t.lineView = s.lineView) : t.LineForm := by
  simp only [State.lineView, Prod.mk.injEq, funext_iff] at e
  obtain ⟨hl, hz, hb⟩ := e
  rw [lineForm_iff] at h ⊢
  obtain ⟨hf, hc⟩ := h
  refine ⟨by rwa [hl], ?_, ?_, ?_⟩
  · simpa only [hl, hz] using hc.accumulator
  · simpa only [hl, hb] using hc.count
  · simpa only [hl, hb] using hc.unused

theorem SameLine.lineView {s t : State} (h : SameLine s t) : t.lineView = s.lineView := by
  simp only [State.lineView, h.layout, h.tracker]

/-! ### Settling the Tracker moves no accumulator and no count -/

@[simp] theorem withReasons_accumulator (z : ZoneState) (r : ReasonSet) :
    (z.withReasons r).accumulator = z.accumulator := by
  unfold ZoneState.withReasons
  split <;> rfl

@[simp] theorem requalified_accumulator (z : ZoneState) (before now : Bool) :
    (z.requalified before now).accumulator = z.accumulator := by
  unfold ZoneState.requalified
  split <;> rfl

@[simp] theorem settleTracker_lineView (old s : State) : (settleTracker old s).lineView = s.lineView := by
  simp [State.lineView, settleTracker_zone, (settleTracker_inputs old s).buffers]

@[simp] theorem raise_lineView (s : State) (r : Role) : (s.raise r).lineView = s.lineView := rfl

@[simp] theorem raiseIf_lineView (s : State) (b : Bool) (r : Role) : (s.raiseIf b r).lineView = s.lineView := by
  simp [State.lineView]

@[simp] theorem onLine_lineView (s : State) (f : LinePort → LinePort) : (s.onLine f).lineView = s.lineView := rfl

@[simp] theorem onPlant_lineView (s : State) (f : PlantPort → PlantPort) : (s.onPlant f).lineView = s.lineView := rfl

@[simp] theorem serve_lineView (s : State) : (serve s).lineView = s.lineView := rfl

@[simp] theorem decideAlert_lineView (old s : State) : (decideAlert old s).lineView = s.lineView := by
  simp [State.lineView]

@[simp] theorem setPlantLink_lineView (s : State) (l : Link) : (setPlantLink l s).lineView = s.lineView := by
  simp [State.lineView]

@[simp] theorem handOn_lineView (old s : State) : (handOn old s).lineView = s.lineView := by
  unfold handOn
  split <;> simp

/-! ### Events that keep the view -/

theorem lineView_congr {s t : State} (hl : t.layout = s.layout) (ht : t.tracker = s.tracker) :
    t.lineView = s.lineView := by
  simp only [State.lineView, hl, ht]

@[simp] theorem changeActual_lineView (a : Nat) (s : State) : (changeActual a s).lineView = s.lineView := by
  unfold changeActual
  split
  · rfl
  · rw [handOn_lineView]
    exact lineView_congr (by simp) (by simp)

@[simp] theorem endOfLineCar_lineView (s : State) : (endOfLineCar s).lineView = s.lineView := by
  unfold endOfLineCar
  split <;> simp

@[simp] theorem advance_lineView (s : State) : (advance s).lineView = s.lineView := by
  have charge (u : State) : (productiveSecond u).lineView = u.lineView := lineView_congr (by simp) (by simp)
  have test (u : State) : (advanceEndTest u).lineView = u.lineView := lineView_congr (by simp) (by simp)
  have clock (u : State) : (advanceClock u).lineView = u.lineView := lineView_congr (by simp) (by simp)
  unfold advance
  split <;> simp [charge, test, clock]

@[simp] theorem shiftSecond_lineView (s : State) : (shiftSecond s).lineView = s.lineView := by
  have second (u : State) : (advanceIfOpen u).lineView = u.lineView := by
    unfold advanceIfOpen
    split <;> simp
  have correction (c : Int) (u : State) : (setCorrection c u).lineView = u.lineView := rfl
  unfold shiftSecond
  (repeat' split) <;> simp [second, correction]

@[simp] theorem completeClose_lineView (s : State) : (completeClose s).lineView = s.lineView := by
  unfold completeClose
  split
  · rw [handOn_lineView]
    exact lineView_congr (by simp) (by simp)
  · rfl

@[simp] theorem applyShiftStart_lineView (number offset : Nat) (s : State) :
    (applyShiftStart number offset s).1.lineView = s.lineView := by
  have opens (p : Plan) : (openShift p number offset s).lineView = s.lineView := lineView_congr (by simp) (by simp)
  have mark : (applyTimeMark number offset s).1.lineView = s.lineView := lineView_congr (by simp) (by simp)
  have close : (startClose .newShift (holdStart number offset s)).lineView = s.lineView :=
    lineView_congr (by simp) (by simp)
  unfold applyShiftStart
  split
  · rfl
  · split
    · split <;> simp [opens]
    · rfl
    all_goals split <;> simp [mark, close]

@[simp] theorem applyCommit_lineView (mode : Nat) (s : State) : (applyCommit mode s).1.lineView = s.lineView := by
  have now (p : Plan) : (commitNow p s).lineView = s.lineView := by
    unfold commitNow
    rw [handOn_lineView]
    exact lineView_congr (by simp) (by simp)
  unfold applyCommit
  split
  · rfl
  · split
    · rfl
    · split
      · rfl
      · split
        · simp only [now]
        · rfl

@[simp] theorem applyShiftClose_lineView (s : State) : (applyShiftClose s).1.lineView = s.lineView := by
  unfold applyShiftClose
  split
  · exact (handOn_lineView _ _).trans (lineView_congr (by simp) (by simp))
  · rfl

@[simp] theorem openCall_lineView (st : Fin 48) (zone : Fin 6) (k : Kind) (progress : Nat) (s : State) :
    (openCall st zone k progress s).lineView = s.lineView := by
  unfold openCall
  rw [settleTracker_lineView]
  exact lineView_congr (by simp) (by simp)

@[simp] theorem growCall_lineView (c : Call) (k : Kind) (s : State) : (growCall c k s).lineView = s.lineView := by
  unfold growCall
  rw [settleTracker_lineView]
  exact lineView_congr (by simp) (by simp)

@[simp] theorem closeCall_lineView (c : Call) (by_ : ClosedBy) (s : State) :
    (closeCall c by_ s).lineView = s.lineView := by
  unfold closeCall
  rw [settleTracker_lineView]
  exact lineView_congr (by simp) (by simp)

@[simp] theorem applyPull_lineView (a b c : Nat) (s : State) : (applyPull a b c s).1.lineView = s.lineView := by
  unfold applyPull
  (repeat' split) <;> simp

@[simp] theorem giveXstop_lineView (m : LevelMoment) (s : State) : (giveXstop m s).lineView = s.lineView := by
  rw [(giveXstop_spec m s).2]
  split
  · rfl
  · rw [settleTracker_lineView]
    rfl

@[simp] theorem monitorSecond_accumulator (z : ZoneState) (q : Bool) (n : Nat) :
    (z.monitorSecond q n).accumulator = z.accumulator := by
  unfold ZoneState.monitorSecond
  (repeat' split) <;> rfl

/-- A zone changed in anything but its accumulator. -/
theorem onZone_lineView (s : State) (k : Fin 6) {f : ZoneState → ZoneState}
    (hf : ∀ z, (f z).accumulator = z.accumulator) : (s.onZone k f).lineView = s.lineView := by
  have zone (j : Fin 6) : ((s.tracker.zones.upd k f).at_ j).accumulator = (s.tracker.zones.at_ j).accumulator := by
    by_cases h : j = k
    · rw [h, Tab.at_upd_self, hf]
    · rw [Tab.at_upd_ne _ _ h]
  simp only [State.lineView, onZone_fields, zone]

@[simp] theorem monitorSecond_lineView (k : Fin 6) (s : State) : (monitorSecond k s).lineView = s.lineView := by
  unfold monitorSecond
  rw [raiseIf_lineView, onZone_lineView s k (by simp)]

/-! ### Steps (R16) -/

/-- A count put into a used buffer that has the capacity for it. -/
theorem State.LineForm.onBuffer {s : State} (h : s.LineForm) {b : Fin 5} (hu : s.layout.bufferUsed b = true)
    {f : Buffer → Buffer} (hf : (f (s.tracker.buffers.at_ b)).count ≤ s.layout.capacity b) :
    (s.onBuffer b f).LineForm := by
  rw [lineForm_iff] at h ⊢
  obtain ⟨hl, hc⟩ := h
  refine ⟨hl, hc.accumulator, fun j => ?_, fun j hj => ?_⟩
  · by_cases e : j = b
    · subst e
      simpa using hf
    · simpa [e] using hc.count j
  · have e : j ≠ b := by
      rintro rfl
      exact absurd hu (by simpa using hj)
    simpa [e] using hc.unused j hj

theorem Buffer.deliver_le {b : Buffer} {capacity : Nat} (h : b.count ≤ capacity) :
    (b.deliver capacity).count ≤ capacity := by
  unfold Buffer.deliver
  split
  · assumption
  · exact h

theorem Buffer.draw_le (b : Buffer) : b.draw.count ≤ b.count := by
  unfold Buffer.draw
  split
  · exact le_rfl
  · exact Nat.sub_le _ _

theorem State.LineForm.count_le {s : State} (h : s.LineForm) (b : Fin 5) :
    (s.tracker.buffers.at_ b).count ≤ s.layout.capacity b := ((lineForm_iff s).1 h).2.count b

theorem deliverFrom_lineForm (k : Fin 6) {s : State} (h : s.LineForm) : (deliverFrom k s).LineForm := by
  unfold deliverFrom
  split
  · rename_i b _
    split
    · exact h.onBuffer ‹_› (Buffer.deliver_le (h.count_le b))
    · exact h
  · exact h

theorem drawInto_lineForm (k : Fin 6) {s : State} (h : s.LineForm) : (drawInto k s).LineForm := by
  unfold drawInto
  split
  · exact h
  · split
    · rename_i b _
      split
      · exact h.onBuffer ‹_› ((Buffer.draw_le _).trans (h.count_le b))
      · exact h
    · exact h

theorem completeCar_lineForm (k : Fin 6) {s : State} (h : s.LineForm) : (completeCar k s).LineForm := by
  have moved := drawInto_lineForm k (deliverFrom_lineForm k h)
  unfold completeCar
  dsimp only
  split
  · exact moved.congr (endOfLineCar_lineView _)
  · exact moved

/-- A step leaves the accumulator below the pitch: it falls to 0 where it would reach it (R16). -/
theorem afterStep_accumulator_lt (z : ZoneState) {r : ZoneRecord} (hr : 0 < r.pitch) (stopped : Bool) :
    (z.afterStep r stopped).accumulator < r.pitch := by
  unfold ZoneState.afterStep
  dsimp only
  split
  · exact hr
  · rename_i h
    simpa [completesCar] using h

theorem stepZone_lineForm (k : Fin 6) {s : State} (h : s.LineForm) : (stepZone k s).LineForm := by
  have stepped : (s.onZone k fun z => z.afterStep (s.layout.zones.at_ k) (s.zstop k)).LineForm := by
    obtain ⟨hl, hc⟩ := (lineForm_iff s).1 h
    refine (lineForm_iff _).2 ⟨hl, fun j => ?_, hc.count, hc.unused⟩
    have pitch : 0 < (s.layout.zones.at_ k).pitch := Nat.zero_lt_of_lt (hc.accumulator k)
    by_cases e : j = k
    · subst e
      simpa using afterStep_accumulator_lt _ pitch _
    · simpa [e] using hc.accumulator j
  have called : (stepCalls k ((s.onZone k fun z => z.afterStep (s.layout.zones.at_ k) (s.zstop k)).raiseIf
      (s.tracker.zones.at_ k).stall .stations)).LineForm :=
    stepped.congr (lineView_congr (by simp) (by simp))
  refine State.LineForm.congr ?_ (settleTracker_lineView _ _)
  split
  · exact completeCar_lineForm k called
  · exact called

theorem givePitch_lineForm (e : PitchEvent) {s : State} (h : s.LineForm) : (givePitch e.zone e.moment s).LineForm := by
  have given : (s.onPitch e.zone (PinFilter.afterPitch e.moment)).LineForm := h.congr rfl
  rw [(givePitch_spec e.zone e.moment s).2]
  split
  · exact stepZone_lineForm _ given
  · exact given

/-! ### Buffer sets and layout writes (R5 to R9, R19) -/

theorem applyBufferSet_lineForm (buffer count : Nat) {s : State} (h : s.LineForm) :
    (applyBufferSet buffer count s).1.LineForm := by
  unfold applyBufferSet
  split
  · exact h
  · split
    · exact (h.onBuffer ‹_› (f := fun _ => ⟨min count _, false, false⟩) (Nat.min_le_right _ _)).congr
        (settleTracker_lineView _ _)
    · exact h

theorem applyLayoutStation_lineForm (station : Nat) (flag : Bool) (length : Nat) {s : State} (h : s.LineForm) :
    (applyLayoutStation station flag length s).1.LineForm := by
  unfold applyLayoutStation
  split
  · exact h
  · split
    · exact h
    · rename_i st _
      dsimp only
      split
      · exact h
      · refine State.LineForm.congr ?_ (settleTracker_lineView _ _)
        obtain ⟨hl, hc⟩ := (lineForm_iff s).1 h
        refine (lineForm_iff _).2 ⟨{ hl with stations := fun j => ?_ }, hc.accumulator, hc.count, hc.unused⟩
        have length_bounds := clamp_bounds (x := length) (by decide : 4 ≤ 64)
        by_cases e : j = st
        · subst e
          simpa [raiseLayout] using length_bounds
        · simpa [raiseLayout, e] using hl.stations j

/-- The fields of a WRITE LAYOUT ZONE, clamped, lie in range (R5). -/
theorem clampedZone_inRange (used first last pitch coast stall capacity : Nat) :
    (clampedZone used first last pitch coast stall capacity).2.InRange := by
  have h := clamp_bounds (x := pitch) (by decide : 8 ≤ 255)
  refine ⟨Nat.min_le_left _ _, Nat.min_le_left _ _, h.1, h.2, Nat.min_le_left _ _, ?_, Nat.min_le_left _ _⟩
  exact Nat.le_of_lt_succ (Nat.mod_lt _ (by decide))

/-- What the contiguity tests of R6 ask. -/
theorem contiguous_iff (l : Layout) (k : Fin 6) (used : Nat) (r : ZoneRecord) :
    l.contiguous k used r = true ↔
      k.val < used ∧ k.val ≤ l.used ∧ r.first ≤ r.last ∧ (used ≤ l.used ∨ used = k.val + 1) ∧
        (k.val = 0 → r.first = 0) ∧
        (∀ j : Fin 6, j.val + 1 = k.val → r.first = (l.zones.at_ j).last + 1) ∧
        ∀ j : Fin 6, j.val = k.val + 1 → k.val + 1 < used → (l.zones.at_ j).first = r.last + 1 := by
  have lower : l.lowerMeets k r.first = true ↔ (k.val = 0 → r.first = 0) ∧
      ∀ j : Fin 6, j.val + 1 = k.val → r.first = (l.zones.at_ j).last + 1 := by
    have hk : k.val - 1 < 6 := by omega
    simp only [Layout.lowerMeets, index, hk, dif_pos]
    by_cases h : k.val = 0
    · simp [h]
    · have one (j : Fin 6) : j.val + 1 = k.val ↔ j = ⟨k.val - 1, hk⟩ := by
        rw [Fin.ext_iff]
        dsimp only
        omega
      simp [h, one]
  have upper : l.upperMeets k used r.last = true ↔
      ∀ j : Fin 6, j.val = k.val + 1 → k.val + 1 < used → (l.zones.at_ j).first = r.last + 1 := by
    unfold Layout.upperMeets index
    by_cases h : k.val + 1 < 6
    · have one (j : Fin 6) : j.val = k.val + 1 ↔ j = ⟨k.val + 1, h⟩ := by rw [Fin.ext_iff]
      simp only [h, dif_pos, one, forall_eq, Bool.or_eq_true, decide_eq_true_eq]
      rw [← Nat.not_lt, imp_iff_not_or]
    · have none (j : Fin 6) : j.val ≠ k.val + 1 := by omega
      simp [h, none]
  simp only [Layout.contiguous, Bool.and_eq_true, Bool.or_eq_true, decide_eq_true_eq, lower, upper]
  tauto

/-- A zone record and Z that pass the contiguity tests keep the layout's form (R6, R8). -/
theorem Layout.Form.withZone {l : Layout} (h : l.Form) {k : Fin 6} {used : Nat} {r : ZoneRecord} (hr : r.InRange)
    (hu : used ≤ 6) (hc : l.contiguous k used r = true) : (l.withZone k used r).Form := by
  obtain ⟨hk, hkl, hfl, hused, hzero, hlow, hup⟩ := (contiguous_iff l k used r).1 hc
  have other {j : Fin 6} (e : j ≠ k) : (l.withZone k used r).zones.at_ j = l.zones.at_ j := Tab.at_put_ne _ _ e
  have self : (l.withZone k used r).zones.at_ k = r := Tab.at_put_self _ _ _
  refine ⟨by show 1 ≤ used; omega, hu, fun j => ?_, h.stations, ?_, fun j hj => ?_, fun b hb => ?_⟩
  · by_cases e : j = k
    · rwa [e, self]
    · rw [other e]
      exact h.zones j
  · by_cases e : (0 : Fin 6) = k
    · rw [e, self]
      exact hzero (by rw [← e]; rfl)
    · rw [other e]
      exact h.first_zero
  · have hj : j.val < used := of_decide_eq_true hj
    by_cases e : j = k
    · rwa [e, self]
    · have hne : j.val ≠ k.val := fun v => e (Fin.ext v)
      rw [other e]
      exact h.first_le_last j (by simp only [Layout.zoneUsed, decide_eq_true_eq]; omega)
  · have hb : b.val + 1 < used := of_decide_eq_true hb
    have hd : (downstreamZone b).val = b.val + 1 := rfl
    have hs : (upstreamZone b).val = b.val := rfl
    by_cases e : downstreamZone b = k
    · have e' : upstreamZone b ≠ k := by rintro v; rw [Fin.ext_iff] at e v; omega
      rw [e, self, other e']
      exact hlow _ (by rw [← e, hs, hd])
    · have hne : (downstreamZone b).val ≠ k.val := fun v => e (Fin.ext v)
      rw [other e]
      by_cases e' : upstreamZone b = k
      · rw [e', self]
        have hbk : b.val = k.val := by rw [← e', hs]
        exact hup _ (by omega) (by omega)
      · have hne' : (upstreamZone b).val ≠ k.val := fun v => e' (Fin.ext v)
        rw [other e']
        exact h.follows b (by simp only [Layout.bufferUsed, decide_eq_true_eq]; omega)

/-- A zone's accumulator under a layout write lies below the pitch the write leaves (R8). -/
theorem afterWrite_accumulator_lt {z : ZoneState} {j k : Fin 6} {old new : Layout}
    (pitch : 0 < (new.zones.at_ j).pitch)
    (h : j ≠ k → z.accumulator < (new.zones.at_ j).pitch) :
    (z.afterWrite j k old new).accumulator < (new.zones.at_ j).pitch := by
  unfold ZoneState.afterWrite
  dsimp only
  by_cases e : j = k
  · subst e
    have below (a p : Nat) (hp : 0 < p) : (if p ≤ a then p - 1 else a) < p := by split <;> omega
    simpa only [if_true] using below _ _ pitch
  · simp only [e, if_false]
    split
    · exact h e
    · exact pitch

/-- A buffer's count under a layout write lies within the capacity the write leaves, at 0 where it is unused (R8). -/
theorem Buffer.afterWrite_fits {b : Buffer} {i : Fin 5} {old new : Layout}
    (h : old.bufferUsed i = false → b.count = 0) :
    (b.afterWrite i old new).count ≤ new.capacity i ∧
      (new.bufferUsed i = false → (b.afterWrite i old new).count = 0) := by
  unfold Buffer.afterWrite
  split
  · rename_i same
    split
    · rename_i used
      exact ⟨Nat.min_le_right _ _, fun unused => absurd used (by simp [unused])⟩
    · rename_i unused
      have zero := h (by rw [same]; simpa using unused)
      exact ⟨by omega, fun _ => zero⟩
  · exact ⟨Nat.zero_le _, fun _ => rfl⟩

theorem storeZone_lineForm {k : Fin 6} {used : Nat} {r : ZoneRecord} {s : State} (h : s.LineForm) (hr : r.InRange)
    (hu : used ≤ 6) (hc : s.layout.contiguous k used r = true) :
    (storeZone k (s.layout.withZone k used r) s).LineForm := by
  obtain ⟨hl, fits⟩ := (lineForm_iff s).1 h
  have form := hl.withZone hr hu hc
  refine State.LineForm.congr ?_ (settleTracker_lineView _ _)
  refine (lineForm_iff _).2 ⟨form, fun j => ?_, fun b => ?_, fun b hb => ?_⟩
  · simp only [raiseLayout, raise_fields, Tab.at_tab]
    refine afterWrite_accumulator_lt (Nat.lt_of_lt_of_le (by decide) (form.zones j).2.2.1) fun e => ?_
    simpa [Layout.withZone, e] using fits.accumulator j
  · simpa [raiseLayout] using (Buffer.afterWrite_fits (fits.unused b)).1
  · simpa [raiseLayout] using (Buffer.afterWrite_fits (fits.unused b)).2 hb

theorem applyLayoutZone_lineForm (zone used first last pitch coast stall capacity : Nat) {s : State}
    (h : s.LineForm) : (applyLayoutZone zone used first last pitch coast stall capacity s).1.LineForm := by
  unfold applyLayoutZone
  split
  · exact h
  · split
    · exact h
    · dsimp only
      split
      · exact h
      · rename_i contiguous
        split
        · exact h
        · exact storeZone_lineForm h (clampedZone_inRange _ _ _ _ _ _ _) (clamp_bounds (by decide)).2
            (by simpa using contiguous)

/-! ### The step -/

theorem reset_lineForm : State.reset.LineForm := by
  unfold State.LineForm ZoneRecord.InRange
  decide

theorem execHardReset_lineForm (input : ResetInput) {s t : State} (h : s.LineForm)
    (e : execHardReset s input = .next t) : t.LineForm := by
  rw [execHardReset_next] at e
  cases e
  dsimp only
  split
  · exact reset_lineForm.congr rfl
  · exact h

/-- What keeps the line's view in every state keeps the form. -/
theorem lineForm_of_view {f : State → State} (hf : ∀ s, (f s).lineView = s.lineView) (s : State) (h : s.LineForm) :
    (f s).LineForm := h.congr (hf s)

/-- An event of the centre keeps the line's form where its function does. -/
theorem centreEvent_lineForm {f : State → State} (hf : ∀ s, s.LineForm → (f s).LineForm) {s t : State}
    (h : s.LineForm) (e : centreEvent f s = .next t) : t.LineForm :=
  centreEvent_keeps hf (fun old => lineForm_of_view (decideAlert_lineView old)) (lineForm_of_view serve_lineView) h e

theorem takeFrame_lineForm {rule : FrameRule}
    (hr : ∀ fr apply, rule fr = some apply → ∀ s : State, s.LineForm → (apply s).1.LineForm) (s : State)
    (h : s.LineForm) : (takeFrame rule s).LineForm :=
  takeFrame_keeps (fun _ _ h => h) hr s h

theorem takeCommand_lineForm {c : PlantCommand} {rule : CommandRule}
    (hr : ∀ s : State, s.LineForm → (rule s).1.LineForm) (s : State) (h : s.LineForm) :
    (takeCommand c rule s).LineForm :=
  takeCommand_keeps (fun s l h => h.congr (setPlantLink_lineView s l)) (lineForm_of_view serve_lineView)
    (fun _ _ h => h) hr s h

theorem bufferSetRule_lineForm (fr : Frame) (apply : State → State × LineResult) (e : bufferSetRule fr = some apply)
    (s : State) (h : s.LineForm) : (apply s).1.LineForm := by
  unfold bufferSetRule at e
  split at e
  · cases e
    exact applyBufferSet_lineForm _ _ h
  · cases e

/-- A frame's rule that keeps the line's view keeps the form. -/
theorem takeFrame_lineForm_of_view {rule : FrameRule}
    (hr : ∀ fr apply, rule fr = some apply → ∀ s : State, (apply s).1.lineView = s.lineView) (s : State)
    (h : s.LineForm) : (takeFrame rule s).LineForm :=
  takeFrame_lineForm (fun fr apply e s h => h.congr (hr fr apply e s)) s h

theorem pullRule_lineView (fr : Frame) (apply : State → State × LineResult) (e : pullRule fr = some apply)
    (s : State) : (apply s).1.lineView = s.lineView := by
  unfold pullRule at e
  split at e <;> cases e
  simp

theorem releaseRule_lineView (fr : Frame) (apply : State → State × LineResult) (e : releaseRule fr = some apply)
    (s : State) : (apply s).1.lineView = s.lineView := by
  unfold releaseRule at e
  split at e <;> cases e
  unfold applyRelease
  split <;> simp

theorem leaderResetRule_lineView (fr : Frame) (apply : State → State × LineResult)
    (e : leaderResetRule fr = some apply) (s : State) : (apply s).1.lineView = s.lineView := by
  unfold leaderResetRule at e
  split at e <;> cases e
  unfold applyLeaderReset
  (repeat' split) <;> simp

theorem countAdjustRule_lineView (fr : Frame) (apply : State → State × LineResult)
    (e : countAdjustRule fr = some apply) (s : State) : (apply s).1.lineView = s.lineView := by
  unfold countAdjustRule at e
  split at e <;> cases e
  unfold applyCountAdjust
  split <;> simp

theorem shiftStartRule_lineView (fr : Frame) (apply : State → State × LineResult)
    (e : shiftStartRule fr = some apply) (s : State) : (apply s).1.lineView = s.lineView := by
  unfold shiftStartRule at e
  split at e <;> cases e
  simp [lineVerdict]

theorem applyClearCall_lineView (number responder : Nat) (s : State) :
    (applyClearCall number responder s).1.lineView = s.lineView := by
  unfold applyClearCall
  (repeat' split) <;> simp

/-- Every command but an edge of SCK keeps the line's form. -/
theorem exec_lineForm {c : Instr} {s t : State} (hc : ∀ e, c ≠ .commandByte (.edge e)) (h : s.LineForm)
    (e : exec c s = .next t) : t.LineForm := by
  cases c
  case hardReset input => exact execHardReset_lineForm input h e
  case step p => exact centreEvent_lineForm (fun _ => givePitch_lineForm p) h e
  case xstopChange m => exact centreEvent_lineForm (lineForm_of_view (giveXstop_lineView m)) h e
  case stallMonitorSecond k =>
    have second (s : State) : (if s.layout.zoneUsed k then monitorSecond k s else s).lineView = s.lineView := by
      split <;> simp
    exact centreEvent_lineForm (lineForm_of_view second) h e
  case shiftTimerSecond => exact centreEvent_lineForm (lineForm_of_view shiftSecond_lineView) h e
  case closeCompletion => exact centreEvent_lineForm (lineForm_of_view completeClose_lineView) h e
  case callSecond only =>
    have seconds (s : State) : (callSeconds only s).lineView = s.lineView := lineView_congr (by simp) (by simp)
    exact centreEvent_lineForm (lineForm_of_view seconds) h e
  case pull => exact centreEvent_lineForm (takeFrame_lineForm_of_view pullRule_lineView) h e
  case release => exact centreEvent_lineForm (takeFrame_lineForm_of_view releaseRule_lineView) h e
  case leaderReset => exact centreEvent_lineForm (takeFrame_lineForm_of_view leaderResetRule_lineView) h e
  case bufferSet => exact centreEvent_lineForm (takeFrame_lineForm bufferSetRule_lineForm) h e
  case countAdjust => exact centreEvent_lineForm (takeFrame_lineForm_of_view countAdjustRule_lineView) h e
  case lineShiftStart => exact centreEvent_lineForm (takeFrame_lineForm_of_view shiftStartRule_lineView) h e
  case commitPlan mode =>
    exact centreEvent_lineForm (takeCommand_lineForm (lineForm_of_view (applyCommit_lineView _))) h e
  case plantShiftStart number offset =>
    exact centreEvent_lineForm (takeCommand_lineForm (lineForm_of_view (applyShiftStart_lineView _ _))) h e
  case shiftClose => exact centreEvent_lineForm (takeCommand_lineForm (lineForm_of_view applyShiftClose_lineView)) h e
  case clearCall number responder =>
    exact centreEvent_lineForm (takeCommand_lineForm (lineForm_of_view (applyClearCall_lineView _ _))) h e
  case writeLayoutZone =>
    exact centreEvent_lineForm (takeCommand_lineForm fun _ => applyLayoutZone_lineForm _ _ _ _ _ _ _ _) h e
  case writeLayoutStation =>
    exact centreEvent_lineForm (takeCommand_lineForm fun _ => applyLayoutStation_lineForm _ _ _) h e
  case leaderAck =>
    have keeps := execLeaderAck_keeps e
    exact h.congr (lineView_congr (by simp only [keeps]) (by simp only [keeps]))
  case ackCall number responder =>
    have keeps := execAckCall_keeps number responder e
    exact h.congr (lineView_congr (by simp only [keeps]) (by simp only [keeps]))
  case writePolicy thresholds grace =>
    have keeps := execWritePolicy_keeps thresholds grace e
    exact h.congr (lineView_congr (by simp only [keeps]) (by simp only [keeps]))
  case commandByte input =>
    cases input with
    | byte code => exact h.congr (exec_sameLine (c := .commandByte (.byte code)) e rfl).lineView
    | edge edge => exact absurd rfl (hc edge)
  all_goals exact h.congr (exec_sameLine e rfl).lineView

/-- Settles O8: each of the events of the line keeps the layout's form and the counts within it, and the others do not
reach them. -/
theorem stepKeepsLineForm : Obligations.StepKeepsLineForm := by
  intro s t h e
  exact step_keeps_of_rows (fun _ _ h => h) (fun _ _ h => h) (fun s h => h.congr (tick_sameLine s).lineView)
    exec_lineForm h e

end Sys2Proof.Machine
end

section
/-! The Call List's form (CallsForm): the allocator, and what each event does to calls and station records. -/

namespace Sys2Proof.Machine

/-! ### The allocator (R39) -/

/-- The call number `i` places after `n`, from 9999 to 1. -/
def numberAfter (n i : Nat) : Nat := (n - 1 + i) % 9999 + 1

theorem numberAfter_bounds (n i : Nat) : 1 ≤ numberAfter n i ∧ numberAfter n i ≤ 9999 := by
  unfold numberAfter
  omega

theorem numberAfter_zero {n : Nat} (h : 1 ≤ n ∧ n ≤ 9999) : numberAfter n 0 = n := by
  unfold numberAfter
  omega

theorem nextNumber_numberAfter (n i : Nat) : nextNumber (numberAfter n i) = numberAfter n (i + 1) := by
  unfold nextNumber numberAfter Config.callNumberMax
  split <;> omega

theorem numberAfter_inj {n i j : Nat} (hi : i < 9999) (hj : j < 9999) (h : numberAfter n i = numberAfter n j) :
    i = j := by
  unfold numberAfter at h
  omega

/-- The allocator passes held numbers, and stops at the first that is free while fuel is left. -/
theorem passHeld_spec (held : List Nat) (n i fuel : Nat) :
    ∃ d ≤ fuel, passHeld held fuel (numberAfter n i) = numberAfter n (i + d) ∧
      (∀ j < d, numberAfter n (i + j) ∈ held) ∧ (d < fuel → numberAfter n (i + d) ∉ held) := by
  induction fuel generalizing i with
  | zero => exact ⟨0, le_rfl, rfl, by simp, by simp⟩
  | succ fuel ih =>
    by_cases h : numberAfter n i ∈ held
    · obtain ⟨d, hd, hpass, hheld, hfree⟩ := ih (i + 1)
      have shift (j : Nat) : i + 1 + j = i + (j + 1) := by omega
      refine ⟨d + 1, by omega, ?_, fun j hj => ?_, fun hlt => ?_⟩
      · simp [passHeld, h, nextNumber_numberAfter, hpass, shift]
      · cases j with
        | zero => exact h
        | succ j => exact shift j ▸ hheld j (by omega)
      · exact shift d ▸ hfree (by omega)
    · exact ⟨0, Nat.zero_le _, by simp [passHeld, h], by simp, fun _ => h⟩

/-- With at most 49 numbers held, the allocator moves to the first free number after the one just taken (R39). -/
theorem advanceAllocator_spec {held : List Nat} {n : Nat} (hn : 1 ≤ n ∧ n ≤ 9999) (hmem : n ∈ held)
    (hlen : held.length ≤ 49) :
    ∃ d : Fin 50, 0 < d.val ∧ advanceAllocator held n = numberAfter n d.val ∧ advanceAllocator held n ∉ held ∧
      ∀ i : Fin 50, 0 < i.val → i.val < d.val → numberAfter n i.val ∈ held := by
  obtain ⟨d, hd, hpass, hheld, hfree⟩ := passHeld_spec held n 1 49
  have next : nextNumber n = numberAfter n 1 := by
    rw [← nextNumber_numberAfter, numberAfter_zero hn]
  have allHeld : ∀ j < d + 1, numberAfter n j ∈ held := by
    intro j hj
    cases j with
    | zero => rwa [numberAfter_zero hn]
    | succ j => exact Nat.add_comm 1 j ▸ hheld j (by omega)
  have distinct : ((List.range (d + 1)).map (numberAfter n)).Nodup := by
    refine List.Nodup.map_on (fun i hi j hj e => ?_) List.nodup_range
    rw [List.mem_range] at hi hj
    exact numberAfter_inj (by omega) (by omega) e
  have few : d + 1 ≤ held.length := by
    have sub : (List.range (d + 1)).map (numberAfter n) ⊆ held := by
      intro m hm
      obtain ⟨j, hj, rfl⟩ := List.mem_map.1 hm
      exact allHeld j (List.mem_range.1 hj)
    simpa using (distinct.subperm sub).length_le
  have moved : advanceAllocator held n = numberAfter n (1 + d) := by rw [← hpass, ← next]; rfl
  refine ⟨⟨1 + d, by omega⟩, by dsimp only; omega, moved, moved ▸ hfree (by omega), fun i hpos hlt => ?_⟩
  exact allHeld i.val (by dsimp only at hlt; omega)

/-! ### What CallsForm looks at -/

/-- The part of the state that CallsForm looks at: the open calls, the allocator and the calls the stations name. -/
def State.callsView (s : State) : List Call × Nat × (Fin 48 → Option Nat) :=
  (s.callList.calls, s.callList.allocator, fun st => (s.stations.at_ st).openCall)

/-- The part of CallsForm that is about one call. -/
structure Call.Fits (c : Call) : Prop where
  number : 1 ≤ c.number ∧ c.number ≤ 9999
  level : c.level ≤ 3
  kinds : c.kinds ≠ []
  held : c.phase = .hold → c.everHeld = true

/-- CallsForm with names for its parts. -/
structure State.CallsInForm (s : State) : Prop where
  numbers : (s.callList.calls.map Call.number).Nodup
  stations : (s.callList.calls.map Call.station).Nodup
  allocator : 1 ≤ s.callList.allocator ∧ s.callList.allocator ≤ 9999
  free : s.callList.allocator ∉ s.callList.calls.map Call.number
  named : ∀ st, (s.stations.at_ st).openCall = (s.callList.atStation st).map Call.number
  fits : ∀ c ∈ s.callList.calls, c.Fits

theorem callsForm_iff (s : State) : s.CallsForm ↔ s.CallsInForm := by
  constructor
  · rintro ⟨h1, h2, h3, h4, h5, h6⟩
    refine ⟨h1, h2, h3, h4, h5, fun c hc => ?_⟩
    obtain ⟨hn, hl, hk, hh⟩ := h6 c hc
    exact ⟨hn, hl, hk, hh⟩
  · rintro ⟨h1, h2, h3, h4, h5, h6⟩
    exact ⟨h1, h2, h3, h4, h5, fun c hc => ⟨(h6 c hc).number, (h6 c hc).level, (h6 c hc).kinds, (h6 c hc).held⟩⟩

theorem State.CallsForm.congr {s t : State} (h : s.CallsForm) (e : t.callsView = s.callsView) : t.CallsForm := by
  simp only [State.callsView, Prod.mk.injEq, funext_iff] at e
  obtain ⟨hc, ha, ho⟩ := e
  simpa only [State.CallsForm, CallList.atStation, hc, ha, ho] using h

theorem callsView_congr {s t : State} (hc : t.callList = s.callList) (hs : t.stations = s.stations) :
    t.callsView = s.callsView := by
  simp only [State.callsView, hc, hs]

theorem SameLine.callsView {s t : State} (h : SameLine s t) : t.callsView = s.callsView :=
  callsView_congr h.callList h.stations

/-! ### Calls changed in place -/

/-- Calls changed one by one, each keeping its number, its station and its own part of the form. -/
theorem State.CallsForm.mapCalls {s : State} (h : s.CallsForm) {f : Call → Call}
    (number : ∀ c, (f c).number = c.number) (station : ∀ c, (f c).station = c.station)
    (fits : ∀ c : Call, c.Fits → (f c).Fits) :
    (s.onCalls fun l => { l with calls := l.calls.map f }).CallsForm := by
  rw [callsForm_iff] at h ⊢
  have numbers : (s.callList.calls.map f).map Call.number = s.callList.calls.map Call.number := by simp [number]
  have stations : (s.callList.calls.map f).map Call.station = s.callList.calls.map Call.station := by simp [station]
  refine ⟨numbers ▸ h.numbers, stations ▸ h.stations, h.allocator, numbers ▸ h.free, fun st => ?_, fun c hc => ?_⟩
  · have found := h.named st
    simp only [CallList.atStation] at found
    simp [CallList.atStation, List.find?_map, Function.comp_def, number, station, found]
  · obtain ⟨x, hx, rfl⟩ := List.mem_map.1 hc
    exact fits x (h.fits x hx)

/-- A call changed where a condition holds keeps its part of the form where the change does. -/
theorem Call.Fits.ite {c : Call} (h : c.Fits) {p : Prop} [Decidable p] {x : Call} (hx : x.Fits) :
    (if p then x else c).Fits := by
  split
  · exact hx
  · exact h

@[simp] theorem Call.stepped_number (c : Call) (k : Fin 6) : (c.stepped k).number = c.number := by
  unfold Call.stepped
  (repeat' split) <;> rfl

@[simp] theorem Call.stepped_station (c : Call) (k : Fin 6) : (c.stepped k).station = c.station := by
  unfold Call.stepped
  (repeat' split) <;> rfl

theorem Call.Fits.stepped {c : Call} (h : c.Fits) (k : Fin 6) : (c.stepped k).Fits := by
  unfold Call.stepped
  split
  · split
    · exact ⟨h.number, h.level, h.kinds, fun _ => rfl⟩
    · exact ⟨h.number, h.level, h.kinds, h.held⟩
  · exact h

@[simp] theorem Call.levelTest_number (c : Call) (p : Policy) : (c.levelTest p).number = c.number := by
  unfold Call.levelTest
  dsimp only
  split <;> rfl

@[simp] theorem Call.levelTest_station (c : Call) (p : Policy) : (c.levelTest p).station = c.station := by
  unfold Call.levelTest
  dsimp only
  split <;> rfl

theorem Call.Fits.levelTest {c : Call} (h : c.Fits) (p : Policy) : (c.levelTest p).Fits := by
  unfold Call.levelTest
  dsimp only
  split
  · rename_i due
    exact ⟨h.number, due.1, h.kinds, h.held⟩
  · exact h

@[simp] theorem Call.second_number (c : Call) (p : Policy) (x : ShiftState) : (c.second p x).number = c.number := by
  unfold Call.second
  dsimp only
  (repeat' split) <;> simp

@[simp] theorem Call.second_station (c : Call) (p : Policy) (x : ShiftState) :
    (c.second p x).station = c.station := by
  unfold Call.second
  dsimp only
  (repeat' split) <;> simp

theorem Call.Fits.second {c : Call} (h : c.Fits) (p : Policy) (x : ShiftState) : (c.second p x).Fits := by
  have timed : (if c.phase = .hold then { c with holdTime := addSecond c.holdTime } else c).Fits :=
    h.ite ⟨h.number, h.level, h.kinds, h.held⟩
  unfold Call.second
  dsimp only
  split
  · exact timed
  · refine Call.Fits.levelTest (Call.Fits.ite ?_ ?_) p
    all_goals exact ⟨timed.number, timed.level, timed.kinds, timed.held⟩

@[simp] theorem Call.grown_number (c : Call) (k : Kind) : (c.grown k).number = c.number := by
  unfold Call.grown
  split <;> rfl

@[simp] theorem Call.grown_station (c : Call) (k : Kind) : (c.grown k).station = c.station := by
  unfold Call.grown
  split <;> rfl

theorem Call.Fits.grown {c : Call} (h : c.Fits) (k : Kind) : (c.grown k).Fits := by
  unfold Call.grown
  split
  · exact ⟨h.number, h.level, by simp, fun _ => rfl⟩
  · exact ⟨h.number, h.level, by simp, h.held⟩

/-- One call of the list changed by its number. -/
theorem State.CallsForm.update {s : State} (h : s.CallsForm) (n : Nat) {f : Call → Call}
    (number : ∀ c, (f c).number = c.number) (station : ∀ c, (f c).station = c.station)
    (fits : ∀ c : Call, c.Fits → (f c).Fits) : (s.onCalls fun l => l.update n f).CallsForm := by
  refine h.mapCalls (f := fun c => if c.number = n then f c else c) (fun c => ?_) (fun c => ?_) fun c hc =>
    hc.ite (fits c hc)
  · split
    · exact number c
    · rfl
  · split
    · exact station c
    · rfl

/-! ### A call opened (R38, R39) -/

/-- Open calls have stations of their own, so there is room for a call at a station without one. -/
theorem State.CallsInForm.calls_length_lt {s : State} (h : s.CallsInForm) {st : Fin 48}
    (hst : s.callList.atStation st = none) : s.callList.calls.length < 48 := by
  have fresh : st ∉ s.callList.calls.map Call.station := by
    simpa [CallList.atStation] using hst
  simpa using (List.nodup_cons.2 ⟨fresh, h.stations⟩).length_le_card

/-- Where the allocator moves to when a call opens at a station without one (R39). -/
theorem State.CallsInForm.allocator_moves {s : State} (h : s.CallsInForm) {st : Fin 48}
    (hst : s.callList.atStation st = none) :
    let numbers := s.callList.calls.map Call.number ++ [s.callList.allocator]
    let next := advanceAllocator numbers s.callList.allocator
    ∃ d : Fin 50, 0 < d.val ∧ next = numberAfter s.callList.allocator d.val ∧ next ∉ numbers ∧
      ∀ i : Fin 50, 0 < i.val → i.val < d.val → numberAfter s.callList.allocator i.val ∈ numbers :=
  advanceAllocator_spec h.allocator (by simp) (by
    have := h.calls_length_lt hst
    simp only [List.length_append, List.length_map, List.length_singleton]
    omega)

/-- The record of a call that opens fits the form. -/
theorem newCall_fits {s : State} (h : s.CallsInForm) (st : Fin 48) (zone : Fin 6) (k : Kind) (progress : Nat) :
    (s.newCall st zone k progress).Fits := by
  refine ⟨h.allocator, Nat.zero_le _, List.cons_ne_nil _ _, fun held => ?_⟩
  by_cases safety : k = .safety
  · simp [State.newCall, safety]
  · simp [State.newCall, safety] at held

theorem openCall_callsForm {s : State} (h : s.CallsForm) {st : Fin 48} (hst : s.callList.atStation st = none)
    (zone : Fin 6) (k : Kind) (progress : Nat) : (openCall st zone k progress s).CallsForm := by
  rw [callsForm_iff] at h
  obtain ⟨d, -, moved, unheld, -⟩ := h.allocator_moves hst
  have absent : ∀ c ∈ s.callList.calls, c.station ≠ st := by simpa [CallList.atStation] using hst
  refine State.CallsForm.congr (s := { s with
      callList := { s.callList with
        calls := s.callList.calls ++ [s.newCall st zone k progress]
        allocator := advanceAllocator ((s.callList.calls ++ [s.newCall st zone k progress]).map Call.number)
          s.callList.allocator }
      stations := s.stations.upd st fun r => r.callOpened s.callList.allocator k s.timer.state.isOpen }) ?_
    (callsView_congr (by simp [openCall, State.newCall]) (by simp [openCall, State.newCall]))
  rw [callsForm_iff]
  have numbers : (s.callList.calls ++ [s.newCall st zone k progress]).map Call.number =
      s.callList.calls.map Call.number ++ [s.callList.allocator] := by simp [State.newCall]
  refine ⟨?_, ?_, ?_, ?_, fun j => ?_, fun c hc => ?_⟩
  · rw [numbers, List.nodup_append_comm, List.singleton_append, List.nodup_cons]
    exact ⟨h.free, h.numbers⟩
  · rw [List.map_append, List.nodup_append_comm]
    refine List.nodup_cons.2 ⟨?_, h.stations⟩
    simpa [State.newCall] using absent
  · dsimp only
    rw [numbers, moved]
    exact numberAfter_bounds _ _
  · dsimp only
    rw [numbers]
    exact unheld
  · have named := h.named j
    simp only [CallList.atStation] at named hst ⊢
    rw [List.find?_append]
    by_cases e : j = st
    · subst e
      simp [hst, StationRecord.callOpened, State.newCall]
    · simp [Tab.at_upd_ne _ _ e, named, State.newCall, Ne.symm e]
  · rcases List.mem_append.1 hc with old | new
    · exact h.fits c old
    · rw [List.mem_singleton.1 new]
      exact newCall_fits h st zone k progress

/-! ### A call closed (R51) -/

theorem closeCall_callsForm {s : State} (h : s.CallsForm) {c : Call} (hc : c ∈ s.callList.calls) (by_ : ClosedBy) :
    (closeCall c by_ s).CallsForm := by
  rw [callsForm_iff] at h
  refine State.CallsForm.congr (s := { s with
      callList := { s.callList with calls := s.callList.calls.filter fun x => x.number ≠ c.number }
      stations := s.stations.upd c.station fun r => { r with openCall := none } }) ?_
    (callsView_congr (by simp [closeCall]) (by simp [closeCall]))
  rw [callsForm_iff]
  have sub : (s.callList.calls.filter fun x => x.number ≠ c.number).Sublist s.callList.calls := List.filter_sublist
  have same_number {x : Call} (hx : x ∈ s.callList.calls) (e : x.number = c.number) : x = c :=
    List.inj_on_of_nodup_map h.numbers hx hc e
  have same_station {x : Call} (hx : x ∈ s.callList.calls) (e : x.station = c.station) : x = c :=
    List.inj_on_of_nodup_map h.stations hx hc e
  refine ⟨h.numbers.sublist (sub.map _), h.stations.sublist (sub.map _), h.allocator,
    fun m => h.free ((sub.map _).subset m), fun j => ?_, fun x hx => h.fits x (sub.subset hx)⟩
  have named := h.named j
  simp only [CallList.atStation] at named ⊢
  rw [List.find?_filter]
  by_cases e : j = c.station
  · subst e
    have gone : ∀ x ∈ s.callList.calls, x.number ≠ c.number → x.station ≠ c.station :=
      fun x hx other e => other (congrArg Call.number (same_station hx e))
    simpa using gone
  · rw [Tab.at_upd_ne _ _ e, named]
    congr 1
    refine List.find?_congr fun x hx => ?_
    have := same_number hx
    grind

theorem atStation_mem {l : CallList} {st : Fin 48} {c : Call} (h : l.atStation st = some c) : c ∈ l.calls :=
  List.mem_of_find?_eq_some h

theorem numbered_mem {l : CallList} {n : Nat} {c : Call} (h : l.numbered n = some c) : c ∈ l.calls :=
  List.mem_of_find?_eq_some h

theorem lineCall_mem {s : State} {station : Nat} {c : Call} (h : s.lineCall station = .ok c) :
    c ∈ s.callList.calls := by
  unfold State.lineCall at h
  split at h
  · cases h
  · split at h
    · cases h
    · rename_i found
      cases h
      exact atStation_mem found

/-! ### Events that change the calls -/

theorem grow_callsForm {s : State} (h : s.CallsForm) (c : Call) (k : Kind) : (growCall c k s).CallsForm :=
  (h.update c.number (fun x => x.grown_number k) (fun x => x.grown_station k) fun _ hx => hx.grown k).congr
    (callsView_congr (by simp [growCall]) (by simp [growCall]))

theorem acknowledge_callsForm {s : State} (h : s.CallsForm) (c : Call) (source : AckSource) (id : Nat) :
    (acknowledge c source id s).CallsForm :=
  h.update c.number
    (f := fun x => { x with ack := some ⟨source, id, s.timer.runClock⟩, grace := s.callList.policy.grace })
    (fun _ => rfl) (fun _ => rfl) fun _ hx => ⟨hx.number, hx.level, hx.kinds, hx.held⟩

theorem stepCalls_callsForm (k : Fin 6) {s : State} (h : s.CallsForm) : (stepCalls k s).CallsForm := by
  have stepped := h.mapCalls (f := fun c => c.stepped k) (fun c => c.stepped_number k) (fun c => c.stepped_station k)
    fun _ hc => hc.stepped k
  unfold stepCalls
  dsimp only
  split
  · exact stepped.congr (callsView_congr (by simp) (by simp))
  · exact stepped

theorem callSeconds_callsForm (only : Option Nat) {s : State} (h : s.CallsForm) :
    (callSeconds only s).CallsForm := by
  refine (h.mapCalls (f := fun c => if secondOf only c then c.second s.callList.policy s.timer.state else c)
    (fun c => ?_) (fun c => ?_) fun c hc => hc.ite (hc.second _ _)).congr
    (callsView_congr (by simp [callSeconds]) (by simp [callSeconds]))
  · split
    · exact Call.second_number _ _ _
    · rfl
  · split
    · exact Call.second_station _ _ _
    · rfl

theorem applyPull_callsForm (a b c : Nat) {s : State} (h : s.CallsForm) : (applyPull a b c s).1.CallsForm := by
  unfold applyPull
  split
  · exact h
  · split
    · split
      · split
        · split
          · exact h
          · exact grow_callsForm h _ _
        · rename_i free
          exact openCall_callsForm h free _ _ _
      · exact h
    · exact h

theorem applyRelease_callsForm (station : Nat) {s : State} (h : s.CallsForm) :
    (applyRelease station s).1.CallsForm := by
  unfold applyRelease
  split
  · exact h
  · rename_i found
    exact closeCall_callsForm h (lineCall_mem found) _

theorem applyLeaderReset_callsForm (station leader : Nat) {s : State} (h : s.CallsForm) :
    (applyLeaderReset station leader s).1.CallsForm := by
  unfold applyLeaderReset
  split
  · exact h
  · split
    · exact h
    · rename_i found
      exact closeCall_callsForm h (lineCall_mem found) _

theorem applyClearCall_callsForm (number responder : Nat) {s : State} (h : s.CallsForm) :
    (applyClearCall number responder s).1.CallsForm := by
  unfold applyClearCall
  split
  · exact h
  · split
    · exact h
    · rename_i found
      exact closeCall_callsForm h (numbered_mem found) _

theorem applyLeaderAck_callsForm (station leader : Nat) {s : State} (h : s.CallsForm) :
    (applyLeaderAck station leader s).1.CallsForm := by
  unfold applyLeaderAck
  split
  · exact h
  · split
    · exact h
    · split
      · exact h
      · exact acknowledge_callsForm h _ _ _

theorem applyAckCall_callsForm (number responder : Nat) {s : State} (h : s.CallsForm) :
    (applyAckCall number responder s).1.CallsForm := by
  unfold applyAckCall
  split
  · exact h
  · split
    · exact h
    · split
      · exact h
      · exact acknowledge_callsForm h _ _ _

/-! ### Events that change station records, and keep the calls they name -/

theorem handOn_callsView (old s : State) : (handOn old s).callsView = s.callsView :=
  callsView_congr (by simp) (by simp)

theorem productiveSecond_callsView (s : State) : (productiveSecond s).callsView = s.callsView := by
  have charged (st : Fin 48) (u : State) : ((chargeSecond u).stations.at_ st).openCall = (u.stations.at_ st).openCall := by
    simp only [chargeSecond, Tab.at_tab]
    split <;> rfl
  have stations : (productiveSecond s).stations =
      (chargeSecond (s.onTimer fun t => { t with wc := t.wc + 1 })).stations := by simp [productiveSecond]
  simp [State.callsView, stations, charged]

theorem advance_callsView (s : State) : (advance s).callsView = s.callsView := by
  have test (u : State) : (advanceEndTest u).callsView = u.callsView := callsView_congr (by simp) (by simp)
  have clock (u : State) : (advanceClock u).callsView = u.callsView := callsView_congr (by simp) (by simp)
  unfold advance
  split
  · simp only [handOn_callsView, test, productiveSecond_callsView, clock]
  · simp only [handOn_callsView, test, clock]

theorem shiftSecond_callsView (s : State) : (shiftSecond s).callsView = s.callsView := by
  have second (u : State) : (advanceIfOpen u).callsView = u.callsView := by
    unfold advanceIfOpen
    split
    · exact advance_callsView u
    · rfl
  have correction (c : Int) (u : State) : (setCorrection c u).callsView = u.callsView := rfl
  unfold shiftSecond
  split
  · split
    · rw [correction, second, advance_callsView]
    · split
      · exact correction _ _
      · exact advance_callsView s
  · rfl

theorem openShift_callsView (p : Plan) (number offset : Nat) (s : State) :
    (openShift p number offset s).callsView = s.callsView := by
  have stations : (openShift p number offset s).stations = .tab fun st => (s.stations.at_ st).opened := by
    simp [openShift]
  simp [State.callsView, stations, StationRecord.opened]

theorem completeClose_callsView (s : State) : (completeClose s).callsView = s.callsView := by
  have pending (u : State) : (takePending u).callsView = u.callsView := by
    unfold takePending
    split
    · rw [openShift_callsView]
      rfl
    · rfl
  unfold completeClose
  split
  · exact (handOn_callsView _ _).trans (pending _)
  · rfl

theorem applyShiftStart_callsView (number offset : Nat) (s : State) :
    (applyShiftStart number offset s).1.callsView = s.callsView := by
  have mark : (applyTimeMark number offset s).1.callsView = s.callsView := callsView_congr (by simp) (by simp)
  have close : (startClose .newShift (holdStart number offset s)).callsView = s.callsView :=
    callsView_congr (by simp) (by simp)
  unfold applyShiftStart
  split
  · rfl
  · split
    · split
      · rfl
      · exact (handOn_callsView _ _).trans (openShift_callsView _ _ _ _)
    · rfl
    all_goals
      split
      · exact mark
      · exact (handOn_callsView _ _).trans close

/-! ### The step -/

theorem reset_callsForm : State.reset.CallsForm := by
  unfold State.CallsForm
  decide

theorem execHardReset_callsForm (input : ResetInput) {s t : State} (h : s.CallsForm)
    (e : execHardReset s input = .next t) : t.CallsForm := by
  rw [execHardReset_next] at e
  cases e
  dsimp only
  split
  · exact reset_callsForm.congr rfl
  · exact h

theorem callsForm_of_view {f : State → State} (hf : ∀ s, (f s).callsView = s.callsView) (s : State)
    (h : s.CallsForm) : (f s).CallsForm := h.congr (hf s)

/-- An event of the centre keeps the calls' form where its function does. -/
theorem centreEvent_callsForm {f : State → State} (hf : ∀ s, s.CallsForm → (f s).CallsForm) {s t : State}
    (h : s.CallsForm) (e : centreEvent f s = .next t) : t.CallsForm :=
  centreEvent_keeps hf (fun old => callsForm_of_view fun s => callsView_congr (by simp) (by simp))
    (fun _ h => h) h e

theorem event_callsForm {f : State → State} (hf : ∀ s, s.CallsForm → (f s).CallsForm) {s t : State}
    (h : s.CallsForm) (e : event f s = .next t) : t.CallsForm := event_keeps hf (fun _ h => h) h e

/-- A frame taken keeps the calls' form where its rule does. -/
theorem takeFrame_callsForm {rule : FrameRule}
    (hr : ∀ fr apply, rule fr = some apply → ∀ s : State, s.CallsForm → (apply s).1.CallsForm) (s : State)
    (h : s.CallsForm) : (takeFrame rule s).CallsForm :=
  takeFrame_keeps (fun _ _ h => h) hr s h

/-- A command taken keeps the calls' form where its rule does. -/
theorem takeCommand_callsForm {c : PlantCommand} {rule : CommandRule}
    (hr : ∀ s : State, s.CallsForm → (rule s).1.CallsForm) (s : State) (h : s.CallsForm) :
    (takeCommand c rule s).CallsForm :=
  takeCommand_keeps (fun s l h => h.congr (callsView_congr (by simp) (by simp))) (fun _ h => h) (fun _ _ h => h) hr s h

theorem pullRule_callsForm (fr : Frame) (apply : State → State × LineResult) (e : pullRule fr = some apply)
    (s : State) (h : s.CallsForm) : (apply s).1.CallsForm := by
  unfold pullRule at e
  split at e <;> cases e
  exact applyPull_callsForm _ _ _ h

theorem releaseRule_callsForm (fr : Frame) (apply : State → State × LineResult) (e : releaseRule fr = some apply)
    (s : State) (h : s.CallsForm) : (apply s).1.CallsForm := by
  unfold releaseRule at e
  split at e <;> cases e
  exact applyRelease_callsForm _ h

theorem leaderAckRule_callsForm (fr : Frame) (apply : State → State × LineResult) (e : leaderAckRule fr = some apply)
    (s : State) (h : s.CallsForm) : (apply s).1.CallsForm := by
  unfold leaderAckRule at e
  split at e <;> cases e
  exact applyLeaderAck_callsForm _ _ h

theorem leaderResetRule_callsForm (fr : Frame) (apply : State → State × LineResult)
    (e : leaderResetRule fr = some apply) (s : State) (h : s.CallsForm) : (apply s).1.CallsForm := by
  unfold leaderResetRule at e
  split at e <;> cases e
  exact applyLeaderReset_callsForm _ _ h

theorem shiftStartRule_callsForm (fr : Frame) (apply : State → State × LineResult)
    (e : shiftStartRule fr = some apply) (s : State) (h : s.CallsForm) : (apply s).1.CallsForm := by
  unfold shiftStartRule at e
  split at e <;> cases e
  exact h.congr (applyShiftStart_callsView _ _ _)

theorem stepZone_callsForm (k : Fin 6) {s : State} (h : s.CallsForm) : (stepZone k s).CallsForm := by
  have called := stepCalls_callsForm k (h.congr (t := (s.onZone k fun z =>
    z.afterStep (s.layout.zones.at_ k) (s.zstop k)).raiseIf (s.tracker.zones.at_ k).stall .stations)
    (callsView_congr (by simp) (by simp)))
  unfold stepZone
  refine called.congr (callsView_congr ?_ ?_)
  all_goals
    dsimp only
    split <;> simp

theorem givePitch_callsForm (e : PitchEvent) {s : State} (h : s.CallsForm) :
    (givePitch e.zone e.moment s).CallsForm := by
  have given : (s.onPitch e.zone (PinFilter.afterPitch e.moment)).CallsForm := h
  rw [(givePitch_spec e.zone e.moment s).2]
  split
  · exact stepZone_callsForm _ given
  · exact given

/-- Every command but an edge of SCK keeps the calls' form. -/
theorem exec_callsForm {c : Instr} {s t : State} (hc : ∀ e, c ≠ .commandByte (.edge e)) (h : s.CallsForm)
    (e : exec c s = .next t) : t.CallsForm := by
  cases c
  -- calls opened, grown, closed, acknowledged, stepped and escalated
  case step p => exact centreEvent_callsForm (fun _ => givePitch_callsForm p) h e
  case callSecond only => exact centreEvent_callsForm (fun _ => callSeconds_callsForm only) h e
  case pull => exact centreEvent_callsForm (takeFrame_callsForm pullRule_callsForm) h e
  case release => exact centreEvent_callsForm (takeFrame_callsForm releaseRule_callsForm) h e
  case leaderReset => exact centreEvent_callsForm (takeFrame_callsForm leaderResetRule_callsForm) h e
  case clearCall number responder =>
    exact centreEvent_callsForm (takeCommand_callsForm fun _ => applyClearCall_callsForm _ _) h e
  case leaderAck => exact event_callsForm (takeFrame_callsForm leaderAckRule_callsForm) h e
  case ackCall number responder =>
    exact event_callsForm (takeCommand_callsForm fun _ => applyAckCall_callsForm _ _) h e
  case writePolicy thresholds grace => exact event_callsForm (takeCommand_callsForm fun _ h => h) h e
  -- station records changed in what the form does not look at
  case shiftTimerSecond => exact centreEvent_callsForm (callsForm_of_view shiftSecond_callsView) h e
  case closeCompletion => exact centreEvent_callsForm (callsForm_of_view completeClose_callsView) h e
  case lineShiftStart => exact centreEvent_callsForm (takeFrame_callsForm shiftStartRule_callsForm) h e
  case plantShiftStart number offset =>
    exact centreEvent_callsForm (takeCommand_callsForm (callsForm_of_view (applyShiftStart_callsView _ _))) h e
  -- the Tracker, the layout or the shift alone
  case xstopChange m =>
    have keeps := execXstopChange_keeps m e
    exact h.congr (callsView_congr (by simp only [keeps]) (by simp only [keeps]))
  case stallMonitorSecond k =>
    have keeps := execStallMonitorSecond_keeps k e
    exact h.congr (callsView_congr (by simp only [keeps]) (by simp only [keeps]))
  case bufferSet =>
    have keeps := execBufferSet_keeps e
    exact h.congr (callsView_congr (by simp only [keeps]) (by simp only [keeps]))
  case countAdjust =>
    have keeps := execCountAdjust_keeps e
    exact h.congr (callsView_congr (by simp only [keeps]) (by simp only [keeps]))
  case commitPlan mode =>
    have keeps := execCommitPlan_keeps mode e
    exact h.congr (callsView_congr (by simp only [keeps]) (by simp only [keeps]))
  case shiftClose =>
    have keeps := execShiftClose_keeps e
    exact h.congr (callsView_congr (by simp only [keeps]) (by simp only [keeps]))
  case writeLayoutZone a b c d f g i j =>
    have keeps := execWriteLayoutZone_keeps a b c d f g i j e
    exact h.congr (callsView_congr (by simp only [keeps]) (by simp only [keeps]))
  case writeLayoutStation a b c =>
    have keeps := execWriteLayoutStation_keeps a b c e
    exact h.congr (callsView_congr (by simp only [keeps]) (by simp only [keeps]))
  case hardReset input => exact execHardReset_callsForm input h e
  case commandByte input =>
    cases input with
    | byte code => exact h.congr (exec_sameLine (c := .commandByte (.byte code)) e rfl).callsView
    | edge edge => exact absurd rfl (hc edge)
  all_goals exact h.congr (exec_sameLine e rfl).callsView

/-- Settles O9: each event of the Call List keeps its form, and the others leave calls, allocator and the calls that
stations name as they were. -/
theorem stepKeepsCallsForm : Obligations.StepKeepsCallsForm := by
  intro s t h e
  exact step_keeps_of_rows (fun _ _ h => h) (fun _ _ h => h) (fun s h => h.congr (tick_sameLine s).callsView)
    exec_callsForm h e

end Sys2Proof.Machine
end

section
/-! The state right after reset, and what a moment of HARD_RESET sets. -/

namespace Sys2Proof.Machine

/-! ### The state right after reset (R3, R155, R156) -/

theorem reset_frameForm : State.reset.FrameForm := by
  unfold State.FrameForm Rect.InFrame Point.InFrame
  decide

theorem reset_regionsApart : State.reset.RegionsApart := by
  unfold State.RegionsApart
  decide

theorem reset_setsCurrent : State.reset.SetsCurrent := by
  unfold State.SetsCurrent
  decide

theorem reset_causesCurrent : State.reset.CausesCurrent := by
  unfold State.CausesCurrent
  decide

/-- No plan is held, no shift is open and no start is pending right after reset. -/
theorem reset_timerForm : State.reset.TimerForm := by
  have timer : State.reset.timer = .reset := rfl
  refine ⟨?_, ?_, ?_, ?_, ?_, rfl, rfl⟩ <;> simp [timer, ShiftTimer.reset]

theorem reset_historyForm : State.reset.HistoryForm := by
  have cursor : State.reset.plant.historyCursor = none := rfl
  exact ⟨Nat.zero_le _, by simp [cursor]⟩

theorem reset_countsInRange : State.reset.CountsInRange := by
  unfold State.CountsInRange TilePresence.InRange
  decide

theorem reset_queueForm : State.reset.QueueForm := by
  unfold State.QueueForm
  decide

/-- Settles O5: each invariant holds of the state right after reset, by evaluation. -/
theorem resetStateMeetsEveryInvariant : Obligations.ResetStateMeetsEveryInvariant :=
  ⟨reset_frameForm, reset_regionsApart, rfl, reset_setsCurrent, reset_causesCurrent, reset_lineForm, reset_callsForm,
    reset_timerForm, reset_queueForm, reset_historyForm, reset_countsInRange, rfl, rfl⟩

/-! ### Hard reset (R178) -/

/-- In hard reset both ports are released (R178). -/
theorem outputs_released {t : State} (h : t.inReset = true) :
    (∀ i, t.miso i = none) ∧ t.misoLevel = none ∧ t.sdaReleased = true :=
  ⟨fun i => by simp [State.miso, h], misoLevel_inReset h, sdaReleased_inReset h⟩

/-- Every stop-reason set is empty in hard reset, so no stop request is asserted (R25, R33). -/
theorem held_zstop (c : ResetConditions) (straps : Straps) (queue : List Instr) (k : Fin 6) :
    (State.held c straps queue).zstop k = false := by
  simp [State.zstop, State.held, ZoneState.cleared, ReasonSet.isEmpty, ReasonSet.empty]

/-- The zone records of the hard-reset layout (R3). -/
theorem layoutReset_zone (k : Fin 6) : Layout.reset.zones.at_ k = ⟨0, if k = 0 then 15 else 0, 32, 4, 1, true, 0⟩ := by
  revert k
  decide

/-- The entries of the hard-reset Layout Table: no pass in flight, no header row, scroll interval 4 (R156, R159). -/
theorem resetRegions_entry (i : Fin 8) :
    (resetRegions.at_ i).render = .idle ∧ (resetRegions.at_ i).headerRows = 0 ∧
      (resetRegions.at_ i).scrollInterval = 4 := by
  revert i
  decide

/-- Settles O13: where a condition is present after the moment, the next state is `State.held` with the conditions, the
straps and the queue it has, whose blocks are read off one by one; else the conditions alone change. -/
theorem hardResetSetsEveryBlock : Obligations.HardResetSetsEveryBlock := by
  intro input s c conditions present
  have after : s.conditions.after input = conditions := by cases input <;> rfl
  have next := execHardReset_next input s
  rw [after] at next
  refine ⟨fun absent => next.trans (congrArg _ (if_neg absent)), fun h =>
    ⟨.held conditions s.straps s.pending, next.trans (congrArg _ (if_pos h)), rfl, rfl, rfl, ?_⟩⟩
  obtain ⟨miso, level, sda⟩ := outputs_released ((inReset_iff (.held conditions s.straps s.pending)).2 h)
  have perEntry {α : Type} {n : Nat} {x : α} (i : Fin n) : (Tab.tab fun _ => x).at_ i = x := Tab.at_tab _ i
  refine ⟨miso, level, sda, ?_⟩
  -- the layout and the station records
  refine ⟨rfl, layoutReset_zone, fun st => Tab.at_tab _ st, fun _ => perEntry _, ?_⟩
  -- the Conveyor Tracker
  refine ⟨fun _ => perEntry _, fun _ => perEntry _, fun _ => perEntry _, rfl, held_zstop _ _ _, ?_⟩
  -- the Call List, the timers, the logs and the ports
  refine ⟨rfl, rfl, rfl, rfl, rfl, fun _ => perEntry _, rfl, rfl, rfl, rfl, fun _ => perEntry _, rfl, rfl, rfl, rfl, ?_⟩
  -- the Frame Store, the Composition Engine, the Tile Driver and the Alert Logic
  exact ⟨fun _ => rfl, rfl, rfl, rfl, rfl, rfl, rfl, resetRegions_entry, rfl, rfl, rfl, rfl, rfl,
    fun _ => perEntry _, rfl, rfl, rfl, rfl, rfl, rfl, rfl, rfl, rfl⟩

end Sys2Proof.Machine
end

section
/-! What a pass of each role captures as it starts (R160). -/

namespace Sys2Proof.Machine

/-! ### The start of a pass (R159) -/

theorem startedPass_of_capture {s : State} {r : Region} {c : Capture} (h : s.captureFor r.role = some c) :
    s.startedPass r = .busy c 0 false := by
  simp [State.startedPass, h]

theorem requested_idle {s : State} {r : Region} (h : r.render = .idle) : s.requested r = s.startedPass r := by
  simp [State.requested, h]

theorem requested_busy {s : State} {r : Region} {c : Capture} {n : Nat} {again : Bool}
    (h : r.render = .busy c n again) : s.requested r = .busy c n true := by
  simp [State.requested, h]

/-! ### The lamps (R2, R164) -/

/-- A station lies in a used zone's range (R2). -/
theorem zoneHolds_eq (l : Layout) (st : Fin 48) (k : Fin 6) :
    l.zoneHolds st k =
      decide (k.val < l.used ∧ (l.zones.at_ k).first ≤ st.val ∧ st.val ≤ (l.zones.at_ k).last) := by
  simp [Layout.zoneHolds, Layout.zoneUsed, Bool.and_assoc]

/-- A station is enabled while its flag is on and it lies in the range of a used zone (R2). -/
theorem enabled_eq (l : Layout) (st : Fin 48) :
    l.enabled st = ((l.stations.at_ st).flag && (List.finRange 6).any fun k =>
      decide (k.val < l.used ∧ (l.zones.at_ k).first ≤ st.val ∧ st.val ≤ (l.zones.at_ k).last)) := by
  have found : (l.stationZone st).isSome = (List.finRange 6).any (l.zoneHolds st) := by
    rw [Bool.eq_iff_iff]
    simp [Layout.stationZone]
  rw [Layout.enabled, found, funext (zoneHolds_eq l st)]

theorem lamp_lineDown {s : State} {st : Fin 48} (h : s.line.link.state ≠ .up) : s.lamp st = ⟨.white, false⟩ := by
  simp [State.lamp, State.lineDown, h]

theorem lamp_call {s : State} {st : Fin 48} {x : Call} (h : ¬s.line.link.state ≠ .up)
    (hx : s.callList.atStation st = some x) :
    s.lamp st = ⟨if x.phase = .hold then .red else .yellow, decide (2 ≤ x.level)⟩ := by
  simp [State.lamp, State.lineDown, h, hx]

/-- The lamp of a station without a call shows its zone: STALL, PLAN, another reason, or none. -/
theorem lamp_zone {s : State} {st : Fin 48} {k : Fin 6} (h : ¬s.line.link.state ≠ .up)
    (hx : s.callList.atStation st = none) (hk : s.layout.stationZone st = some k) :
    s.lamp st =
      if (s.tracker.zones.at_ k).stall then ⟨.magenta, true⟩
      else if (s.tracker.zones.at_ k).reasons.plan then ⟨.dimWhite, false⟩
      else if !(s.tracker.zones.at_ k).reasons.isEmpty then ⟨.blue, false⟩
      else ⟨.green, false⟩ := by
  simp [State.lamp, State.lineDown, h, hx, hk]

/-- A set without PLAN is not empty exactly where it has one of the four other reasons. -/
theorem not_isEmpty_iff {r : ReasonSet} (h : r.plan = false) :
    (!r.isEmpty) = true ↔ r.hold = true ∨ r.xstop = true ∨ r.blocked = true ∨ r.starved = true := by
  simp [ReasonSet.isEmpty, h, or_assoc]

/-! ### The call lines (R166) and the banner (R170) -/

theorem tickerLine_eq (s : State) (x : Call) :
    s.tickerLine x =
      { station := x.station.val, kinds := x.kinds, minutes := min 99 ((s.timer.runClock - x.openedAt) / 60)
        level := x.level
        colour := if s.line.link.state ≠ .up then .white else if x.phase = .hold then .red else .yellow } := by
  simp [State.tickerLine, State.lineDown, Call.elapsedMinutes]

/-- The message by the first row of R170's table whose condition holds. -/
theorem bannerMessage_eq (s : State) :
    s.bannerMessage =
      if s.tracker.xstop.taken = true then some .safetyStop
      else if s.line.link.state ≠ .up then some .lineLink
      else if s.alert.xalert.taken = true then some .stopElsewhere
      else if s.plant.link.state = .lost then some .plantLink
      else if s.timer.state = .inBreak then some .inBreak
      else if s.timer.state = .overtime then some .overtime
      else none := by
  simp only [State.bannerMessage, State.lineDown, decide_eq_true_eq]

/-- Settles O54, role by role: a capture is read off `captureFor`, and each row of the tables of R164 and R170 picks its
branch of the lamp's and the message's case split. -/
theorem passCapturesWhatItsRoleShows : Obligations.PassCapturesWhatItsRoleShows := by
  intro s down timer
  refine ⟨fun r c h => ⟨startedPass_of_capture h, ?_⟩, rfl, ?pace, ?lamps,
    fun st => ⟨lamp_lineDown, fun h x => lamp_call h, ?lamp⟩, ?ticker, rfl, ?banner⟩
  · cases hr : r.render with
    | idle => exact (requested_idle hr).trans (startedPass_of_capture h)
    | busy c' n again => exact requested_busy hr
  case pace =>
    cases active : s.timer.active <;>
      simp [State.captureFor, displayedGap, State.lineLostCars, State.lostCars, active]
  case lamps => simp only [State.captureFor, State.lamps, Layout.enabledStations, funext (enabled_eq s.layout)]
  case lamp =>
    intro up noCall k hk z other
    have lamp := lamp_zone up noCall hk
    refine ⟨fun stall => ?_, fun stall plan => ?_, fun stall plan some => ?_, fun stall plan none => ?_⟩
    · rw [lamp, if_pos stall]
    · rw [lamp, if_neg (by simpa using stall), if_pos plan]
    · rw [lamp, if_neg (by simpa using stall), if_neg (by simpa using plan), if_pos ((not_isEmpty_iff plan).2 some)]
    · rw [lamp, if_neg (by simpa using stall), if_neg (by simpa using plan),
        if_neg fun some => none ((not_isEmpty_iff plan).1 some)]
  case ticker =>
    simp only [State.captureFor, CallList.holdCount, CallList.tickerOrder, funext (tickerLine_eq s)]
    rfl
  case banner =>
    intro shows stop elsewhere lost
    have message (m : Option BannerMessage) (h : s.bannerMessage = m) : shows m := by
      subst h
      rfl
    rw [bannerMessage_eq] at message
    refine ⟨fun h => message _ (if_pos h), fun h₁ h₂ => message _ ((if_neg h₁).trans (if_pos h₂)), ?_⟩
    refine ⟨fun h₁ h₂ h₃ => message _ ((if_neg h₁).trans ((if_neg h₂).trans (if_pos h₃))),
      fun h₁ h₂ h₃ h₄ => message _ ((if_neg h₁).trans ((if_neg h₂).trans ((if_neg h₃).trans (if_pos h₄)))), ?_⟩
    have upTo {m : Option BannerMessage} (h₁ : ¬stop) (h₂ : ¬down) (h₃ : ¬elsewhere) (h₄ : ¬lost)
        (h : (if s.timer.state = .inBreak then some .inBreak
          else if s.timer.state = .overtime then some .overtime else none) = m) : shows m :=
      message m ((if_neg h₁).trans ((if_neg h₂).trans ((if_neg h₃).trans ((if_neg h₄).trans h))))
    refine ⟨fun h₁ h₂ h₃ h₄ h₅ => upTo h₁ h₂ h₃ h₄ (if_pos h₅), fun h₁ h₂ h₃ h₄ h₅ => upTo h₁ h₂ h₃ h₄ ?_,
      fun h₁ h₂ h₃ h₄ h₅ h₆ => upTo h₁ h₂ h₃ h₄ ((if_neg h₅).trans (if_neg h₆))⟩
    have running : s.timer.state = .overtime := h₅
    simp [running]

end Sys2Proof.Machine
end

section
/-! What an event of the line's centre leaves: the state it ends in, a refusal, and its frame. -/

namespace Sys2Proof.Machine

/-- Two states with the same fields are the same state. -/
@[ext] theorem State.ext {s t : State} (conditions : s.conditions = t.conditions) (straps : s.straps = t.straps)
    (pitch : s.pitch = t.pitch) (layout : s.layout = t.layout) (stations : s.stations = t.stations)
    (tracker : s.tracker = t.tracker) (callList : s.callList = t.callList) (timer : s.timer = t.timer)
    (pace : s.pace = t.pace) (loss : s.loss = t.loss) (archive : s.archive = t.archive)
    (history : s.history = t.history) (line : s.line = t.line) (plant : s.plant = t.plant) (frame : s.frame = t.frame)
    (engine : s.engine = t.engine) (tiles : s.tiles = t.tiles) (alert : s.alert = t.alert)
    (pending : s.pending = t.pending) : s = t := by
  cases s
  cases t
  simp_all

/-! ### Commands that are refused -/

/-- A command whose command byte has been taken is applied to the state as it is. -/
theorem takeCommand_arguments {c : PlantCommand} {s : State} (h : s.plant.transaction = .arguments c)
    (rule : CommandRule) :
    takeCommand c rule s = setTransaction .ignoring (setPlantResult (rule s).2 (rule s).1) := by
  simp [takeCommand, State.decoded, h]

/-- A refused command of the centre changes the result alone. -/
theorem centreEvent_refused {c : PlantCommand} {rule : CommandRule} {s : State} {r : PlantResult}
    (running : s.inReset = false) (quiet : s.Quiet) (causes : s.CausesCurrent)
    (h : s.plant.transaction = .arguments c) (refused : rule s = (s, r)) :
    centreEvent (takeCommand c rule) s = .next { s with plant := s.plant.answered r } := by
  rw [centreEvent_next _ _ running, takeCommand_arguments h, refused]
  have decided := decideAlert_self { s with plant := s.plant.answered r } causes
  exact congrArg _ ((congrArg serve decided).trans (serve_quiet _ quiet))

/-! ### Events that settle the Tracker -/

/-- Settling the Tracker reaches the engine's latch alone. -/
theorem settleTracker_engine (old s : State) :
    { (settleTracker old s).engine with requests := s.engine.requests } = s.engine := by
  unfold settleTracker requalify
  simp only [raiseIf_engine]
  unfold rederive
  split <;> rfl

/-- What an event latches that requests STATIONS and TICKER and settles the Tracker: these two roles, once each, whatever
the settling requests again (R24, R31). -/
theorem settleTracker_latched {base : State} (quiet : base.Quiet) (old : State) (r : Role) :
    (settleTracker old ((base.raise .stations).raise .ticker)).engine.requests.has r =
      decide (r ∈ [Role.stations, .ticker]) := by
  have none : base.engine.requests = .none := quiet
  unfold settleTracker
  rw [requalify_requests, rederive_requests]
  cases r <;> split <;> simp [none, has_add, Role.isEngine]

/-- The engine of such an event, its latch aside, is the one it began with. -/
theorem settleTracker_raised_engine {base : State} (quiet : base.Quiet) (old : State) :
    { (settleTracker old ((base.raise .stations).raise .ticker)).engine with requests := .none } = base.engine := by
  have none : base.engine.requests = .none := quiet
  have reached := settleTracker_engine old ((base.raise .stations).raise .ticker)
  have latch := congrArg (fun e : Engine => { e with requests := Requests.none }) reached
  refine latch.trans ?_
  show { base.engine with requests := Requests.none } = base.engine
  rw [← none]

/-- The Tracker settled, within an event that reaches neither the inputs of the sets nor the zones after it. -/
theorem settled_after {old base t : State} (hi : SameInputs (settleTracker old base) t)
    (hz : t.tracker.zones = (settleTracker old base).tracker.zones) : Settled base.tracker.zones.at_ old t :=
  (settleTracker_settled old base).congr hi hz

/-- The alert decision and the requests of an event that left the Alert Logic and the Tile Driver as they were. -/
theorem onlyEchoes_of_requestedOnly {roles : List Role} {s u : State} (alert : u.alert = s.alert)
    (tiles : u.tiles = s.tiles) (h : RequestedOnly roles s (serve (decideAlert s u))) :
    OnlyEchoes s (serve (decideAlert s u)) := by
  obtain ⟨causes, actual, -⟩ := decideAlert_echoes s u
  exact ⟨h.onlyRenders, alert ▸ causes, tiles ▸ actual, serve_intensity (decideAlert_intensity tiles)⟩

/-- An event that changed nothing of the engine but its latch, and latched these roles. -/
theorem requestedOnly_of_latched {roles : List Role} {s u : State}
    (engine : { u.engine with requests := .none } = s.engine)
    (latched : ∀ r, u.engine.requests.has r = decide (r ∈ roles)) : RequestedOnly roles s (serve (decideAlert s u)) :=
  serve_RequestedOnly roles (by rw [(decideAlert_echoes s u).2.2, engine]) (by simpa using latched)

end Sys2Proof.Machine
end

section
/-! WRITE LAYOUT ZONE and WRITE LAYOUT STATION: what judges them, and what a write that is taken leaves. -/

namespace Sys2Proof.Machine

theorem index_of_lt {n v : Nat} {i : Fin n} (h : i.val = v) : index n v = some i := by
  subst h
  simp [index]

theorem index_of_ge {n v : Nat} (h : n ≤ v) : index n v = none := by
  simp [index, Nat.not_lt.2 h]

/-- A layout write that is taken, from its rule's state `v`, in which it has changed the layout, the PITCH filters and
the Tracker alone: the sets and causes follow, STATIONS and TICKER are requested, and nothing else changes. -/
theorem layoutWrite_taken {c : PlantCommand} {rule : CommandRule} {s v : State} (running : s.inReset = false)
    (quiet : s.Quiet) (h : s.plant.transaction = .arguments c)
    (taken : rule s = (settleTracker s (raiseLayout v), .ok))
    (same : { v with layout := s.layout, pitch := s.pitch, tracker := s.tracker } = s) :
    ∃ t, centreEvent (takeCommand c rule) s = .next t ∧ t.layout = v.layout ∧ t.plant = s.plant.answered .ok ∧
      Settled v.tracker.zones.at_ s t ∧ t.tracker.buffers = v.tracker.buffers ∧ t.pitch = v.pitch ∧
      t.tracker.xstop = v.tracker.xstop ∧ t.SetsCurrent ∧ t.CausesCurrent ∧ RequestedOnly [.stations, .ticker] s t ∧
      { t with tracker := v.tracker, plant := v.plant, engine := v.engine, alert := v.alert, tiles := v.tiles } = v ∧
      OnlyEchoes s t := by
  have engine : v.engine = s.engine := by rw [← same]
  have plant : v.plant = s.plant := by rw [← same]
  have alert : v.alert = s.alert := by rw [← same]
  have tiles : v.tiles = s.tiles := by rw [← same]
  have vQuiet : v.Quiet := (congrArg Engine.requests engine).trans quiet
  have next := centreEvent_next (takeCommand c rule) s running
  rw [takeCommand_arguments h, taken] at next
  have inputs := settleTracker_inputs s (raiseLayout v)
  have after : SameInputs (settleTracker s (raiseLayout v)) (serve (decideAlert s
      (setTransaction .ignoring (setPlantResult .ok (settleTracker s (raiseLayout v)))))) := by
    constructor <;> simp
  have requested : RequestedOnly [.stations, .ticker] s (serve (decideAlert s
      (setTransaction .ignoring (setPlantResult .ok (settleTracker s (raiseLayout v)))))) :=
    requestedOnly_of_latched ((settleTracker_raised_engine vQuiet s).trans engine) (settleTracker_latched vQuiet s)
  refine ⟨_, next, by simp [raiseLayout], by simp [raiseLayout, PlantPort.answered, plant],
    settled_after (base := raiseLayout v) after (by simp), after.buffers.trans inputs.buffers, by simp [raiseLayout],
    after.xstop.trans inputs.xstop, SetsCurrent.congr (settleTracker_setsCurrent _ _) after (by simp),
    serve_causesCurrent (decideAlert_causesCurrent _ _), requested, ?_,
    onlyEchoes_of_requestedOnly (by simp [raiseLayout, alert]) (by simp [raiseLayout, tiles]) requested⟩
  apply State.ext <;> simp [raiseLayout]

/-! ### WRITE LAYOUT STATION (R9) -/

/-- What the station's own test asks. -/
theorem layoutStation_held_iff (s : State) (st : Fin 48) (flag length : Byte) :
    ((s.callList.atStation st).isSome &&
        (!flagOn flag || clamp 4 64 length.toNat ≠ (s.layout.stations.at_ st).length)) = true ↔
      s.callList.atStation st ≠ none ∧
        (flag = 0 ∨ clamp 4 64 length.toNat ≠ (s.layout.stations.at_ st).length) := by
  simp [flagOn, Option.isSome_iff_ne_none]

/-- Settles O50: each refusal is a branch of the judging, and the write taken is a change of the layout settled
(`layoutWrite_taken`). -/
theorem layoutStationWriteIsJudgedAndApplied : Obligations.LayoutStationWriteIsJudgedAndApplied := by
  intro sn fl ln s running quiet causes h refused length
  have refuse (r : PlantResult) (hr : applyLayoutStation sn.toNat (flagOn fl) ln.toNat s = (s, r)) : refused r :=
    centreEvent_refused running quiet causes h hr
  refine ⟨fun open_ => refuse _ ?_, fun closed range => refuse _ ?_, fun st closed hst => ?_⟩
  · simp [applyLayoutStation, open_]
  · simp [applyLayoutStation, closed, index_of_ge range]
  intro held
  refine ⟨fun isHeld => refuse _ ?_, fun notHeld => ?_⟩
  · simp only [applyLayoutStation, closed, index_of_lt hst]
    rw [if_neg (by simp), if_pos ((layoutStation_held_iff ..).2 isHeld)]
  · have taken : applyLayoutStation sn.toNat (flagOn fl) ln.toNat s = (settleTracker s (raiseLayout { s with
        layout := { s.layout with stations := s.layout.stations.put st ⟨flagOn fl, clamp 4 64 ln.toNat⟩ } }), .ok) := by
      simp only [applyLayoutStation, closed, index_of_lt hst]
      rw [if_neg (by simp), if_neg fun isHeld => notHeld ((layoutStation_held_iff ..).1 isHeld)]
    obtain ⟨t, next, layout, plant, settled, buffers, pitch, xstop, -, current, requested, frame, echoes⟩ :=
      layoutWrite_taken running quiet h taken rfl
    refine ⟨t, next, layout, plant, settled, buffers, xstop, current, requested, ?_, echoes⟩
    exact congrArg (fun x : State => { x with layout := s.layout }) frame

/-! ### WRITE LAYOUT ZONE (R4 to R8) -/

/-- What the open-call tests of R7 ask. -/
theorem strands_iff (s : State) (new : Layout) :
    s.strands new = true ↔ new.used ≠ s.layout.used ∧ s.callList.calls ≠ [] ∨
      ∃ c ∈ s.callList.calls, new.stationZone c.station ≠ s.layout.stationZone c.station := by
  simp [State.strands]

/-- R8's table for a zone, by whether it changes service and whether it is the one written. -/
theorem afterWrite_zone (z : ZoneState) (j k : Fin 6) (old new : Layout) (pitch : 0 < (new.zones.at_ k).pitch) :
    z.afterWrite j k old new =
      if old.zoneUsed j ≠ new.zoneUsed j then ZoneState.cleared
      else if j = k then
        { z with
          accumulator := min z.accumulator ((new.zones.at_ k).pitch - 1)
          overrun := z.overrun || decide ((new.zones.at_ k).coastAllowance < z.coast) }
      else z := by
  have held (a p : Nat) : (if p ≤ a then p - 1 else a) = min a (p - 1) := by split <;> omega
  unfold ZoneState.afterWrite
  by_cases service : old.zoneUsed j = new.zoneUsed j
  · simp only [service, ne_eq, not_true_eq_false, if_true, if_false, held]
  · have notHeld : ¬(new.zones.at_ k).pitch ≤ ZoneState.cleared.accumulator := Nat.not_le.2 pitch
    simp only [service, ne_eq, not_false_eq_true, if_true, if_false, notHeld]
    split <;> rfl

/-- R8's table for a buffer. -/
theorem afterWrite_buffer (x : Buffer) (b : Fin 5) (old new : Layout) :
    x.afterWrite b old new =
      if old.bufferUsed b ≠ new.bufferUsed b then Buffer.cleared
      else if b.val + 1 < new.used then { x with count := min x.count (new.capacity b) }
      else x := by
  have used : new.bufferUsed b = true ↔ b.val + 1 < new.used := decide_eq_true_iff
  unfold Buffer.afterWrite
  by_cases service : old.bufferUsed b = new.bufferUsed b <;>
    simp only [service, used, ne_eq, not_true_eq_false, not_false_eq_true, if_true, if_false]

/-- A pulse in qualification on the input of a zone brought out of service is dropped (R14). -/
theorem afterWrite_filter (f : PinFilter) (j : Fin 6) (old new : Layout) :
    f.afterWrite j old new =
      if new.used ≤ j.val ∧ j.val < old.used ∧ f.taken = false then ⟨false, false⟩ else f := by
  obtain ⟨taken, timing⟩ := f
  unfold PinFilter.afterWrite
  by_cases out : new.used ≤ j.val ∧ j.val < old.used
  · cases taken <;> simp [Layout.zoneUsed, out]
  · have stays : (old.zoneUsed j && !new.zoneUsed j) = false := by
      simp only [Layout.zoneUsed, Bool.and_eq_false_iff, Bool.not_eq_false', decide_eq_false_iff_not, decide_eq_true_eq]
      omega
    rw [if_neg (by simp [stays]), if_neg fun h => out ⟨h.1, h.2.1⟩]

/-- Settles O49: the judging asks R6's and R7's tests (`contiguous_iff`, `strands_iff`), and the write taken is a change
of the layout settled (`layoutWrite_taken`) with R8's table for each zone, buffer and filter. -/
theorem layoutZoneWriteIsJudgedAndApplied : Obligations.LayoutZoneWriteIsJudgedAndApplied := by
  intro zn un fs ls pt cs st cp s running quiet causes h refused
  have refuse (r : PlantResult) (hr : applyLayoutZone zn.toNat un.toNat fs.toNat ls.toNat pt.toNat cs.toNat st.toNat
      cp.toNat s = (s, r)) : refused r := centreEvent_refused running quiet causes h hr
  refine ⟨fun open_ => refuse _ ?_, fun closed range => refuse _ ?_, fun k closed hk => ?_⟩
  · simp [applyLayoutZone, open_]
  · simp [applyLayoutZone, closed, index_of_ge range]
  intro used first last pitch coast capacity layout meets strands
  let c := clampedZone un.toNat fs.toNat ls.toNat pt.toNat cs.toNat st.toNat cp.toNat
  have contiguous : s.layout.contiguous k c.1 c.2 = true ↔ meets := contiguous_iff s.layout k c.1 c.2
  have stranded : s.strands (s.layout.withZone k c.1 c.2) = true ↔ strands := strands_iff s _
  have judged : applyLayoutZone zn.toNat un.toNat fs.toNat ls.toNat pt.toNat cs.toNat st.toNat cp.toNat s =
      if !s.layout.contiguous k c.1 c.2 then (s, .invalid)
      else if s.strands (s.layout.withZone k c.1 c.2) then (s, .state)
      else (storeZone k (s.layout.withZone k c.1 c.2) s, .ok) := by
    simp only [applyLayoutZone, closed, index_of_lt hk]
    rw [if_neg (by simp)]
  refine ⟨fun apart => refuse _ ?_, fun meet strand => refuse _ ?_, fun meet clear => ?_⟩
  · rw [judged, if_pos (by simpa using fun e => apart (contiguous.1 e))]
  · rw [judged, if_neg (by simpa [contiguous] using meet), if_pos (stranded.2 strand)]
  have taken := judged.trans ((if_neg (by simpa [contiguous] using meet)).trans (if_neg fun e => clear (stranded.1 e)))
  obtain ⟨t, next, hlayout, plant, settled, buffers, filters, xstop, sets, current, requested, frame, echoes⟩ :=
    layoutWrite_taken (v := { s with
      layout := s.layout.withZone k c.1 c.2
      pitch := .tab fun j => (s.pitch.at_ j).afterWrite j s.layout (s.layout.withZone k c.1 c.2)
      tracker := { s.tracker with
        zones := .tab fun j => (s.tracker.zones.at_ j).afterWrite j k s.layout (s.layout.withZone k c.1 c.2)
        buffers := .tab fun i => (s.tracker.buffers.at_ i).afterWrite i s.layout (s.layout.withZone k c.1 c.2) } })
      running quiet h taken rfl
  refine ⟨t, next, hlayout, plant, ?_, fun b => ?_, fun j => ?_, xstop, sets, current, requested, ?_, echoes⟩
  · have written : (s.layout.withZone k c.1 c.2).zones.at_ k = c.2 := Tab.at_put_self _ _ _
    have zones := funext fun j => (Tab.at_tab (fun j => (s.tracker.zones.at_ j).afterWrite j k s.layout
      (s.layout.withZone k c.1 c.2)) j).trans (afterWrite_zone _ j k _ _ (by
        rw [written]
        exact Nat.lt_of_lt_of_le (by decide) (clamp_bounds (by decide : 8 ≤ 255)).1))
    rw [written] at zones
    exact zones ▸ settled
  · rw [buffers, Tab.at_tab]
    exact afterWrite_buffer _ b _ _
  · rw [filters, Tab.at_tab]
    exact afterWrite_filter _ j _ _
  · exact congrArg (fun x : State => { x with layout := s.layout, pitch := s.pitch, tracker := s.tracker }) frame

end Sys2Proof.Machine
end

section
/-! A PULL that opens a call: what opening one leaves, and the event whole. -/

namespace Sys2Proof.Machine

/-! ### The pieces of the event -/

theorem ofCode_code (k : Kind) : Kind.ofCode k.code = some k := by cases k <;> rfl

/-- The oldest frame taken by the rule of its type: it leaves the queue, and its result is the last line result. -/
theorem takeFrame_taken {rule : FrameRule} {s : State} {f : Frame} {rest : List Frame}
    {apply : State → State × LineResult} (hq : s.line.queue = f :: rest) (hr : rule f = some apply) :
    takeFrame rule s =
      (apply (s.onLine fun l => { l with queue := rest })).1.onLine fun l =>
        { l with lastResult := (apply (s.onLine fun l => { l with queue := rest })).2 } := by
  simp [takeFrame, hq, hr]

/-- A zone that a station belongs to is used (R2). -/
theorem stationZone_used {l : Layout} {st : Fin 48} {zone : Fin 6} (h : l.stationZone st = some zone) :
    l.zoneUsed zone = true := by
  have holds := List.find?_some h
  simp only [Layout.zoneHolds, Bool.and_eq_true] at holds
  exact holds.1.1

/-- A used zone with an open call in HOLD has HOLD in its set, and its stop request asserted (R21, R25). -/
theorem held_zone_stops {t : State} (sets : t.SetsCurrent) {zone : Fin 6} (used : t.layout.zoneUsed zone = true)
    {c : Call} (hc : c ∈ t.callList.calls) (hz : c.zone = zone) (hold : c.phase = .hold) :
    (t.tracker.zones.at_ zone).reasons.hold = true ∧ t.zstop zone = true := by
  have held : t.zoneHeld zone = true := List.any_eq_true.2 ⟨c, hc, by simp [hz, hold]⟩
  have reason : (t.tracker.zones.at_ zone).reasons.hold = true := by
    rw [sets zone]
    simp [State.derivedReasons, State.baseReasons, used, held]
  exact ⟨reason, by simp [State.zstop, ReasonSet.isEmpty, reason]⟩

/-! ### The ticker's scroll (R167) -/

/-- Fitting the scroll reaches the scroll alone. -/
theorem fitScroll_engine (s : State) :
    { (fitScroll s).engine with scrollOffset := s.engine.scrollOffset, scrollCount := s.engine.scrollCount } =
      s.engine := by
  unfold fitScroll
  split
  · rfl
  · dsimp only
    split <;> rfl

theorem fitScroll_fitted (s : State) : ScrollFitted s (fitScroll s) := by
  have calls : (fitScroll s).callList = s.callList := by simp
  unfold ScrollFitted
  rw [calls]
  cases region : s.engine.inForce .ticker with
  | none => simp [fitScroll, region]
  | some r =>
    have scrolled : fitScroll s =
        if s.callList.calls.length ≤ r.scrollLines ∨
            s.callList.calls.length - r.scrollLines < s.engine.scrollOffset then
          s.onEngine fun e => { e with scrollOffset := 0, scrollCount := 0 }
        else s := by simp [fitScroll, region]
    dsimp only
    split
    · rename_i fits
      rw [scrolled.trans (if_pos fits)]
      exact ⟨rfl, rfl⟩
    · rename_i windowed
      rw [scrolled.trans (if_neg windowed)]
      exact ⟨rfl, rfl⟩

/-- A scroll that is fitted stays so where the engine before it and the calls and the scroll after it are the same. -/
theorem ScrollFitted.congr {s s' u t : State} (h : ScrollFitted s u) (before : s'.engine = s.engine)
    (calls : t.callList.calls = u.callList.calls) (offset : t.engine.scrollOffset = u.engine.scrollOffset)
    (count : t.engine.scrollCount = u.engine.scrollCount) : ScrollFitted s' t := by
  unfold ScrollFitted at h ⊢
  rw [before, calls, offset, count]
  exact h

/-! ### A change in the number of calls, taken whole -/

/-- What follows in an event from a change `o` of the number of calls: the scroll, the two requests, and the sets with
stall qualification against `d`, where the change began (R24, R161, R167). -/
def callSettled (d o : State) : State := settleTracker d (((fitScroll o).raise .stations).raise .ticker)

theorem callSettled_rest (d o : State) : { callSettled d o with tracker := o.tracker, engine := o.engine } = o := by
  apply State.ext <;> simp [callSettled]

theorem callSettled_settled (d o : State) : Settled o.tracker.zones.at_ d (callSettled d o) := by
  have begun : (((fitScroll o).raise .stations).raise .ticker).tracker = o.tracker := by simp
  exact begun ▸ settleTracker_settled d (((fitScroll o).raise .stations).raise .ticker)

theorem callSettled_buffers (d o : State) :
    (callSettled d o).tracker.buffers = o.tracker.buffers ∧ (callSettled d o).tracker.xstop = o.tracker.xstop := by
  have inputs := settleTracker_inputs d (((fitScroll o).raise .stations).raise .ticker)
  exact ⟨inputs.buffers.trans (by simp), inputs.xstop.trans (by simp)⟩

/-- The engine of the settled change, its latch aside, is the one with the scroll fitted. -/
theorem callSettled_engine (d : State) {o : State} (quiet : o.Quiet) :
    { (callSettled d o).engine with requests := .none } = (fitScroll o).engine ∧
      ∀ r, (callSettled d o).engine.requests.has r = decide (r ∈ [Role.stations, .ticker]) := by
  have fitQuiet : (fitScroll o).Quiet := (congrArg Engine.requests (fitScroll_engine o) :).trans quiet
  exact ⟨settleTracker_raised_engine fitQuiet d, settleTracker_latched fitQuiet d⟩

/-- What the event leaves in `t` that began in `s`, where the Call List's own change gives `o`: the sets, the causes, the
scroll and the two regions follow, and nothing else but the ports changes. -/
structure CallChange (s o t : State) : Prop where
  settled : Settled o.tracker.zones.at_ s t
  buffers : t.tracker.buffers = o.tracker.buffers
  xstop : t.tracker.xstop = o.tracker.xstop
  sets : t.SetsCurrent
  causes : t.CausesCurrent
  requested : Requested [.stations, .ticker] s t
  scroll : ScrollFitted s t
  engine : { t.engine with
    regions := s.engine.regions, scrollOffset := s.engine.scrollOffset, scrollCount := s.engine.scrollCount } = s.engine
  rest : { t with
    line := o.line, plant := o.plant, tracker := o.tracker, engine := o.engine, alert := o.alert, tiles := o.tiles } = o
  alert : { t.alert with causes := s.alert.causes } = s.alert
  tiles : { t.tiles with actual := s.tiles.actual } = s.tiles
  intensity : IntensityFollows s t

/-- A change in the number of calls, settled and taken with what the ports make of it in `u`. -/
theorem callChange_of_settled {s d o u : State} (quiet : s.Quiet) (engine : o.engine = s.engine)
    (alert : o.alert = s.alert) (tiles : o.tiles = s.tiles) (began : ∀ k, d.qualifies k = s.qualifies k)
    (hu : { u with line := o.line, plant := o.plant } = callSettled d o) :
    CallChange s o (serve (decideAlert s u)) := by
  have oQuiet : o.Quiet := (congrArg Engine.requests engine).trans quiet
  have after : SameInputs (callSettled d o) (serve (decideAlert s u)) := by
    constructor <;> simp [← hu]
  have zones : (serve (decideAlert s u)).tracker.zones = (callSettled d o).tracker.zones := by simp [← hu]
  obtain ⟨fitted, latched⟩ := callSettled_engine d oQuiet
  have decided : (decideAlert s u).engine = (callSettled d o).engine := by simp [← hu]
  have scrollOnly := (fitScroll_engine o).trans engine
  have rest := callSettled_rest d o
  rw [← hu] at rest
  have alert' : u.alert = s.alert := (congrArg State.alert rest :).trans alert
  have tiles' : u.tiles = s.tiles := (congrArg State.tiles rest :).trans tiles
  obtain ⟨causes, actual, -⟩ := decideAlert_echoes s u
  rw [← decided] at fitted latched
  constructor
  case settled => exact fun k => began k ▸ (callSettled_settled d o).congr after zones k
  case buffers => exact after.buffers.trans (callSettled_buffers d o).1
  case xstop => exact after.xstop.trans (callSettled_buffers d o).2
  case sets => exact SetsCurrent.congr (settleTracker_setsCurrent d _) after zones
  case causes => exact serve_causesCurrent (decideAlert_causesCurrent s u)
  case requested =>
    have fittedRegions := congrArg Engine.regions fitted
    have scrollRegions := congrArg Engine.regions scrollOnly
    exact serve_Requested _ (fittedRegions.trans scrollRegions) latched
  case scroll =>
    have offset := congrArg Engine.scrollOffset fitted
    have count := congrArg Engine.scrollCount fitted
    have calls : u.callList = o.callList := (congrArg State.callList rest :)
    exact (fitScroll_fitted o).congr engine.symm (by simp [calls]) offset count
  case engine =>
    have aside {a b : Engine} (h : a = b) :
        { a with
          regions := s.engine.regions, scrollOffset := s.engine.scrollOffset
          scrollCount := s.engine.scrollCount } =
        { b with
          regions := s.engine.regions, scrollOffset := s.engine.scrollOffset
          scrollCount := s.engine.scrollCount } := by rw [h]
    have kept := aside scrollOnly
    exact (aside fitted).trans kept
  case rest => exact Eq.trans (by apply State.ext <;> simp [alert, alert', tiles, tiles']) rest
  case alert => exact alert' ▸ causes
  case tiles => exact tiles' ▸ actual
  case intensity => exact serve_intensity (decideAlert_intensity tiles')

/-! ### A call opened (R38 to R40) -/

/-- The state with a call on the list, at its station and counted, before what follows from it (R39). -/
def State.withOpened (s : State) (st : Fin 48) (zone : Fin 6) (k : Kind) (progress : Nat) : State :=
  let c := s.newCall st zone k progress
  { s with
    callList := { s.callList with
      calls := s.callList.calls ++ [c]
      allocator := advanceAllocator (s.callList.calls.map Call.number ++ [c.number]) c.number }
    stations := s.stations.upd st fun r => r.callOpened c.number k s.timer.state.isOpen
    loss := s.loss.callOpened s.shiftTag }

theorem openCall_eq (s : State) (st : Fin 48) (zone : Fin 6) (k : Kind) (progress : Nat) :
    openCall st zone k progress s = callSettled s (s.withOpened st zone k progress) := by
  simp only [openCall, callSettled, State.withOpened, List.map_append, List.map_cons, List.map_nil, raiseCallChange]

/-- The station's record of a call that opens (R11). -/
theorem callOpened_station (r : StationRecord) (number : Nat) (k : Kind) (counted : Bool) :
    r.callOpened number k counted =
      { r with
        openCall := some number, lastKind := some k
        callsShift := if counted = true ∧ r.callsShift < 255 then r.callsShift + 1 else r.callsShift } := by
  unfold StationRecord.callOpened satSucc Config.callsShiftMax
  cases counted <;> simp

/-- The tally of calls opened in the shift (R103). -/
theorem callOpened_loss (l : Loss) (tag : Nat) :
    l.callOpened tag = { l with opened := if tag ≠ 0 ∧ l.opened < 65535 then l.opened + 1 else l.opened } := by
  unfold Loss.callOpened satSucc Config.secondsMax
  by_cases h : tag = 0 <;> simp [h]

/-- A PULL taken at an enabled station without a call is the opening of one. -/
theorem takeFrame_pull {a b c : Byte} {st : Fin 48} {zone : Fin 6} {k : Kind} {rest : List Frame} {s : State}
    (hq : s.line.queue = .pull a b c :: rest) (ha : a.toNat = st.val) (enabled : s.layout.enabled st = true)
    (hz : s.layout.stationZone st = some zone) (hb : b.toNat = k.code) (free : s.callList.atStation st = none) :
    takeFrame pullRule s =
      (openCall st zone k c.toNat (s.onLine fun l => { l with queue := rest })).onLine fun l =>
        { l with lastResult := .ok } := by
  have pull : applyPull a.toNat b.toNat c.toNat (s.onLine fun l => { l with queue := rest }) =
      (openCall st zone k c.toNat (s.onLine fun l => { l with queue := rest }), .ok) := by
    simp [applyPull, index_of_lt ha.symm, hb, ofCode_code, enabled, hz, free]
  rw [takeFrame_taken hq rfl, pull]

/-- Such a PULL is a change of the call list by the call it opens, with its frame answered on the line. -/
theorem pull_callChange {a b c : Byte} {st : Fin 48} {zone : Fin 6} {k : Kind} {rest : List Frame} {s : State}
    (running : s.inReset = false) (quiet : s.Quiet)
    (hq : s.line.queue = .pull a b c :: rest) (ha : a.toNat = st.val) (enabled : s.layout.enabled st = true)
    (hz : s.layout.stationZone st = some zone) (hb : b.toNat = k.code) (free : s.callList.atStation st = none) :
    ∃ t, exec .pull s = .next t ∧
      CallChange s ((s.onLine fun l => { l with queue := rest }).withOpened st zone k c.toNat) t ∧
      t.line = s.line.answered rest .ok ∧ t.plant = s.plant := by
  have next := centreEvent_next (takeFrame pullRule) s running
  rw [takeFrame_pull hq ha enabled hz hb free, openCall_eq] at next
  refine ⟨_, next, callChange_of_settled (d := s.onLine fun l => { l with queue := rest }) quiet rfl rfl rfl
    (fun _ => rfl) ?_, ?_, ?_⟩
  · apply State.ext <;> simp [callSettled]
  · simp [callSettled, State.withOpened, LinePort.answered]
  · simp [callSettled, State.withOpened]

/-- Settles O33: the call opened is the change of the Call List (`pull_callChange`), and what follows from any such
change (`CallChange`) gives the sets, the causes and the regions; the allocator's move is that of a list in form. -/
theorem pullOpensCall : Obligations.PullOpensCall := by
  intro a b c st zone k rest s running quiet form hq ha enabled hz hb free tag len numbers after
  obtain ⟨t, next, change, line, plant⟩ := pull_callChange running quiet hq ha enabled hz hb free
  have callList := congrArg State.callList change.rest
  have stations := congrArg State.stations change.rest
  have loss := congrArg State.loss change.rest
  have layout := congrArg State.layout change.rest
  dsimp only at callList stations loss layout
  refine ⟨t, next, ?calls, ?allocator, ?policy, ?stations, ?loss, ?safety, change.settled, change.buffers,
    change.xstop, change.causes, change.requested, change.scroll, change.engine, line, ?frame, change.alert,
    change.tiles, change.intensity⟩
  case calls => rw [callList]; rfl
  case allocator =>
    rw [callList]
    exact ((callsForm_iff s).1 form).allocator_moves free
  case policy => rw [callList]; rfl
  case stations => exact stations.trans (congrArg (s.stations.put st) (callOpened_station ..))
  case loss => exact loss.trans (callOpened_loss _ _)
  case safety =>
    rintro rfl
    have used : t.layout.zoneUsed zone = true := layout ▸ stationZone_used hz
    exact held_zone_stops change.sets used (c := s.newCall st zone .safety c.toNat)
      (by rw [callList]; exact List.mem_append_right _ (List.mem_singleton.2 rfl)) rfl rfl
  case frame =>
    have aside {a b : State} (h : a = b) :
        { a with
          callList := s.callList, stations := s.stations, loss := s.loss, tracker := s.tracker, line := s.line
          engine := s.engine, alert := s.alert, tiles := s.tiles, plant := t.plant } =
        { b with
          callList := s.callList, stations := s.stations, loss := s.loss, tracker := s.tracker, line := s.line
          engine := s.engine, alert := s.alert, tiles := s.tiles, plant := t.plant } := by rw [h]
    exact (aside change.rest).trans (by rw [plant]; rfl)

end Sys2Proof.Machine
end

section
/-! The stop-reason sets, ZSTOP, stall qualification, the causes and ALERT as R21 to R29 and R176 word them. -/

namespace Sys2Proof.Machine

/-! ### The three passes (R21, R22) -/

theorem zoneUsed_iff (l : Layout) (k : Fin 6) : l.zoneUsed k = true ↔ k.val < l.used := decide_eq_true_iff

theorem bufferFull_iff (s : State) (b : Fin 5) :
    s.bufferFull b = true ↔ b.val + 1 < s.layout.used ∧ s.layout.capacity b ≤ (s.tracker.buffers.at_ b).count := by
  simp [State.bufferFull, Layout.bufferUsed]

theorem bufferEmpty_iff (s : State) (b : Fin 5) :
    s.bufferEmpty b = true ↔ b.val + 1 < s.layout.used ∧ (s.tracker.buffers.at_ b).count = 0 := by
  simp [State.bufferEmpty, Layout.bufferUsed]

/-- A derived set's base reasons (R21). -/
theorem derived_base_iff (s : State) (k : Fin 6) :
    ((s.derivedReasons k).hold = true ↔
      k.val < s.layout.used ∧ ∃ c ∈ s.callList.calls, c.zone = k ∧ c.phase = .hold) ∧
    ((s.derivedReasons k).plan = true ↔ k.val < s.layout.used ∧ s.timer.state = .inBreak) ∧
    ((s.derivedReasons k).xstop = true ↔ k.val < s.layout.used ∧ s.tracker.xstop.taken = true) := by
  by_cases used : k.val < s.layout.used <;>
    simp [State.derivedReasons, State.baseReasons, Layout.zoneUsed, used, State.zoneHeld, ReasonSet.empty]

theorem hasBase_iff (r : ReasonSet) :
    r.hasBase = true ↔ r.hold = true ∨ r.plan = true ∨ r.xstop = true := by
  simp [ReasonSet.hasBase, or_assoc]

/-- BLOCKED of the zone behind a buffer, from the buffer and the zone ahead of it (R22). -/
theorem derived_blocked (s : State) (b : Fin 5) :
    (s.derivedReasons b.castSucc).blocked =
      (s.bufferFull b && ((s.derivedReasons b.succ).hasBase || (s.derivedReasons b.succ).blocked)) := by
  obtain ⟨n, hn⟩ : ∃ n, b.val + n = 4 := ⟨4 - b.val, by omega⟩
  have behind : 5 - b.castSucc.val = n + 1 := by simp only [Fin.val_castSucc]; omega
  have ahead : 5 - b.succ.val = n := by simp only [Fin.val_succ]; omega
  have buffer : index 5 (4 - n) = some b := index_of_lt (by omega)
  have zone : index 6 (5 - n) = some b.succ := index_of_lt (by simp only [Fin.val_succ]; omega)
  simp only [State.derivedReasons, behind, ahead, State.blockedPass, State.fullAt, buffer, State.baseAt, zone,
    ReasonSet.hasBase]

/-- STARVED of the zone ahead of a buffer, from the buffer and the zone behind it (R22). -/
theorem derived_starved (s : State) (b : Fin 5) :
    (s.derivedReasons b.succ).starved =
      (s.bufferEmpty b && ((s.derivedReasons b.castSucc).hasBase || (s.derivedReasons b.castSucc).starved)) := by
  have buffer : index 5 b.val = some b := index_of_lt rfl
  have zone : index 6 b.val = some b.castSucc := index_of_lt rfl
  simp only [State.derivedReasons, Fin.val_succ, Fin.val_castSucc, State.starvedPass, State.emptyAt, buffer,
    State.baseAt, zone, ReasonSet.hasBase]

theorem last_ne_castSucc (b : Fin 5) : (5 : Fin 6) ≠ b.castSucc := (Fin.castSucc_lt_last b).ne'

/-- A zone with a zone ahead of it is the one behind their buffer. -/
theorem exists_ahead {k : Fin 6} {p : Fin 5 → Fin 6 → Prop} :
    (∃ b j, b.val = k.val ∧ j.val = k.val + 1 ∧ p b j) ↔ ∃ b : Fin 5, k = b.castSucc ∧ p b b.succ := by
  constructor
  · rintro ⟨b, j, hb, hj, h⟩
    obtain rfl : k = b.castSucc := Fin.ext hb.symm
    obtain rfl : j = b.succ := Fin.ext hj
    exact ⟨b, rfl, h⟩
  · rintro ⟨b, rfl, h⟩
    exact ⟨b, b.succ, rfl, rfl, h⟩

/-- A zone with a zone behind it is the one ahead of their buffer. -/
theorem exists_behind {k : Fin 6} {p : Fin 5 → Fin 6 → Prop} :
    (∃ b j, b.val = j.val ∧ k.val = j.val + 1 ∧ p b j) ↔ ∃ b : Fin 5, k = b.succ ∧ p b b.castSucc := by
  constructor
  · rintro ⟨b, j, hb, hk, h⟩
    obtain rfl : j = b.castSucc := Fin.ext hb.symm
    obtain rfl : k = b.succ := Fin.ext hk
    exact ⟨b, rfl, h⟩
  · rintro ⟨b, rfl, h⟩
    exact ⟨b, b.castSucc, rfl, rfl, h⟩

/-- R21's and R22's conditions on sets `r` of the six zones, buffer by buffer. -/
structure State.Meets (s : State) (r : Fin 6 → ReasonSet) : Prop where
  hold : ∀ k, (r k).hold = true ↔ k.val < s.layout.used ∧ ∃ c ∈ s.callList.calls, c.zone = k ∧ c.phase = .hold
  plan : ∀ k, (r k).plan = true ↔ k.val < s.layout.used ∧ s.timer.state = .inBreak
  xstop : ∀ k, (r k).xstop = true ↔ k.val < s.layout.used ∧ s.tracker.xstop.taken = true
  last : (r 5).blocked = false
  blocked : ∀ b : Fin 5,
    (r b.castSucc).blocked = (s.bufferFull b && ((r b.succ).hasBase || (r b.succ).blocked))
  first : (r 0).starved = false
  starved : ∀ b : Fin 5,
    (r b.succ).starved = (s.bufferEmpty b && ((r b.castSucc).hasBase || (r b.castSucc).starved))

theorem derived_meets (s : State) : s.Meets s.derivedReasons where
  hold k := (derived_base_iff s k).1
  plan k := (derived_base_iff s k).2.1
  xstop k := (derived_base_iff s k).2.2
  last := rfl
  blocked := derived_blocked s
  first := rfl
  starved := derived_starved s

/-- At most one family of sets meets them: BLOCKED is decided from the last zone down, STARVED from the first up. -/
theorem State.Meets.unique {s : State} {r q : Fin 6 → ReasonSet} (hr : s.Meets r) (hq : s.Meets q) : r = q := by
  have hold (k : Fin 6) : (r k).hold = (q k).hold := Bool.eq_iff_iff.2 ((hr.hold k).trans (hq.hold k).symm)
  have plan (k : Fin 6) : (r k).plan = (q k).plan := Bool.eq_iff_iff.2 ((hr.plan k).trans (hq.plan k).symm)
  have xstop (k : Fin 6) : (r k).xstop = (q k).xstop := Bool.eq_iff_iff.2 ((hr.xstop k).trans (hq.xstop k).symm)
  have base (k : Fin 6) : (r k).hasBase = (q k).hasBase := by simp only [ReasonSet.hasBase, hold, plan, xstop]
  have blocked (k : Fin 6) : (r k).blocked = (q k).blocked := by
    induction k using Fin.reverseInduction with
    | last => exact hr.last.trans hq.last.symm
    | cast b ih => rw [hr.blocked, hq.blocked, base, ih]
  have starved (k : Fin 6) : (r k).starved = (q k).starved := by
    induction k using Fin.induction with
    | zero => rw [hr.first, hq.first]
    | succ b ih => rw [hr.starved, hq.starved, base, ih]
  funext k
  exact (ReasonSet.mk.injEq ..).mpr ⟨hold k, plan k, xstop k, blocked k, starved k⟩

/-- The sets are current exactly where they meet the conditions. -/
theorem setsCurrent_iff_meets (s : State) : s.SetsCurrent ↔ s.Meets fun k => (s.tracker.zones.at_ k).reasons := by
  constructor
  · intro current
    rw [funext current]
    exact derived_meets s
  · intro meets k
    exact congrFun (meets.unique (derived_meets s)) k

/-- The conditions on the sets, zone by zone. -/
theorem meets_iff (s : State) (r : Fin 6 → ReasonSet) :
    s.Meets r ↔ ∀ k : Fin 6,
      ((r k).hold = true ↔ k.val < s.layout.used ∧ ∃ c ∈ s.callList.calls, c.zone = k ∧ c.phase = .hold) ∧
      ((r k).plan = true ↔ k.val < s.layout.used ∧ s.timer.state = .inBreak) ∧
      ((r k).xstop = true ↔ k.val < s.layout.used ∧ s.tracker.xstop.taken = true) ∧
      ((r k).blocked = true ↔ ∃ (b : Fin 5) (j : Fin 6), b.val = k.val ∧ j.val = k.val + 1 ∧ j.val < s.layout.used ∧
        (s.layout.zones.at_ k).capacity ≤ (s.tracker.buffers.at_ b).count ∧
        (((r j).hold = true ∨ (r j).plan = true ∨ (r j).xstop = true) ∨ (r j).blocked = true)) ∧
      ((r k).starved = true ↔ ∃ (b : Fin 5) (j : Fin 6), b.val = j.val ∧ k.val = j.val + 1 ∧ k.val < s.layout.used ∧
        (s.tracker.buffers.at_ b).count = 0 ∧
        (((r j).hold = true ∨ (r j).plan = true ∨ (r j).xstop = true) ∨ (r j).starved = true)) := by
  simp only [exists_ahead, exists_behind]
  constructor
  · intro meets k
    refine ⟨meets.hold k, meets.plan k, meets.xstop k, ?_, ?_⟩
    · induction k using Fin.lastCases with
      | last => simp [meets.last, last_ne_castSucc]
      | cast b =>
        simp [meets.blocked, Fin.castSucc_inj, hasBase_iff, bufferFull_iff, Layout.capacity, upstreamZone, and_assoc]
    · induction k using Fin.cases with
      | zero => simp [meets.first, (Fin.succ_ne_zero _).symm]
      | succ b => simp [meets.starved, Fin.succ_inj, hasBase_iff, bufferEmpty_iff, and_assoc]
  · intro h
    refine ⟨fun k => (h k).1, fun k => (h k).2.1, fun k => (h k).2.2.1, ?_, fun b => ?_, ?_, fun b => ?_⟩
    · obtain ⟨-, -, -, blocked, -⟩ := h 5
      simpa [last_ne_castSucc] using blocked
    · obtain ⟨-, -, -, blocked, -⟩ := h b.castSucc
      rw [Bool.eq_iff_iff, blocked]
      simp [Fin.castSucc_inj, hasBase_iff, bufferFull_iff, Layout.capacity, upstreamZone, and_assoc]
    · obtain ⟨-, -, -, -, starved⟩ := h 0
      simpa [(Fin.succ_ne_zero _).symm] using starved
    · obtain ⟨-, -, -, -, starved⟩ := h b.succ
      rw [Bool.eq_iff_iff, starved]
      simp [Fin.succ_inj, hasBase_iff, bufferEmpty_iff, and_assoc]

/-! ### ZSTOP, stall qualification and the causes (R25, R29, R176) -/

theorem zstop_iff (s : State) (k : Fin 6) :
    s.zstop k = true ↔
      ((s.tracker.zones.at_ k).reasons.hold = true ∨ (s.tracker.zones.at_ k).reasons.plan = true ∨
        (s.tracker.zones.at_ k).reasons.xstop = true) ∨
      (s.tracker.zones.at_ k).reasons.blocked = true ∨ (s.tracker.zones.at_ k).reasons.starved = true := by
  simp [State.zstop, ReasonSet.isEmpty, or_assoc]

theorem isProductive_iff (x : ShiftState) : x.isProductive = true ↔ x = .production ∨ x = .overtime := by
  cases x <;> simp [ShiftState.isProductive]

theorem qualifies_iff (s : State) (k : Fin 6) :
    s.qualifies k = true ↔ k.val < s.layout.used ∧ (s.layout.zones.at_ k).stallCheck = true ∧ ¬s.zstop k = true ∧
      (s.timer.state = .production ∨ s.timer.state = .overtime) := by
  simp [State.qualifies, zoneUsed_iff, isProductive_iff, and_assoc]

theorem causesCurrent_iff (s : State) :
    s.CausesCurrent ↔
      (s.alert.causes.level3 = true ↔ ∃ c ∈ s.callList.calls, 3 ≤ c.level) ∧
      (s.alert.causes.overrun = true ↔ ∃ k : Fin 6, k.val < s.layout.used ∧ (s.tracker.zones.at_ k).overrun = true) ∧
      (s.alert.causes.stall = true ↔ ∃ k : Fin 6, k.val < s.layout.used ∧ (s.tracker.zones.at_ k).stall = true) := by
  unfold State.CausesCurrent State.presentCauses
  obtain ⟨level3, overrun, stall⟩ := s.alert.causes
  rw [Causes.mk.injEq, Bool.eq_iff_iff (a := level3), Bool.eq_iff_iff (a := overrun), Bool.eq_iff_iff (a := stall)]
  simp [zoneUsed_iff]

theorem asserted_iff (a : AlertLogic) :
    a.asserted = true ↔
      a.causes.level3 = true ∧ a.mask.level3 = true ∨ a.causes.overrun = true ∧ a.mask.overrun = true ∨
        a.causes.stall = true ∧ a.mask.stall = true := by
  simp [AlertLogic.asserted, or_assoc]

end Sys2Proof.Machine
end

section
/-! What settling the Tracker does to each zone, and what every event keeps of it (R24, R29). -/

namespace Sys2Proof.Machine

/-! ### States with the same sets -/

/-- Two states agree on the inputs of the sets and on every zone. -/
structure SameSets (s t : State) : Prop where
  inputs : SameInputs s t
  zones : t.tracker.zones = s.tracker.zones

theorem SameSets.of_fields {s t : State} (layout : t.layout = s.layout) (tracker : t.tracker = s.tracker)
    (callList : t.callList = s.callList) (state : t.timer.state = s.timer.state) : SameSets s t :=
  ⟨⟨layout, by rw [callList], state, by rw [tracker], by rw [tracker]⟩, by rw [tracker]⟩

theorem SameSets.refl (s : State) : SameSets s s := .of_fields rfl rfl rfl rfl

theorem SameSets.trans {s t u : State} (h : SameSets s t) (g : SameSets t u) : SameSets s u :=
  ⟨h.inputs.trans g.inputs, g.zones.trans h.zones⟩

theorem SameSets.zstop {s t : State} (h : SameSets s t) (k : Fin 6) : t.zstop k = s.zstop k := by
  simp only [State.zstop, h.zones]

theorem SameSets.qualifies {s t : State} (h : SameSets s t) (k : Fin 6) : t.qualifies k = s.qualifies k :=
  qualifies_congr k h.inputs.layout (by rw [h.zones]) h.inputs.state

theorem SameSets.setsCurrent {s t : State} (h : SameSets s t) (current : s.SetsCurrent) : t.SetsCurrent :=
  SetsCurrent.congr current h.inputs h.zones

theorem serve_sameSets (s : State) : SameSets s (serve s) := .of_fields (by simp) (by simp) (by simp) (by simp)

theorem decideAlert_sameSets (old s : State) : SameSets s (decideAlert old s) :=
  .of_fields (by simp) (by simp) (by simp) (by simp)

theorem onLine_sameSets (s : State) (f : LinePort → LinePort) : SameSets s (s.onLine f) := .of_fields rfl rfl rfl rfl

theorem onPlant_sameSets (s : State) (f : PlantPort → PlantPort) : SameSets s (s.onPlant f) := .of_fields rfl rfl rfl rfl

theorem setPlantLink_sameSets (s : State) (l : Link) : SameSets s (setPlantLink l s) :=
  .of_fields (by simp) (by simp) (by simp) (by simp)

/-! ### What settling does to one zone (R24, R29) -/

theorem withReasons_withdrawn {z : ZoneState} {r : ReasonSet} (hr : r.isEmpty = true)
    (hz : z.reasons.isEmpty = false ∨ z.coast = 0 ∧ z.overrun = false) :
    (z.withReasons r).coast = 0 ∧ (z.withReasons r).overrun = false := by
  unfold ZoneState.withReasons
  split
  · exact ⟨rfl, rfl⟩
  · rename_i kept
    exact hz.resolve_left (by simpa [hr] using kept)

@[simp] theorem withReasons_stallFields (z : ZoneState) (r : ReasonSet) :
    (z.withReasons r).stall = z.stall ∧ (z.withReasons r).miss = z.miss ∧ (z.withReasons r).stepped = z.stepped := by
  unfold ZoneState.withReasons
  split <;> exact ⟨rfl, rfl, rfl⟩

@[simp] theorem requalified_coastFields (z : ZoneState) (before now : Bool) :
    (z.requalified before now).coast = z.coast ∧ (z.requalified before now).overrun = z.overrun := by
  unfold ZoneState.requalified
  split <;> exact ⟨rfl, rfl⟩

/-- A zone whose stop request is not asserted, after settling: coast and OVERRUN stay clear, or its withdrawal clears
them (R24). -/
theorem Settled.withdrawn {base : Fin 6 → ZoneState} {s t : State} (h : Settled base s t) {k : Fin 6}
    (clear : t.zstop k = false) (hb : (base k).reasons.isEmpty = false ∨ (base k).coast = 0 ∧ (base k).overrun = false) :
    (t.tracker.zones.at_ k).coast = 0 ∧ (t.tracker.zones.at_ k).overrun = false := by
  rw [State.zstop, h k] at clear
  rw [h k]
  simpa using withReasons_withdrawn (by simpa using clear) hb

/-- A zone that does not qualify, after settling: STALL and the miss count stay clear, or its stop clears them (R29). -/
theorem Settled.stops {base : Fin 6 → ZoneState} {s t : State} (h : Settled base s t) {k : Fin 6}
    (after : t.qualifies k = false) (hb : s.qualifies k = true ∨ (base k).stall = false ∧ (base k).miss = 0) :
    (t.tracker.zones.at_ k).stall = false ∧ (t.tracker.zones.at_ k).miss = 0 := by
  rw [h k, after]
  cases before : s.qualifies k with
  | true => exact ⟨rfl, rfl⟩
  | false => simpa [before, ZoneState.requalified] using hb

/-- A zone that qualifies, after settling: its misses stay 0 and its stepped mark set, or its start makes them so (R29). -/
theorem Settled.starts {base : Fin 6 → ZoneState} {s t : State} (h : Settled base s t) {k : Fin 6}
    (after : t.qualifies k = true) (hb : s.qualifies k = false ∨ (base k).miss = 0 ∧ (base k).stepped = true) :
    (t.tracker.zones.at_ k).miss = 0 ∧ (t.tracker.zones.at_ k).stepped = true := by
  rw [h k, after]
  cases before : s.qualifies k with
  | false => exact ⟨rfl, rfl⟩
  | true => simpa [before, ZoneState.requalified] using hb

/-! ### What every event does (R24, R29) -/

/-- An event leaves the sets derived, and each zone's withdrawn request, stop and start as R24 and R29 word them. -/
structure Follows (s t : State) : Prop where
  sets : s.SetsCurrent → t.SetsCurrent
  withdrawn : ∀ k, s.zstop k = true → t.zstop k = false →
    (t.tracker.zones.at_ k).coast = 0 ∧ (t.tracker.zones.at_ k).overrun = false
  stops : ∀ k, s.qualifies k = true → t.qualifies k = false →
    (t.tracker.zones.at_ k).stall = false ∧ (t.tracker.zones.at_ k).miss = 0
  starts : ∀ k, s.qualifies k = false → t.qualifies k = true →
    (t.tracker.zones.at_ k).miss = 0 ∧ (t.tracker.zones.at_ k).stepped = true

/-- The same of events that can come one after another within one command: what a withdrawal, a stop or a start makes of
a zone stays so, so that the relation is transitive. -/
structure Carries (s t : State) : Prop where
  sets : s.SetsCurrent → t.SetsCurrent
  withdrawn : ∀ k, t.zstop k = false →
    (s.zstop k = true ∨ (s.tracker.zones.at_ k).coast = 0 ∧ (s.tracker.zones.at_ k).overrun = false) →
    (t.tracker.zones.at_ k).coast = 0 ∧ (t.tracker.zones.at_ k).overrun = false
  stops : ∀ k, t.qualifies k = false →
    (s.qualifies k = true ∨ (s.tracker.zones.at_ k).stall = false ∧ (s.tracker.zones.at_ k).miss = 0) →
    (t.tracker.zones.at_ k).stall = false ∧ (t.tracker.zones.at_ k).miss = 0
  starts : ∀ k, t.qualifies k = true →
    (s.qualifies k = false ∨ (s.tracker.zones.at_ k).miss = 0 ∧ (s.tracker.zones.at_ k).stepped = true) →
    (t.tracker.zones.at_ k).miss = 0 ∧ (t.tracker.zones.at_ k).stepped = true

theorem Carries.follows {s t : State} (h : Carries s t) : Follows s t where
  sets := h.sets
  withdrawn k before after := h.withdrawn k after (.inl before)
  stops k before after := h.stops k after (.inl before)
  starts k before after := h.starts k after (.inl before)

theorem Carries.trans {s t u : State} (h : Carries s t) (g : Carries t u) : Carries s u where
  sets := g.sets ∘ h.sets
  withdrawn k after before := g.withdrawn k after (by
    cases between : t.zstop k with
    | true => exact .inl rfl
    | false => exact .inr (h.withdrawn k between before))
  stops k after before := g.stops k after (by
    cases between : t.qualifies k with
    | true => exact .inl rfl
    | false => exact .inr (h.stops k between before))
  starts k after before := g.starts k after (by
    cases between : t.qualifies k with
    | false => exact .inl rfl
    | true => exact .inr (h.starts k between before))

/-- Zones as they were, with the sets they should have and their qualification as they were. -/
theorem carries_of_zones {s t : State} (zones : t.tracker.zones = s.tracker.zones)
    (derived : ∀ k, t.derivedReasons k = s.derivedReasons k) (qualifies : ∀ k, t.qualifies k = s.qualifies k) :
    Carries s t where
  sets current k := by rw [zones, derived, current k]
  withdrawn k after before := by
    have same : t.zstop k = s.zstop k := by simp only [State.zstop, zones]
    rw [same] at after
    simpa [zones, after] using before
  stops k after before := by
    rw [qualifies] at after
    simpa [zones, after] using before
  starts k after before := by
    rw [qualifies] at after
    simpa [zones, after] using before

theorem SameSets.carries {s t : State} (h : SameSets s t) : Carries s t :=
  carries_of_zones h.zones h.inputs.derived h.qualifies

theorem Carries.of_fields {s t : State} (layout : t.layout = s.layout) (tracker : t.tracker = s.tracker)
    (callList : t.callList = s.callList) (state : t.timer.state = s.timer.state) : Carries s t :=
  (SameSets.of_fields layout tracker callList state).carries

theorem Carries.refl (s : State) : Carries s s := (SameSets.refl s).carries

/-- Sets derived anew over zones that the event has not otherwise changed. -/
theorem settleTracker_carries {s u : State} (zones : u.tracker.zones = s.tracker.zones) :
    Carries s (settleTracker s u) := by
  have settled := settleTracker_settled s u
  rw [zones] at settled
  have stopped (k : Fin 6) (h : s.zstop k = true) : (s.tracker.zones.at_ k).reasons.isEmpty = false := by
    simpa [State.zstop] using h
  exact {
    sets := fun _ => settleTracker_setsCurrent s u
    withdrawn := fun k after before => settled.withdrawn after (before.imp_left (stopped k))
    stops := fun k after before => settled.stops after before
    starts := fun k after before => settled.starts after before }

/-- A change of shift state handed on, where the event has reached neither the Tracker, the layout nor the calls. -/
theorem handOn_carries {s u : State} (layout : u.layout = s.layout) (tracker : u.tracker = s.tracker)
    (callList : u.callList = s.callList) : Carries s (handOn s u) := by
  unfold handOn
  split
  · rename_i same
    exact (SameSets.of_fields layout tracker callList same).carries
  · exact settleTracker_carries (by simp [tracker])

theorem Follows.after {s t u : State} (h : Follows s t) (same : SameSets t u) : Follows s u where
  sets := same.setsCurrent ∘ h.sets
  withdrawn k before after := by
    rw [same.zones]
    exact h.withdrawn k before (same.zstop k ▸ after)
  stops k before after := by
    rw [same.zones]
    exact h.stops k before (same.qualifies k ▸ after)
  starts k before after := by
    rw [same.zones]
    exact h.starts k before (same.qualifies k ▸ after)

theorem Follows.before {r s t : State} (h : Follows s t) (same : SameSets r s) : Follows r t where
  sets current := h.sets (same.setsCurrent current)
  withdrawn k before := h.withdrawn k (same.zstop k ▸ before)
  stops k before := h.stops k (same.qualifies k ▸ before)
  starts k before := h.starts k (same.qualifies k ▸ before)

/-- Sets derived anew over zones that the event has changed, those that it cleared apart with their reasons kept. -/
theorem follows_of_settled {s t : State} {base : Fin 6 → ZoneState} (settled : Settled base s t) (sets : t.SetsCurrent)
    (hb : ∀ k, (base k).reasons = (s.tracker.zones.at_ k).reasons ∨ (base k).coast = 0 ∧ (base k).overrun = false) :
    Follows s t where
  sets _ := sets
  withdrawn k before after := settled.withdrawn after ((hb k).imp_left fun same => by
    simpa [State.zstop, ← same] using before)
  stops k before after := settled.stops after (.inl before)
  starts k before after := settled.starts after (.inl before)

end Sys2Proof.Machine
end

section
/-! The events that settle zones which they have not otherwise changed. -/

namespace Sys2Proof.Machine

/-! ### Events that settle zones they have not otherwise changed -/

theorem changeActual_carries (a : Nat) (s : State) : Carries s (changeActual a s) := by
  unfold changeActual
  split
  · exact .refl s
  · exact handOn_carries (by simp) (by simp) (by simp)

theorem advance_carries (s : State) : Carries s (advance s) := by
  have tests (u : State) : Carries u (handOn u (advanceEndTest u)) := handOn_carries (by simp) (by simp) (by simp)
  unfold advance
  split
  · have clock : Carries s (handOn s (advanceClock s)) := handOn_carries (by simp) (by simp) (by simp)
    have second : SameSets (handOn s (advanceClock s)) (productiveSecond (handOn s (advanceClock s))) :=
      .of_fields (by simp) (by simp) (by simp) (by simp [productiveSecond])
    exact (clock.trans second.carries).trans (tests _)
  · exact handOn_carries (by simp) (by simp) (by simp)

theorem shiftSecond_carries (s : State) : Carries s (shiftSecond s) := by
  have corrected (c : Int) (u : State) : Carries u (setCorrection c u) :=
    .of_fields rfl rfl rfl rfl
  have second (u : State) : Carries u (advanceIfOpen u) := by
    unfold advanceIfOpen
    split
    · exact advance_carries u
    · exact .refl u
  unfold shiftSecond
  split
  · split
    · exact ((advance_carries s).trans (second _)).trans (corrected _ _)
    · split
      · exact corrected _ _
      · exact advance_carries s
  · exact .refl s

theorem completeClose_carries (s : State) : Carries s (completeClose s) := by
  unfold completeClose
  split
  · exact handOn_carries (by simp) (by simp) (by simp)
  · exact .refl s

theorem applyTimeMark_carries (number seconds : Nat) (s : State) : Carries s (applyTimeMark number seconds s).1 := by
  unfold applyTimeMark
  (repeat' split) <;> exact .of_fields rfl rfl rfl rfl

theorem applyShiftStart_carries (number offset : Nat) (s : State) : Carries s (applyShiftStart number offset s).1 := by
  unfold applyShiftStart
  split
  · exact .refl s
  · split
    · split
      · exact .refl s
      · exact handOn_carries (by simp) (by simp) (by simp)
    · exact .of_fields rfl rfl rfl rfl
    all_goals
      split
      · exact applyTimeMark_carries number offset s
      · exact handOn_carries (by simp) (by simp) (by simp)

theorem applyCommit_carries (mode : Nat) (s : State) : Carries s (applyCommit mode s).1 := by
  have now (p : Plan) : Carries s (commitNow p s) := handOn_carries (by simp) (by simp) (by simp)
  unfold applyCommit
  split
  · exact .refl s
  · split
    · exact .refl s
    · rename_i p _
      split
      · exact .refl s
      · split
        · simp only [now]
        · exact .of_fields rfl rfl rfl rfl

theorem applyShiftClose_carries (s : State) : Carries s (applyShiftClose s).1 := by
  unfold applyShiftClose
  split
  · exact handOn_carries (by simp) (by simp) (by simp)
  · exact .refl s

theorem applyCountAdjust_carries (delta : Int) (s : State) : Carries s (applyCountAdjust delta s).1 := by
  unfold applyCountAdjust
  split
  · exact changeActual_carries _ s
  · exact .refl s

theorem openCall_carries (st : Fin 48) (zone : Fin 6) (k : Kind) (progress : Nat) (s : State) :
    Carries s (openCall st zone k progress s) := settleTracker_carries (by simp)

theorem growCall_carries (c : Call) (k : Kind) (s : State) : Carries s (growCall c k s) :=
  settleTracker_carries (by simp)

theorem closeCall_carries (c : Call) (by_ : ClosedBy) (s : State) : Carries s (closeCall c by_ s) :=
  settleTracker_carries (by simp)

theorem applyPull_carries (station kind progress : Nat) (s : State) :
    Carries s (applyPull station kind progress s).1 := by
  unfold applyPull
  split
  · exact .refl s
  · split
    · split
      · split
        · split
          · exact .refl s
          · exact growCall_carries _ _ s
        · exact openCall_carries _ _ _ _ s
      · exact .refl s
    · exact .refl s

theorem applyRelease_carries (station : Nat) (s : State) : Carries s (applyRelease station s).1 := by
  unfold applyRelease
  split
  · exact .refl s
  · exact closeCall_carries _ _ s

theorem applyLeaderReset_carries (station leader : Nat) (s : State) :
    Carries s (applyLeaderReset station leader s).1 := by
  unfold applyLeaderReset
  split
  · exact .refl s
  · split
    · exact .refl s
    · exact closeCall_carries _ _ s

theorem applyClearCall_carries (number responder : Nat) (s : State) :
    Carries s (applyClearCall number responder s).1 := by
  unfold applyClearCall
  split
  · exact .refl s
  · split
    · exact .refl s
    · exact closeCall_carries _ _ s

theorem applyBufferSet_carries (buffer count : Nat) (s : State) : Carries s (applyBufferSet buffer count s).1 := by
  unfold applyBufferSet
  split
  · exact .refl s
  · split
    · exact settleTracker_carries rfl
    · exact .refl s

theorem applyLayoutStation_carries (station : Nat) (flag : Bool) (length : Nat) (s : State) :
    Carries s (applyLayoutStation station flag length s).1 := by
  unfold applyLayoutStation
  split
  · exact .refl s
  · split
    · exact .refl s
    · dsimp only
      split
      · exact .refl s
      · exact settleTracker_carries rfl

/-! ### Events that change calls, but neither their zones nor their phases -/

theorem onCalls_sameSets (s : State) {f : CallList → CallList} {g : Call → Call}
    (calls : (f s.callList).calls = s.callList.calls.map g) (zone : ∀ c, (g c).zone = c.zone)
    (phase : ∀ c, (g c).phase = c.phase) : SameSets s (s.onCalls f) :=
  ⟨⟨rfl, by simp [calls, zone, phase], rfl, rfl, rfl⟩, rfl⟩

/-- A call's second raises its counts and its level alone (R58). -/
theorem Call.second_zone_phase (c : Call) (p : Policy) (x : ShiftState) :
    (c.second p x).zone = c.zone ∧ (c.second p x).phase = c.phase := by
  have level (d : Call) : (d.levelTest p).zone = d.zone ∧ (d.levelTest p).phase = d.phase := by
    unfold Call.levelTest
    dsimp only
    split <;> exact ⟨rfl, rfl⟩
  unfold Call.second
  dsimp only
  (repeat' split) <;> simp [level]

theorem callSeconds_sameSets (only : Option Nat) (s : State) : SameSets s (callSeconds only s) := by
  have seconds : SameSets s (s.onCalls fun l => { l with
      calls := l.calls.map fun c => if secondOf only c then c.second s.callList.policy s.timer.state else c }) := by
    refine onCalls_sameSets s rfl (fun c => ?_) fun c => ?_
    · split
      · exact (c.second_zone_phase _ _).1
      · rfl
    · split
      · exact (c.second_zone_phase _ _).2
      · rfl
  exact seconds.trans (.of_fields (by simp [callSeconds]) (by simp [callSeconds]) (by simp [callSeconds])
    (by simp [callSeconds]))

theorem acknowledge_sameSets (c : Call) (source : AckSource) (id : Nat) (s : State) :
    SameSets s (acknowledge c source id s) := by
  refine onCalls_sameSets s rfl (fun x => ?_) fun x => ?_ <;> · split <;> rfl

theorem applyLeaderAck_carries (station leader : Nat) (s : State) : Carries s (applyLeaderAck station leader s).1 := by
  unfold applyLeaderAck
  split
  · exact .refl s
  · split
    · exact .refl s
    · split
      · exact .refl s
      · exact (acknowledge_sameSets _ _ _ s).carries

theorem applyAckCall_carries (number responder : Nat) (s : State) : Carries s (applyAckCall number responder s).1 := by
  unfold applyAckCall
  split
  · exact .refl s
  · split
    · exact .refl s
    · split
      · exact .refl s
      · exact (acknowledge_sameSets _ _ _ s).carries

theorem applyPolicy_carries (thresholds : Vector Half 15) (grace : Half) (s : State) :
    Carries s (applyPolicy thresholds grace s).1 :=
  (onCalls_sameSets s (f := fun c => { c with policy := storedPolicy thresholds grace }) (g := id) (by simp)
    (fun _ => rfl) fun _ => rfl).carries

/-! ### XSTOP (R26) -/

/-- The state with another filter of XSTOP. -/
def State.withXstop (s : State) (f : PinFilter) : State := { s with tracker := { s.tracker with xstop := f } }

/-- The sets look at the taken level of XSTOP alone: its filter's timing is no input of theirs. -/
theorem derivedReasons_xstopTimed {s : State} {f : PinFilter} (same : f.taken = s.tracker.xstop.taken) (k : Fin 6) :
    (s.withXstop f).derivedReasons k = s.derivedReasons k := by
  have base (k : Fin 6) : (s.withXstop f).baseReasons k = s.baseReasons k := by
    simp only [State.baseReasons, State.withXstop, same]
    rfl
  have blocked (n : Nat) : (s.withXstop f).blockedPass n = s.blockedPass n := by
    induction n with
    | zero => rfl
    | succ n ih =>
      simp only [State.blockedPass, ih, State.baseAt, base]
      rfl
  have starved (n : Nat) : (s.withXstop f).starvedPass n = s.starvedPass n := by
    induction n with
    | zero => rfl
    | succ n ih =>
      simp only [State.starvedPass, ih, State.baseAt, base]
      rfl
  simp only [State.derivedReasons, base, blocked, starved]

theorem giveXstop_carries (m : LevelMoment) (s : State) : Carries s (giveXstop m s) := by
  rw [(giveXstop_spec m s).2]
  split
  · rename_i same
    exact carries_of_zones rfl (derivedReasons_xstopTimed same) fun _ => rfl
  · exact settleTracker_carries rfl

end Sys2Proof.Machine
end

section
/-! A step of a zone and the car it completes: what they reach before the Tracker settles, once, at the end. -/

namespace Sys2Proof.Machine

/-! ### Settling twice -/

/-- Settling looks at the state the event began in for what qualified there alone (R29). -/
theorem settleTracker_of_qualifies {old s : State} (h : ∀ k, old.qualifies k = s.qualifies k) (w : State) :
    settleTracker old w = settleTracker s w := by
  simp only [settleTracker, requalify, h]

theorem requalified_twice (z : ZoneState) (before now : Bool) :
    (z.requalified before now).requalified before now = z.requalified before now := by
  cases before <;> cases now <;> rfl

/-- A Tracker that has settled is left as it is. -/
theorem settleTracker_settled_again (old w : State) :
    settleTracker old (settleTracker old w) = settleTracker old w := by
  have derived : rederive (settleTracker old w) = settleTracker old w :=
    if_pos ((setsDerived_iff _).2 (settleTracker_setsCurrent old w))
  have zones : (Tab.tab fun k => ((settleTracker old w).tracker.zones.at_ k).requalified (old.qualifies k)
      ((settleTracker old w).qualifies k)) = (settleTracker old w).tracker.zones := by
    refine Tab.ext_at fun k => ?_
    rw [Tab.at_tab, settleTracker_zone, requalified_twice]
  have stalled (u : State) : stallCleared u u = false := by simp [stallCleared]
  conv_lhs => rw [settleTracker, derived, requalify, zones]
  dsimp only
  rw [stalled]
  rfl

/-- A change of shift state announced, before the Tracker settles on it (R68). -/
def announced (old s : State) : State :=
  if s.timer.state = old.timer.state then s else (s.raise .banner).raise .clock

/-- A change of shift state handed on within an event that settles the Tracker at its end. -/
theorem settleTracker_handOn {old s : State} (h : ∀ k, old.qualifies k = s.qualifies k) (w : State) :
    settleTracker s (handOn old w) = settleTracker s (announced old w) := by
  unfold handOn announced
  split
  · rfl
  · rw [settleTracker_of_qualifies h, settleTracker_settled_again]

@[simp] theorem announced_keeps (old s : State) :
      (announced old s).conditions = s.conditions ∧
      (announced old s).straps = s.straps ∧
      (announced old s).pitch = s.pitch ∧
      (announced old s).layout = s.layout ∧
      (announced old s).stations = s.stations ∧
      (announced old s).tracker = s.tracker ∧
      (announced old s).callList = s.callList ∧
      (announced old s).timer = s.timer ∧
      (announced old s).pace = s.pace ∧
      (announced old s).loss = s.loss ∧
      (announced old s).archive = s.archive ∧
      (announced old s).history = s.history ∧
      (announced old s).line = s.line ∧
      (announced old s).plant = s.plant ∧
      (announced old s).frame = s.frame ∧
      (announced old s).tiles = s.tiles ∧
      (announced old s).alert = s.alert ∧
      (announced old s).pending = s.pending := by
  unfold announced
  split <;> simp

/-! ### A car completed (R16, R17, R20) -/

/-- The state with other buffers. -/
def State.withBuffers (s : State) (f : Fin 5 → Buffer) : State :=
  { s with tracker := { s.tracker with buffers := .tab f } }

@[simp] theorem withBuffers_fields (s : State) (f : Fin 5 → Buffer) :
      (s.withBuffers f).conditions = s.conditions ∧
      (s.withBuffers f).straps = s.straps ∧
      (s.withBuffers f).pitch = s.pitch ∧
      (s.withBuffers f).layout = s.layout ∧
      (s.withBuffers f).stations = s.stations ∧
      (s.withBuffers f).tracker = { s.tracker with buffers := .tab f } ∧
      (s.withBuffers f).callList = s.callList ∧
      (s.withBuffers f).timer = s.timer ∧
      (s.withBuffers f).pace = s.pace ∧
      (s.withBuffers f).loss = s.loss ∧
      (s.withBuffers f).archive = s.archive ∧
      (s.withBuffers f).history = s.history ∧
      (s.withBuffers f).line = s.line ∧
      (s.withBuffers f).plant = s.plant ∧
      (s.withBuffers f).frame = s.frame ∧
      (s.withBuffers f).engine = s.engine ∧
      (s.withBuffers f).tiles = s.tiles ∧
      (s.withBuffers f).alert = s.alert ∧
      (s.withBuffers f).pending = s.pending :=
    ⟨rfl, rfl, rfl, rfl, rfl, rfl, rfl, rfl, rfl, rfl, rfl, rfl, rfl, rfl, rfl, rfl, rfl, rfl, rfl⟩

theorem withBuffers_self {s : State} {f : Fin 5 → Buffer} (h : ∀ b, f b = s.tracker.buffers.at_ b) :
    s = s.withBuffers f := by
  have same : Tab.tab f = s.tracker.buffers := Tab.ext_at fun b => (Tab.at_tab f b).trans (h b)
  rw [State.withBuffers, same]

theorem onBuffer_withBuffers (s : State) (j : Fin 5) (g : Buffer → Buffer) :
    s.onBuffer j g =
      s.withBuffers fun b => if b = j then g (s.tracker.buffers.at_ b) else s.tracker.buffers.at_ b := by
  have same : s.tracker.buffers.upd j g =
      .tab fun b => if b = j then g (s.tracker.buffers.at_ b) else s.tracker.buffers.at_ b := by
    refine Tab.ext_at fun b => ?_
    rw [Tab.at_tab]
    by_cases e : b = j
    · subst e
      simp
    · simp [e]
  rw [State.onBuffer, same, State.withBuffers]

/-- A delivery goes into the used buffer ahead of its zone (R16). -/
theorem deliverFrom_eq (k : Fin 6) (s : State) :
    deliverFrom k s = s.withBuffers fun b =>
      if s.layout.bufferUsed b = true ∧ upstreamZone b = k then
        (s.tracker.buffers.at_ b).deliver (s.layout.capacity b)
      else s.tracker.buffers.at_ b := by
  unfold deliverFrom
  induction k using Fin.lastCases with
  | last => exact withBuffers_self fun b => if_neg fun h => Fin.castSucc_ne_last b h.2
  | cast j =>
    have ahead : index 5 j.castSucc.val = some j := index_of_lt rfl
    rw [ahead]
    dsimp only
    split
    · rename_i used
      rw [onBuffer_withBuffers]
      congr 1
      funext b
      by_cases e : b = j
      · subst e
        simp [used, upstreamZone]
      · simp [e, upstreamZone]
    · rename_i unused
      refine withBuffers_self fun b => if_neg ?_
      rintro ⟨used, same⟩
      exact unused (Fin.castSucc_inj.1 same ▸ used)

/-- A draw comes from the used buffer behind its zone (R16). -/
theorem drawInto_eq (k : Fin 6) (s : State) :
    drawInto k s = s.withBuffers fun b =>
      if s.layout.bufferUsed b = true ∧ downstreamZone b = k then (s.tracker.buffers.at_ b).draw
      else s.tracker.buffers.at_ b := by
  unfold drawInto
  induction k using Fin.cases with
  | zero => exact withBuffers_self fun b => if_neg fun h => Fin.succ_ne_zero b h.2
  | succ j =>
    have behind : index 5 (j.succ.val - 1) = some j := index_of_lt (by simp)
    rw [if_neg (by simp), behind]
    dsimp only
    split
    · rename_i used
      rw [onBuffer_withBuffers]
      congr 1
      funext b
      by_cases e : b = j
      · subst e
        simp [used, downstreamZone]
      · simp [e, downstreamZone]
    · rename_i unused
      refine withBuffers_self fun b => if_neg ?_
      rintro ⟨used, same⟩
      exact unused (Fin.succ_inj.1 same ▸ used)

/-- A buffer after a car of zone `k`: a delivery where it is ahead of the zone, a draw where it is behind (R16). -/
def State.bufferMoved (s : State) (k : Fin 6) (b : Fin 5) : Buffer :=
  if s.layout.bufferUsed b = true ∧ upstreamZone b = k then
    (s.tracker.buffers.at_ b).deliver (s.layout.capacity b)
  else if s.layout.bufferUsed b = true ∧ downstreamZone b = k then (s.tracker.buffers.at_ b).draw
  else s.tracker.buffers.at_ b

theorem carMoved_eq (k : Fin 6) (s : State) :
    drawInto k (deliverFrom k s) = s.withBuffers (s.bufferMoved k) := by
  rw [drawInto_eq, deliverFrom_eq]
  simp only [State.withBuffers, Tab.at_tab]
  congr 3
  funext b
  unfold State.bufferMoved
  by_cases ahead : upstreamZone b = k
  · have apart : downstreamZone b ≠ k := by
      rw [← ahead]
      exact fun e => absurd (Fin.ext_iff.1 e) (by simp [downstreamZone, upstreamZone])
    simp [ahead, apart]
  · simp [ahead]

/-- The actual count raised by a car at the end of the line, with what follows but the Tracker's settling (R20, R79). -/
def carCounted (s : State) : State :=
  if s.timer.state.isOpen = true ∧ s.pace.actual < 9999 then
    announced s (targetTest (recompute (s.onPace fun u => { u with actual := s.pace.actual + 1 })))
  else s

@[simp] theorem carCounted_keeps (s : State) :
      (carCounted s).conditions = s.conditions ∧
      (carCounted s).straps = s.straps ∧
      (carCounted s).pitch = s.pitch ∧
      (carCounted s).layout = s.layout ∧
      (carCounted s).stations = s.stations ∧
      (carCounted s).tracker = s.tracker ∧
      (carCounted s).callList = s.callList ∧
      (carCounted s).loss = s.loss ∧
      (carCounted s).history = s.history ∧
      (carCounted s).line = s.line ∧
      (carCounted s).frame = s.frame ∧
      (carCounted s).tiles = s.tiles ∧
      (carCounted s).alert = s.alert ∧
      (carCounted s).pending = s.pending := by
  unfold carCounted
  split <;> simp

theorem settleTracker_endOfLineCar {s u : State} (h : ∀ k, u.qualifies k = s.qualifies k) :
    settleTracker s (endOfLineCar u) = settleTracker s (carCounted u) := by
  unfold endOfLineCar carCounted changeActual satSucc Config.actualMax
  by_cases open_ : u.timer.state.isOpen = true
  · by_cases room : u.pace.actual < 9999
    · simp only [open_, room, and_self, if_true]
      rw [if_neg (by omega), settleTracker_handOn h]
    · simp [open_, room]
  · simp [open_]

/-- A car completed, but the Tracker's settling (R16). -/
def carCompleted (k : Fin 6) (s : State) : State :=
  let moved := s.withBuffers (s.bufferMoved k)
  if k.val + 1 = s.layout.used then carCounted moved else moved

@[simp] theorem carCompleted_keeps (k : Fin 6) (s : State) :
      (carCompleted k s).conditions = s.conditions ∧
      (carCompleted k s).straps = s.straps ∧
      (carCompleted k s).pitch = s.pitch ∧
      (carCompleted k s).layout = s.layout ∧
      (carCompleted k s).stations = s.stations ∧
      (carCompleted k s).tracker = { s.tracker with buffers := .tab (s.bufferMoved k) } ∧
      (carCompleted k s).callList = s.callList ∧
      (carCompleted k s).loss = s.loss ∧
      (carCompleted k s).history = s.history ∧
      (carCompleted k s).line = s.line ∧
      (carCompleted k s).frame = s.frame ∧
      (carCompleted k s).tiles = s.tiles ∧
      (carCompleted k s).alert = s.alert ∧
      (carCompleted k s).pending = s.pending := by
  unfold carCompleted
  dsimp only
  split <;> simp

theorem settleTracker_completeCar {s u : State} (k : Fin 6) (h : ∀ k, u.qualifies k = s.qualifies k) :
    settleTracker s (completeCar k u) = settleTracker s (carCompleted k u) := by
  unfold completeCar carCompleted
  rw [carMoved_eq]
  dsimp only
  split
  · exact settleTracker_endOfLineCar h
  · rfl

/-! ### A step (R15, R27, R28, R43, R44) -/

/-- A step of zone `k` taken by the zone and its calls, before any car it completes. -/
def stepCounted (k : Fin 6) (s : State) : State :=
  stepCalls k ((s.onZone k fun z => z.afterStep (s.layout.zones.at_ k) (s.zstop k)).raiseIf
    (s.tracker.zones.at_ k).stall .stations)

/-- A step of zone `k`, but the Tracker's settling. -/
def stepTaken (k : Fin 6) (s : State) : State :=
  if completesCar (s.tracker.zones.at_ k).accumulator (s.layout.zones.at_ k).pitch then carCompleted k (stepCounted k s)
  else stepCounted k s

@[simp] theorem stepCounted_keeps (k : Fin 6) (s : State) :
      (stepCounted k s).conditions = s.conditions ∧
      (stepCounted k s).straps = s.straps ∧
      (stepCounted k s).pitch = s.pitch ∧
      (stepCounted k s).layout = s.layout ∧
      (stepCounted k s).stations = s.stations ∧
      (stepCounted k s).tracker = 
        { s.tracker with
          zones := s.tracker.zones.upd k fun z => z.afterStep (s.layout.zones.at_ k) (s.zstop k) } ∧
      (stepCounted k s).callList = 
        { s.callList with calls := s.callList.calls.map fun c => c.stepped k } ∧
      (stepCounted k s).timer = s.timer ∧
      (stepCounted k s).pace = s.pace ∧
      (stepCounted k s).loss = s.loss ∧
      (stepCounted k s).archive = s.archive ∧
      (stepCounted k s).history = s.history ∧
      (stepCounted k s).line = s.line ∧
      (stepCounted k s).plant = s.plant ∧
      (stepCounted k s).frame = s.frame ∧
      (stepCounted k s).tiles = s.tiles ∧
      (stepCounted k s).alert = s.alert ∧
      (stepCounted k s).pending = s.pending := by
  unfold stepCounted stepCalls raiseCallChange
  dsimp only
  split <;> simp

@[simp] theorem stepTaken_keeps (k : Fin 6) (s : State) :
      (stepTaken k s).conditions = s.conditions ∧
      (stepTaken k s).straps = s.straps ∧
      (stepTaken k s).pitch = s.pitch ∧
      (stepTaken k s).layout = s.layout ∧
      (stepTaken k s).stations = s.stations ∧
      (stepTaken k s).callList = 
        { s.callList with calls := s.callList.calls.map fun c => c.stepped k } ∧
      (stepTaken k s).loss = s.loss ∧
      (stepTaken k s).history = s.history ∧
      (stepTaken k s).line = s.line ∧
      (stepTaken k s).frame = s.frame ∧
      (stepTaken k s).tiles = s.tiles ∧
      (stepTaken k s).alert = s.alert ∧
      (stepTaken k s).pending = s.pending := by
  unfold stepTaken
  split <;> simp

/-- A step reaches its own zone, and the Tracker's buffers where it completes a car. -/
theorem stepTaken_tracker (k : Fin 6) (s : State) :
    (stepTaken k s).tracker =
      { s.tracker with
        zones := s.tracker.zones.upd k fun z => z.afterStep (s.layout.zones.at_ k) (s.zstop k)
        buffers := (stepTaken k s).tracker.buffers } := by
  unfold stepTaken
  split <;> simp

theorem afterStep_reasons (z : ZoneState) (r : ZoneRecord) (stopped : Bool) :
    (z.afterStep r stopped).reasons = z.reasons := rfl

theorem stepCounted_qualifies (k : Fin 6) (s : State) (j : Fin 6) : (stepCounted k s).qualifies j = s.qualifies j := by
  refine qualifies_congr j (by simp) ?_ (by simp)
  by_cases e : j = k
  · subst e
    simp [afterStep_reasons]
  · simp [e]

/-- A step settles the Tracker once, at its end. -/
theorem stepZone_eq (k : Fin 6) (s : State) : stepZone k s = settleTracker s (stepTaken k s) := by
  unfold stepZone stepTaken
  have same : stepCalls k ((s.onZone k fun z => z.afterStep (s.layout.zones.at_ k) (s.zstop k)).raiseIf
    (s.tracker.zones.at_ k).stall .stations) = stepCounted k s := rfl
  dsimp only
  rw [same]
  split
  · exact settleTracker_completeCar k (stepCounted_qualifies k s)
  · rfl

end Sys2Proof.Machine
end

section
/-! Every step leaves the sets derived and the cause set true, and stops and starts zones by R24 and R29. -/

namespace Sys2Proof.Machine

/-! ### Events that change zones by themselves -/

theorem stepZone_follows (k : Fin 6) (s : State) : Follows s (stepZone k s) := by
  rw [stepZone_eq]
  refine follows_of_settled (settleTracker_settled s (stepTaken k s)) (settleTracker_setsCurrent s _) fun j => .inl ?_
  rw [stepTaken_tracker]
  by_cases e : j = k
  · subst e
    simp [afterStep_reasons]
  · simp [e]

theorem givePitch_follows (k : Fin 6) (m : PitchMoment) (s : State) : Follows s (givePitch k m s) := by
  have filtered : SameSets s (s.onPitch k (PinFilter.afterPitch m)) := .of_fields rfl rfl rfl rfl
  rw [(givePitch_spec k m s).2]
  split
  · exact (stepZone_follows k _).before filtered
  · exact filtered.carries.follows

/-- A zone under a layout write keeps its set, or is cleared (R8). -/
theorem afterWrite_kept_or_cleared (z : ZoneState) (j k : Fin 6) (old new : Layout) :
    (z.afterWrite j k old new).reasons = z.reasons ∨
      (z.afterWrite j k old new).coast = 0 ∧ (z.afterWrite j k old new).overrun = false := by
  unfold ZoneState.afterWrite
  by_cases service : old.zoneUsed j = new.zoneUsed j
  · simp only [service, if_true]
    left
    split <;> rfl
  · simp only [service, if_false]
    right
    split <;> simp [ZoneState.cleared]

theorem storeZone_follows (k : Fin 6) (new : Layout) (s : State) : Follows s (storeZone k new s) := by
  refine follows_of_settled (settleTracker_settled s _) (settleTracker_setsCurrent s _) fun j => ?_
  simpa [raiseLayout] using afterWrite_kept_or_cleared (s.tracker.zones.at_ j) j k s.layout new

theorem applyLayoutZone_follows (zone used first last pitch coast stall capacity : Nat) (s : State) :
    Follows s (applyLayoutZone zone used first last pitch coast stall capacity s).1 := by
  have same : Follows s s := (Carries.refl s).follows
  unfold applyLayoutZone
  split
  · exact same
  · split
    · exact same
    · dsimp only
      split
      · exact same
      · split
        · exact same
        · exact storeZone_follows _ _ s

/-- Zones whose sets are as they were stop, and qualify, as they did. -/
theorem follows_of_reasons {s t : State} (inputs : SameInputs s t)
    (reasons : ∀ k, (t.tracker.zones.at_ k).reasons = (s.tracker.zones.at_ k).reasons) : Follows s t := by
  have zstop (k : Fin 6) : t.zstop k = s.zstop k := by simp only [State.zstop, reasons]
  have qualifies (k : Fin 6) : t.qualifies k = s.qualifies k :=
    qualifies_congr k inputs.layout (reasons k) inputs.state
  refine ⟨fun current k => ?_, fun k before after => ?_, fun k before after => ?_, fun k before after => ?_⟩
  · rw [reasons, inputs.derived, current k]
  · simp [zstop, before] at after
  · simp [qualifies, before] at after
  · simp [qualifies, before] at after

@[simp] theorem monitorSecond_reasons (z : ZoneState) (qualifies : Bool) (q : Nat) :
    (z.monitorSecond qualifies q).reasons = z.reasons := by
  unfold ZoneState.monitorSecond
  (repeat' split) <;> rfl

theorem monitorSecond_follows (k : Fin 6) (s : State) : Follows s (monitorSecond k s) := by
  refine follows_of_reasons ⟨by simp [monitorSecond], by simp [monitorSecond], by simp [monitorSecond],
    by simp [monitorSecond], by simp [monitorSecond]⟩ fun j => ?_
  by_cases e : j = k
  · subst e
    simp [monitorSecond]
  · simp [monitorSecond, e]

/-- In hard reset every set is empty, and no zone qualifies (R33). -/
theorem held_follows (c : ResetConditions) (straps : Straps) (queue : List Instr) (s : State) :
    Follows s (.held c straps queue) := by
  have zone (k : Fin 6) : (State.held c straps queue).tracker.zones.at_ k = .cleared := Tab.at_tab _ k
  have idle (k : Fin 6) : (State.held c straps queue).qualifies k = false := by
    simp [State.qualifies, State.held, ShiftTimer.reset, ShiftState.isProductive]
  refine ⟨fun _ => ?_, fun k _ _ => ?_, fun k _ _ => ?_, fun k _ after => ?_⟩
  · exact SetsCurrent.congr (u := State.reset) reset_setsCurrent ⟨rfl, rfl, rfl, rfl, rfl⟩ rfl
  · simp [zone, ZoneState.cleared]
  · simp [zone, ZoneState.cleared]
  · simp [idle] at after

/-! ### Commands -/

theorem centreEvent_follows {f : State → State} (hf : ∀ s, Follows s (f s)) {s t : State}
    (e : centreEvent f s = .next t) : Follows s t := by
  cases hr : s.inReset with
  | true =>
    rw [centreEvent_held f s hr] at e
    cases e
    exact (Carries.refl s).follows
  | false =>
    rw [centreEvent_next f s hr] at e
    cases e
    exact ((hf s).after (decideAlert_sameSets s _)).after (serve_sameSets _)

theorem takeCommand_follows {c : PlantCommand} {rule : CommandRule} (hr : ∀ s, Follows s (rule s).1) (s : State) :
    Follows s (takeCommand c rule s) := by
  unfold takeCommand
  split
  · exact (Carries.refl s).follows
  · rename_i u decoded
    have begun : SameSets s u := decoded_keeps (I := SameSets s) (fun x l h => h.trans (setPlantLink_sameSets x l))
      (fun x h => h.trans (serve_sameSets x)) (SameSets.refl s) decoded
    exact (((hr u).before begun).after (onPlant_sameSets _ _)).after (onPlant_sameSets _ _)

theorem event_carries {f : State → State} (hf : ∀ s, Carries s (f s)) {s t : State} (e : event f s = .next t) :
    Carries s t :=
  event_keeps (I := Carries s) (fun x h => h.trans (hf x)) (fun x h => h.trans (serve_sameSets x).carries)
    (Carries.refl s) e

theorem centreEvent_carries {f : State → State} (hf : ∀ s, Carries s (f s)) {s t : State}
    (e : centreEvent f s = .next t) : Carries s t :=
  centreEvent_keeps (I := Carries s) (fun x h => h.trans (hf x))
    (fun old x h => h.trans (decideAlert_sameSets old x).carries) (fun x h => h.trans (serve_sameSets x).carries)
    (Carries.refl s) e

theorem takeCommand_carries {c : PlantCommand} {rule : CommandRule} (hr : ∀ s, Carries s (rule s).1) (s : State) :
    Carries s (takeCommand c rule s) :=
  takeCommand_keeps (I := Carries s) (fun x l h => h.trans (setPlantLink_sameSets x l).carries)
    (fun x h => h.trans (serve_sameSets x).carries) (fun x f h => h.trans (onPlant_sameSets x f).carries)
    (fun x h => h.trans (hr x)) s (Carries.refl s)

theorem takeFrame_carries {rule : FrameRule}
    (hr : ∀ fr apply, rule fr = some apply → ∀ s : State, Carries s (apply s).1) (s : State) :
    Carries s (takeFrame rule s) :=
  takeFrame_keeps (I := Carries s) (fun x f h => h.trans (onLine_sameSets x f).carries)
    (fun fr apply e x h => h.trans (hr fr apply e x)) s (Carries.refl s)

theorem pullRule_carries (fr : Frame) (apply : State → State × LineResult) (e : pullRule fr = some apply) (s : State) :
    Carries s (apply s).1 := by
  unfold pullRule at e
  split at e <;> cases e
  exact applyPull_carries _ _ _ s

theorem releaseRule_carries (fr : Frame) (apply : State → State × LineResult) (e : releaseRule fr = some apply)
    (s : State) : Carries s (apply s).1 := by
  unfold releaseRule at e
  split at e <;> cases e
  exact applyRelease_carries _ s

theorem leaderAckRule_carries (fr : Frame) (apply : State → State × LineResult) (e : leaderAckRule fr = some apply)
    (s : State) : Carries s (apply s).1 := by
  unfold leaderAckRule at e
  split at e <;> cases e
  exact applyLeaderAck_carries _ _ s

theorem leaderResetRule_carries (fr : Frame) (apply : State → State × LineResult)
    (e : leaderResetRule fr = some apply) (s : State) : Carries s (apply s).1 := by
  unfold leaderResetRule at e
  split at e <;> cases e
  exact applyLeaderReset_carries _ _ s

theorem bufferSetRule_carries (fr : Frame) (apply : State → State × LineResult) (e : bufferSetRule fr = some apply)
    (s : State) : Carries s (apply s).1 := by
  unfold bufferSetRule at e
  split at e <;> cases e
  exact applyBufferSet_carries _ _ s

theorem countAdjustRule_carries (fr : Frame) (apply : State → State × LineResult)
    (e : countAdjustRule fr = some apply) (s : State) : Carries s (apply s).1 := by
  unfold countAdjustRule at e
  split at e <;> cases e
  exact applyCountAdjust_carries _ s

theorem shiftStartRule_carries (fr : Frame) (apply : State → State × LineResult) (e : shiftStartRule fr = some apply)
    (s : State) : Carries s (apply s).1 := by
  unfold shiftStartRule at e
  split at e <;> cases e
  exact applyShiftStart_carries _ _ s

/-! ### Commands that do not reach the line -/

/-- An event of the centre leaves the cause set holding the causes present (R176). -/
theorem centreEvent_causesCurrent {f : State → State} {s t : State} (h : s.CausesCurrent)
    (e : centreEvent f s = .next t) : t.CausesCurrent := by
  cases hr : s.inReset with
  | true =>
    rw [centreEvent_held f s hr] at e
    cases e
    exact h
  | false =>
    rw [centreEvent_next f s hr] at e
    cases e
    exact serve_causesCurrent (decideAlert_causesCurrent s _)

theorem execRunClockSecond_state {s t : State} (e : execRunClockSecond s = .next t) :
    t.timer.state = s.timer.state :=
  event_proj (fun s => s.timer.state) (by simp) (by simp) e

/-- A time mark sets the correction alone (R77). -/
theorem applyTimeMark_state (number seconds : Nat) (s : State) :
    (applyTimeMark number seconds s).1.timer.state = s.timer.state := by
  unfold applyTimeMark
  (repeat' split) <;> rfl

theorem timeMarkRule_state (fr : Frame) (apply : State → State × LineResult) (e : timeMarkRule fr = some apply)
    (s : State) : (apply s).1.timer.state = s.timer.state := by
  unfold timeMarkRule at e
  split at e <;> cases e
  exact applyTimeMark_state _ _ s

theorem applyStagePlan_state (length takt overtime : Half) (count : Byte) (breaks : Vector BreakArg 6) (s : State) :
    (applyStagePlan length takt overtime count breaks s).1.timer.state = s.timer.state := by
  unfold applyStagePlan
  split <;> rfl

/-- The commands that do not reach the line leave the shift state as it is, and the cause set current. -/
theorem exec_state_causes {c : Instr} {s t : State} (e : exec c s = .next t) (hc : Instr.reachesLine c = false) :
    t.timer.state = s.timer.state ∧ (s.CausesCurrent → t.CausesCurrent) := by
  have line := exec_sameLine e hc
  have current (alert : t.alert.causes = s.alert.causes) (h : s.CausesCurrent) : t.CausesCurrent := by
    unfold State.CausesCurrent at h ⊢
    rw [alert, h, presentCauses_congr line.callList line.layout line.tracker]
  have kept (h : t.timer = s.timer ∧ t.alert = s.alert) :
      t.timer.state = s.timer.state ∧ (s.CausesCurrent → t.CausesCurrent) := ⟨by rw [h.1], current (by rw [h.2])⟩
  cases c with
  | endOfHardReset adr tst xtal gone =>
    have next := (execEndOfHardReset_next adr tst xtal gone s).symm.trans e
    dsimp only at next
    split at next <;> cases next
    · exact kept (by simp [endReset])
    · exact kept ⟨rfl, rfl⟩
  | xalertChange m =>
    have causes := event_proj (fun s => s.alert.causes) (fun s => by rw [(giveXalert_spec m s).1]) (by simp) e
    exact ⟨by simp only [execXalertChange_keeps m e], current causes⟩
  | runClockSecond =>
    exact ⟨execRunClockSecond_state e, current (by simp only [execRunClockSecond_keeps e])⟩
  | timeMark =>
    have state := event_proj (fun s => s.timer.state) (takeFrame_proj (fun s => s.timer.state) (fun _ _ => rfl)
      timeMarkRule_state) (by simp) e
    exact ⟨state, current (by simp only [execTimeMark_keeps e])⟩
  | stagePlan l k o n b =>
    have state := event_proj (fun s => s.timer.state) (takeCommand_proj (fun s => s.timer.state) (by simp) (by simp)
      (fun _ _ => rfl) (applyStagePlan_state l k o n b)) (by simp) e
    exact ⟨state, current (by simp only [execStagePlan_keeps l k o n b e])⟩
  | discardPlan =>
    have state := event_proj (fun s => s.timer.state) (takeCommand_proj (fun s => s.timer.state) (by simp) (by simp)
      (fun _ _ => rfl) (fun _ => rfl)) (by simp) e
    exact ⟨state, current (by simp only [execDiscardPlan_keeps e])⟩
  | writeLinkSettings a b c =>
    exact ⟨by simp only [execWriteLinkSettings_keeps a b c e], fun h => centreEvent_causesCurrent h e⟩
  | lineLinkSecond => exact kept (by simp only [execLineLinkSecond_keeps e, and_self])
  | plantLinkSecond => exact kept (by simp only [execPlantLinkSecond_keeps e, and_self])
  | scrollSecond => exact kept (by simp only [execScrollSecond_keeps e, and_self])
  | scrollStep => exact kept (by simp only [execScrollStep_keeps e, and_self])
  | flashToggle => exact kept (by simp only [execFlashToggle_keeps e, and_self])
  | startTimerExpiry => exact kept (by simp only [execStartTimerExpiry_keeps e, and_self])
  | rampExpiry => exact kept (by simp only [execRampExpiry_keeps e, and_self])
  | presenceReturn tile present => exact kept (by simp only [execPresenceReturn_keeps tile present e, and_self])
  | renderPassComplete entry => exact kept (by simp only [execRenderPassComplete_keeps entry e, and_self])
  | addressByte input => exact kept (by simp only [execAddressByte_keeps input e, and_self])
  | lineStatusRead => exact kept (by simp only [execLineStatusRead_keeps e, and_self])
  | lineFrame bytes bits => exact kept (by simp only [execLineFrame_keeps bytes bits e, and_self])
  | keepalive => exact kept (by simp only [execKeepalive_keeps e, and_self])
  | csFalling => exact kept (by simp only [execCsFalling_keeps e, and_self])
  | csRising bytes bits => exact kept (by simp only [execCsRising_keeps bytes bits e, and_self])
  | unknownCommand code => exact kept (by simp only [execUnknownCommand_keeps code e, and_self])
  | readStatus m => exact kept (by simp only [execReadStatus_keeps m e, and_self])
  | statusFlagByteSent => exact kept (by simp only [execStatusFlagByteSent_keeps e, and_self])
  | presenceExtension => exact kept (by simp only [execPresenceExtension_keeps e, and_self])
  | readStation m => exact kept (by simp only [execReadStation_keeps m e, and_self])
  | readCalls => exact kept (by simp only [execReadCalls_keeps e, and_self])
  | callRecordSlot => exact kept (by simp only [execCallRecordSlot_keeps e, and_self])
  | readPace m => exact kept (by simp only [execReadPace_keeps m e, and_self])
  | readLoss m => exact kept (by simp only [execReadLoss_keeps m e, and_self])
  | readSummary m => exact kept (by simp only [execReadSummary_keeps m e, and_self])
  | readHistory => exact kept (by simp only [execReadHistory_keeps e, and_self])
  | historySlot m => exact kept (by simp only [execHistorySlot_keeps m e, and_self])
  | rewindHistory => exact kept (by simp only [execRewindHistory_keeps e, and_self])
  | setWindow a b c d => exact kept (by simp only [execSetWindow_keeps a b c d e, and_self])
  | setCursor x y => exact kept (by simp only [execSetCursor_keeps x y e, and_self])
  | setAddressControl a b c d => exact kept (by simp only [execSetAddressControl_keeps a b c d e, and_self])
  | setColourMode m => exact kept (by simp only [execSetColourMode_keeps m e, and_self])
  | setMask f => exact kept (by simp only [execSetMask_keeps f e, and_self])
  | setMark => exact kept (by simp only [execSetMark_keeps e, and_self])
  | returnToMark => exact kept (by simp only [execReturnToMark_keeps e, and_self])
  | writePixels o => exact kept (by simp only [execWritePixels_keeps o e, and_self])
  | pixelGroup bytes => exact kept (by simp only [execPixelGroup_keeps bytes e, and_self])
  | readPixels => exact kept (by simp only [execReadPixels_keeps e, and_self])
  | pixelRead m => exact kept (by simp only [execPixelRead_keeps m e, and_self])
  | writeRegion a b c d f g h i j => exact kept (by simp only [execWriteRegion_keeps a b c d f g h i j e, and_self])
  | setIntensity a b c => exact kept (by simp only [execSetIntensity_keeps a b c e, and_self])
  | restartTiles => exact kept (by simp only [execRestartTiles_keeps e, and_self])
  | commandByte input =>
    cases input with
    | byte code => exact kept (by simp only [execCommandByte_byte_keeps code e, and_self])
    | edge => nomatch hc
  | hardReset | step | xstopChange | stallMonitorSecond | shiftTimerSecond | closeCompletion | callSecond | pull
  | release | leaderAck | leaderReset | bufferSet | countAdjust | lineShiftStart | commitPlan | plantShiftStart
  | shiftClose | ackCall | clearCall | writeLayoutZone | writeLayoutStation | writePolicy => nomatch hc

theorem exec_sameSets {c : Instr} {s t : State} (e : exec c s = .next t) (hc : Instr.reachesLine c = false) :
    SameSets s t := by
  have line := exec_sameLine e hc
  exact .of_fields line.layout line.tracker line.callList (exec_state_causes e hc).1

/-! ### The step -/

/-- Every command but an edge of SCK leaves the sets derived, and stops and starts zones as R24 and R29 word them. -/
theorem exec_follows {c : Instr} {s t : State} (hc : ∀ e, c ≠ .commandByte (.edge e)) (e : exec c s = .next t) :
    Follows s t := by
  cases c
  -- events that change zones by themselves
  case hardReset input =>
    have next := (execHardReset_next input s).symm.trans e
    dsimp only at next
    split at next <;> cases next
    · exact held_follows _ _ _ s
    · exact (SameSets.of_fields rfl rfl rfl rfl : SameSets s { s with conditions := s.conditions.after input }).carries.follows
  case step p => exact centreEvent_follows (givePitch_follows p.zone p.moment) e
  case stallMonitorSecond k =>
    have monitored (u : State) : Follows u (if u.layout.zoneUsed k then monitorSecond k u else u) := by
      split
      · exact monitorSecond_follows k u
      · exact (Carries.refl u).follows
    exact centreEvent_follows monitored e
  case writeLayoutZone =>
    exact centreEvent_follows (takeCommand_follows (applyLayoutZone_follows _ _ _ _ _ _ _ _)) e
  -- events that settle zones they have not otherwise changed
  case xstopChange m => exact (centreEvent_carries (giveXstop_carries m) e).follows
  case shiftTimerSecond => exact (centreEvent_carries shiftSecond_carries e).follows
  case closeCompletion => exact (centreEvent_carries completeClose_carries e).follows
  case callSecond only => exact (centreEvent_carries (fun s => (callSeconds_sameSets only s).carries) e).follows
  case pull => exact (centreEvent_carries (takeFrame_carries pullRule_carries) e).follows
  case release => exact (centreEvent_carries (takeFrame_carries releaseRule_carries) e).follows
  case leaderAck => exact (event_carries (takeFrame_carries leaderAckRule_carries) e).follows
  case leaderReset => exact (centreEvent_carries (takeFrame_carries leaderResetRule_carries) e).follows
  case bufferSet => exact (centreEvent_carries (takeFrame_carries bufferSetRule_carries) e).follows
  case countAdjust => exact (centreEvent_carries (takeFrame_carries countAdjustRule_carries) e).follows
  case lineShiftStart => exact (centreEvent_carries (takeFrame_carries shiftStartRule_carries) e).follows
  case commitPlan mode => exact (centreEvent_carries (takeCommand_carries (applyCommit_carries _)) e).follows
  case plantShiftStart number offset =>
    exact (centreEvent_carries (takeCommand_carries (applyShiftStart_carries _ _)) e).follows
  case shiftClose => exact (centreEvent_carries (takeCommand_carries applyShiftClose_carries) e).follows
  case ackCall number responder => exact (event_carries (takeCommand_carries (applyAckCall_carries _ _)) e).follows
  case clearCall number responder =>
    exact (centreEvent_carries (takeCommand_carries (applyClearCall_carries _ _)) e).follows
  case writeLayoutStation =>
    exact (centreEvent_carries (takeCommand_carries (applyLayoutStation_carries _ _ _)) e).follows
  case writePolicy thresholds grace =>
    exact (event_carries (takeCommand_carries (applyPolicy_carries thresholds grace)) e).follows
  case commandByte input =>
    cases input with
    | byte code => exact (exec_sameSets (c := .commandByte (.byte code)) e rfl).carries.follows
    | edge edge => exact absurd rfl (hc edge)
  all_goals exact (exec_sameSets e rfl).carries.follows

/-- A relation between states that looks neither at the queue nor at the Plant Port's clock, and that the tick and every
command but an edge of SCK meet, is met by the step. -/
theorem step_relates {R : State → State → Prop} (queue : ∀ s q t, R { s with pending := q } t → R s t)
    (before : ∀ c s t, R (setPlantClock c s) t → R s t) (after : ∀ c s t, R s t → R s (setPlantClock c t))
    (self : ∀ s, R s s) (ht : ∀ s, R s (tick s))
    (he : ∀ {c : Instr} {s t : State}, (∀ x, c ≠ .commandByte (.edge x)) → exec c s = .next t → R s t)
    {s t : State} (e : step s = .next t) : R s t := by
  have clocked {u v : State} {r : Result} (hr : ClockedCommand u r) (hv : r = .next v) : R u v := by
    obtain ⟨c, rfl | ⟨i, hi, rfl⟩⟩ := hr
    · cases hv
      exact after c u u (self u)
    · exact before c u v (he hi hv)
  have edge {x : SckEdge} {u v : State} (h : exec (.commandByte (.edge x)) u = .next v) : R u v := by
    obtain ⟨r, hr, same | driven⟩ := commandEdge_spec x u
    · exact clocked hr (same.symm.trans h)
    · cases r with
      | next w =>
        cases driven.symm.trans h
        exact after _ u w (clocked hr rfl)
      | fault f => cases f
      | refused f => cases driven.symm.trans h
  unfold step at e
  split at e
  · cases e
    exact ht s
  · rename_i c rest _
    refine queue s rest t ?_
    by_cases isEdge : ∃ x, c = .commandByte (.edge x)
    · obtain ⟨x, rfl⟩ := isEdge
      exact edge e
    · exact he (fun x hx => isEdge ⟨x, hx⟩) e

theorem step_follows {s t : State} (e : step s = .next t) : Follows s t := by
  have tick_follows (s : State) : Follows s (tick s) := by
    have line := tick_sameLine s
    exact (Carries.of_fields line.layout line.tracker line.callList (by simp only [tick_keeps])).follows
  have clock (c : PlantClock) (s : State) : SameSets s (setPlantClock c s) := .of_fields rfl rfl rfl rfl
  exact step_relates (fun s q t h => h.before (.of_fields rfl rfl rfl rfl)) (fun c s t h => h.before (clock c s))
    (fun c s t h => h.after (clock c t)) (fun s => (Carries.refl s).follows) tick_follows exec_follows e

/-! ### The causes (R176) -/

theorem CausesCurrent.congr {s t : State} (h : s.CausesCurrent)
    (calls : (t.callList.calls.any fun c => 3 ≤ c.level) = s.callList.calls.any fun c => 3 ≤ c.level)
    (layout : t.layout = s.layout) (tracker : t.tracker = s.tracker) (alert : t.alert = s.alert) : t.CausesCurrent := by
  unfold State.CausesCurrent State.presentCauses at h ⊢
  rw [alert, h, calls, layout, tracker]

/-- An acknowledgement raises no call (R55). -/
theorem acknowledge_causesCurrent {s : State} (h : s.CausesCurrent) (c : Call) (source : AckSource) (id : Nat) :
    (acknowledge c source id s).CausesCurrent := by
  refine CausesCurrent.congr h ?_ rfl rfl rfl
  have level (x : Call) : (if x.number = c.number then { x with
      ack := some ⟨source, id, s.timer.runClock⟩, grace := s.callList.policy.grace } else x).level = x.level := by
    split <;> rfl
  simp [acknowledge, CallList.update, Function.comp_def, level]

theorem leaderAckRule_causesCurrent (fr : Frame) (apply : State → State × LineResult)
    (e : leaderAckRule fr = some apply) (s : State) (h : s.CausesCurrent) : (apply s).1.CausesCurrent := by
  unfold leaderAckRule at e
  split at e <;> cases e
  unfold applyLeaderAck
  split
  · exact h
  · split
    · exact h
    · split
      · exact h
      · exact acknowledge_causesCurrent h _ _ _

theorem applyAckCall_causesCurrent (number responder : Nat) (s : State) (h : s.CausesCurrent) :
    (applyAckCall number responder s).1.CausesCurrent := by
  unfold applyAckCall
  split
  · exact h
  · split
    · exact h
    · split
      · exact h
      · exact acknowledge_causesCurrent h _ _ _

/-- A command that is no event of the centre keeps the cause set current where its rule does. -/
theorem commandEvent_causesCurrent {c : PlantCommand} {rule : CommandRule}
    (hr : ∀ s, s.CausesCurrent → (rule s).1.CausesCurrent) {s t : State} (h : s.CausesCurrent)
    (e : event (takeCommand c rule) s = .next t) : t.CausesCurrent :=
  event_keeps (fun s h => takeCommand_keeps
      (fun s l h => CausesCurrent.congr h (by simp) (by simp) (by simp) (by simp))
      (fun _ h => serve_causesCurrent h) (fun _ _ h => h) hr s h)
    (fun _ h => serve_causesCurrent h) h e

/-- Every command but an edge of SCK leaves the cause set holding the causes present. -/
theorem exec_causesCurrent {c : Instr} {s t : State} (hc : ∀ e, c ≠ .commandByte (.edge e)) (h : s.CausesCurrent)
    (e : exec c s = .next t) : t.CausesCurrent := by
  cases c
  case hardReset input =>
    have next := (execHardReset_next input s).symm.trans e
    dsimp only at next
    split at next <;> cases next
    · exact reset_causesCurrent
    · exact h
  case leaderAck =>
    exact event_keeps (fun s h => takeFrame_keeps (fun _ _ h => h) leaderAckRule_causesCurrent s h)
      (fun _ h => serve_causesCurrent h) h e
  case ackCall number responder => exact commandEvent_causesCurrent (applyAckCall_causesCurrent _ _) h e
  case writePolicy thresholds grace => exact commandEvent_causesCurrent (fun _ h => h) h e
  case commandByte input =>
    cases input with
    | byte code => exact (exec_state_causes (c := .commandByte (.byte code)) e rfl).2 h
    | edge edge => exact absurd rfl (hc edge)
  case step | xstopChange | stallMonitorSecond | shiftTimerSecond | closeCompletion | callSecond | pull | release
  | leaderReset | bufferSet | countAdjust | lineShiftStart | commitPlan | plantShiftStart | shiftClose | clearCall
  | writeLayoutZone | writeLayoutStation => exact centreEvent_causesCurrent h e
  all_goals exact (exec_state_causes e rfl).2 h

theorem step_causesCurrent {s t : State} (h : s.CausesCurrent) (e : step s = .next t) : t.CausesCurrent := by
  have tick_causes (s : State) (h : s.CausesCurrent) : (tick s).CausesCurrent := by
    have line := tick_sameLine s
    exact CausesCurrent.congr h (by rw [line.callList]) line.layout line.tracker (by simp only [tick_keeps])
  exact step_keeps_of_rows (I := State.CausesCurrent) (fun _ _ h => h) (fun _ _ h => h) tick_causes exec_causesCurrent
    h e

/-- Settles O11: every step's part is `step_follows` and `step_causesCurrent`; the derived sets are the only ones that
meet the conditions (`setsCurrent_iff_meets`), and each other clause is a flag of the state read off. -/
theorem stepKeepsStopSetsAndAlertCausesDerived : Obligations.StepKeepsStopSetsAndAlertCausesDerived := by
  refine ⟨fun s t h e => (step_follows e).sets h, fun s t h e => step_causesCurrent h e, fun s => ?_⟩
  refine ⟨(setsCurrent_iff_meets s).trans (meets_iff s _), zstop_iff s, fun k => ?_, fun t e k => ?_,
    causesCurrent_iff s, asserted_iff s.alert⟩
  · rw [qualifies_iff, zstop_iff]
  · exact ⟨(step_follows e).withdrawn k, (step_follows e).stops k, (step_follows e).starts k⟩

end Sys2Proof.Machine
end

section
/-! What an event that settles the Tracker leaves, taken whole, and the roles it requests (R24, R31, R161). -/

namespace Sys2Proof.Machine

/-! ### The roles that changes request (R161) -/

theorem mem_changeRoles (r : Role) (s t : State) :
    r ∈ changeRoles s t ↔
      SetsChange s t ∧ (r = .stations ∨ r = .ticker) ∨ StallChanges s t ∧ r = .stations ∨
      t.timer.state ≠ s.timer.state ∧ (r = .banner ∨ r = .clock) ∨
      t.timer.clock / 60 ≠ s.timer.clock / 60 ∧ r = .clock ∨
      (ShownFiguresChange s t ∨ t.lineLostCars ≠ s.lineLostCars) ∧ r = .pace := by
  have mem_if (p : Prop) [Decidable p] (l : List Role) : (r ∈ if p then l else []) ↔ p ∧ r ∈ l := by
    split <;> simp_all
  simp only [changeRoles, List.mem_append, mem_if, List.mem_cons, List.not_mem_nil, or_false, or_assoc]

/-- Where neither the shift nor the figures changed, the sets and STALL alone request. -/
theorem mem_changeRoles_of_tracker {s t : State} (timer : t.timer = s.timer) (pace : t.pace = s.pace)
    (loss : t.loss = s.loss) (r : Role) :
    r ∈ changeRoles s t ↔
      SetsChange s t ∧ (r = .stations ∨ r = .ticker) ∨ StallChanges s t ∧ r = .stations := by
  have cars : t.lineLostCars = s.lineLostCars := by simp only [State.lineLostCars, State.lostCars, timer, loss]
  simp [mem_changeRoles, ShownFiguresChange, timer, pace, cars]

/-- Zones, shift and figures as they were request no role. -/
theorem not_mem_changeRoles {s t : State} (zones : t.tracker.zones = s.tracker.zones) (timer : t.timer = s.timer)
    (pace : t.pace = s.pace) (loss : t.loss = s.loss) (r : Role) : r ∉ changeRoles s t := by
  simp [mem_changeRoles_of_tracker timer pace loss, SetsChange, StallChanges, zones]

/-! ### What settling requests (R24, R31) -/

@[simp] theorem requalified_stall_eq_true (z : ZoneState) (before now : Bool) :
    (z.requalified before now).stall = true → z.stall = true := by
  unfold ZoneState.requalified
  split <;> simp

/-- Settling clears STALL at most, and requests STATIONS where it does (R31). -/
theorem stallCleared_settleTracker (old w : State) :
    stallCleared (rederive w) (settleTracker old w) = decide (StallChanges w (settleTracker old w)) := by
  have stall (k : Fin 6) : ((rederive w).tracker.zones.at_ k).stall = (w.tracker.zones.at_ k).stall := by
    simp [rederive_zone]
  have clears (k : Fin 6) (h : ((settleTracker old w).tracker.zones.at_ k).stall = true) :
      (w.tracker.zones.at_ k).stall = true := by
    rw [settleTracker_zone] at h
    simpa using requalified_stall_eq_true _ _ _ h
  have changes (k : Fin 6) : ((w.tracker.zones.at_ k).stall = true ∧
      ((settleTracker old w).tracker.zones.at_ k).stall = false) ↔
        ((settleTracker old w).tracker.zones.at_ k).stall ≠ (w.tracker.zones.at_ k).stall := by
    have := clears k
    cases h : ((settleTracker old w).tracker.zones.at_ k).stall <;>
      cases h' : (w.tracker.zones.at_ k).stall <;> simp_all
  rw [Bool.eq_iff_iff]
  simp [stallCleared, stall, changes]

/-- A changed set requests STATIONS and TICKER, a STALL cleared requests STATIONS (R24, R31). -/
theorem settleTracker_requests (old w : State) (r : Role) :
    (settleTracker old w).engine.requests.has r = true ↔
      w.engine.requests.has r = true ∨ SetsChange w (settleTracker old w) ∧ (r = .stations ∨ r = .ticker) ∨
        StallChanges w (settleTracker old w) ∧ r = .stations := by
  have reasons (k : Fin 6) : ((settleTracker old w).tracker.zones.at_ k).reasons =
      ((rederive w).tracker.zones.at_ k).reasons := by
    simp [settleTracker, requalify_zone]
  have sets : SetsChange w (rederive w) ↔ SetsChange w (settleTracker old w) := by simp only [SetsChange, reasons]
  have stalls : stallCleared (rederive w) (requalify old (rederive w)) =
      decide (StallChanges w (settleTracker old w)) := stallCleared_settleTracker old w
  conv_lhs => rw [settleTracker, requalify_requests, rederive_requests, stalls]
  by_cases change : SetsChange w (settleTracker old w)
  · simp [sets, change, or_assoc]
  · simp [sets, change]

/-! ### An event that settles the Tracker, taken whole -/

/-- What an event leaves in `t` that began in `s` and settles the Tracker of `w`: the sets, the causes, the intensity and
the regions follow, and nothing else but the Line Port changes from `w`. -/
structure SettledEvent (s w t : State) : Prop where
  settled : Settled w.tracker.zones.at_ s t
  sets : t.SetsCurrent
  causes : t.CausesCurrent
  buffers : t.tracker.buffers = w.tracker.buffers
  xstop : t.tracker.xstop = w.tracker.xstop
  rest : { t with
    tracker := w.tracker, line := w.line, engine := w.engine, alert := w.alert, tiles := w.tiles } = w
  requested : ∀ roles, (∀ r, r ∈ roles ↔ w.engine.requests.has r = true ∨
      SetsChange w t ∧ (r = .stations ∨ r = .ticker) ∨ StallChanges w t ∧ r = .stations) →
    RequestedOnly roles s t ∧ OnlyEchoes s t

/-- Where only settling has changed zones, and neither the shift nor the figures have changed, an event requests the
roles of what changed and those it has latched itself. -/
theorem SettledEvent.requested_changes {s w t : State} (h : SettledEvent s w t) {latched : List Role}
    (zones : w.tracker.zones = s.tracker.zones) (timer : w.timer = s.timer) (pace : w.pace = s.pace)
    (loss : w.loss = s.loss) (latch : ∀ r, w.engine.requests.has r = true ↔ r ∈ latched) :
    RequestedOnly (changeRoles s t ++ latched) s t ∧ OnlyEchoes s t := by
  refine h.requested _ fun r => ?_
  have timer' : t.timer = s.timer := (congrArg State.timer h.rest :).trans timer
  have pace' : t.pace = s.pace := (congrArg State.pace h.rest :).trans pace
  have loss' : t.loss = s.loss := (congrArg State.loss h.rest :).trans loss
  rw [List.mem_append, mem_changeRoles_of_tracker timer' pace' loss', latch, or_comm]
  simp only [SetsChange, StallChanges, zones]

theorem settledEvent {s w u : State} (engine : { w.engine with requests := .none } = s.engine)
    (alert : w.alert = s.alert) (tiles : w.tiles = s.tiles)
    (hu : { u with line := w.line } = settleTracker s w) : SettledEvent s w (serve (decideAlert s u)) := by
  obtain ⟨line, rfl⟩ : ∃ line, u = { settleTracker s w with line := line } := ⟨u.line, by rw [← hu]⟩
  have after : SameInputs (settleTracker s w) (serve (decideAlert s { settleTracker s w with line := line })) := by
    constructor <;> simp
  have zones : (serve (decideAlert s { settleTracker s w with line := line })).tracker.zones =
      (settleTracker s w).tracker.zones := by simp
  have inputs := settleTracker_inputs s w
  refine ⟨(settleTracker_settled s w).congr after zones, SetsCurrent.congr (settleTracker_setsCurrent s w) after zones,
    serve_causesCurrent (decideAlert_causesCurrent s _), after.buffers.trans inputs.buffers,
    after.xstop.trans inputs.xstop, by apply State.ext <;> simp, fun roles h => ?_⟩
  have requested : RequestedOnly roles s (serve (decideAlert s { settleTracker s w with line := line })) := by
    refine requestedOnly_of_latched ?_ fun r => ?_
    · have latch := congrArg (fun e : Engine => { e with requests := Requests.none }) (settleTracker_engine s w)
      exact latch.trans engine
    · rw [Bool.eq_iff_iff, settleTracker_requests, decide_eq_true_iff, h]
      simp only [SetsChange, StallChanges, zones]
  exact ⟨requested, onlyEchoes_of_requestedOnly (by simp [alert]) (by simp [tiles]) requested⟩

end Sys2Proof.Machine
end

section
/-! BUFFER SET (R19). -/

namespace Sys2Proof.Machine

/-! ### BUFFER SET (R19) -/

theorem bufferUsed_iff (l : Layout) (b : Fin 5) : l.bufferUsed b = true ↔ b.val + 1 < l.used := decide_eq_true_iff

/-- A buffer number that is not used is refused. -/
theorem applyBufferSet_refused {buffer count : Nat} {s : State} (h : s.layout.used ≤ buffer + 1 ∨ 4 < buffer) :
    applyBufferSet buffer count s = (s, .range) := by
  unfold applyBufferSet
  split
  · rfl
  · rename_i b found
    have number : b.val = buffer := by
      unfold index at found
      split at found <;> cases found
      rfl
    have unused : ¬s.layout.bufferUsed b = true := by
      rw [bufferUsed_iff]
      omega
    rw [if_neg unused]

/-- A used buffer's number stores the count clamped to its capacity, with both slip flags clear. -/
theorem applyBufferSet_taken {i : Fin 5} {buffer count : Nat} {s : State} (hi : i.val = buffer)
    (used : buffer + 1 < s.layout.used) :
    applyBufferSet buffer count s =
      (settleTracker s (s.onBuffer i fun _ => ⟨min count (s.layout.capacity i), false, false⟩), .ok) := by
  have isUsed : s.layout.bufferUsed i = true := (bufferUsed_iff _ _).2 (by omega)
  simp only [applyBufferSet, index_of_lt hi, isUsed, if_true]

/-- The state in which a BUFFER SET settles: its frame has left the queue and its count stands in the buffer. -/
def State.withBufferSet (s : State) (rest : List Frame) (i : Fin 5) (count : Nat) : State :=
  (s.onLine fun l => { l with queue := rest }).onBuffer i fun _ => ⟨min count (s.layout.capacity i), false, false⟩

/-- Such a frame settles the Tracker and is answered on the line. -/
theorem bufferSet_settledEvent {b n : Byte} {rest : List Frame} {s : State} {i : Fin 5} (running : s.inReset = false)
    (quiet : s.Quiet) (hq : s.line.queue = .bufferSet b n :: rest) (hi : i.val = b.toNat)
    (used : b.toNat + 1 < s.layout.used) :
    ∃ t, exec .bufferSet s = .next t ∧ SettledEvent s (s.withBufferSet rest i n.toNat) t ∧
      t.line = s.line.answered rest .ok := by
  have next := centreEvent_next (takeFrame bufferSetRule) s running
  rw [takeFrame_taken hq (apply := applyBufferSet b.toNat n.toNat) rfl, applyBufferSet_taken (s := s.onLine fun l => { l with queue := rest }) hi used] at next
  have began : settleTracker (s.onLine fun l => { l with queue := rest }) (s.withBufferSet rest i n.toNat) =
      settleTracker s (s.withBufferSet rest i n.toNat) := settleTracker_of_qualifies (fun _ => rfl) _
  have latch : s.engine.requests = .none := quiet
  refine ⟨_, next, settledEvent ?_ rfl rfl ?_, ?_⟩
  · rw [← latch]
    rfl
  · rw [← began]
    apply State.ext <;> simp [State.withBufferSet]
  · simp [LinePort.answered]

/-- Settles O19: a refused frame leaves the rule's state as it is, and a taken one settles the Tracker with the buffer
replaced (`bufferSet_settledEvent`). -/
theorem bufferSetStoresClampedCount : Obligations.BufferSetStoresClampedCount := by
  intro b n rest s running quiet sets causes hq
  refine ⟨fun unused => ?_, fun i hi used => ?_⟩
  · have next := centreEvent_next (takeFrame bufferSetRule) s running
    rw [takeFrame_taken hq (apply := applyBufferSet b.toNat n.toNat) rfl,
      applyBufferSet_refused (by simpa using unused)] at next
    have decided := decideAlert_self { s with line := s.line.answered rest .range } causes
    exact next.trans (congrArg _ ((congrArg serve decided).trans (serve_quiet _ quiet)))
  · obtain ⟨t, next, event, line⟩ := bufferSet_settledEvent running quiet hq hi used
    have kept := congrArg (fun x : State => { x with tracker := s.tracker, line := s.line }) event.rest
    have latch : s.engine.requests = .none := quiet
    obtain ⟨requested, echoes⟩ := event.requested_changes (latched := []) rfl rfl rfl rfl fun r => by
      simp [State.withBufferSet, latch]
    rw [List.append_nil] at requested
    exact ⟨t, next, event.buffers, event.xstop, event.settled, event.sets, event.causes, line, requested, kept, echoes⟩

end Sys2Proof.Machine
end

section
/-! XSTOP and XALERT (R26, R177). -/

namespace Sys2Proof.Machine

/-! ### Events without a change -/

theorem requalified_same (z : ZoneState) (b : Bool) : z.requalified b b = z := by
  cases b <;> rfl

/-- Current sets that the event has not changed are settled. -/
theorem settled_of_same {s t : State} (sets : s.SetsCurrent) (zones : t.tracker.zones = s.tracker.zones)
    (derived : ∀ k, t.derivedReasons k = s.derivedReasons k) (qualifies : ∀ k, t.qualifies k = s.qualifies k) :
    Settled s.tracker.zones.at_ s t := by
  intro k
  rw [zones, derived, qualifies, requalified_same, ← sets k, withReasons_self]

theorem requestedOnly_of_same {roles : List Role} {s t : State} (engine : t.engine = s.engine)
    (none : ∀ r, r ∉ roles) : RequestedOnly roles s t := by
  refine ⟨by rw [engine], fun i => ?_⟩
  rw [if_neg fun h => none _ h.2, engine]

theorem onlyEchoes_of_same {s t : State} (engine : t.engine = s.engine) (alert : t.alert = s.alert)
    (tiles : t.tiles = s.tiles) : OnlyEchoes s t := by
  have target : t.effectiveTarget = s.effectiveTarget := by simp only [State.effectiveTarget, alert, tiles]
  refine ⟨⟨by rw [engine], fun i => by rw [engine]⟩, by rw [alert], by rw [tiles], ?_⟩
  rw [IntensityFollows, if_neg fun h => h.2 target, tiles]

/-! ### XSTOP (R26) -/

/-- A moment that takes no other level changes the filter alone. -/
theorem xstopChange_untaken {m : LevelMoment} {s : State} (running : s.inReset = false) (quiet : s.Quiet)
    (causes : s.CausesCurrent) (same : (s.tracker.xstop.afterLevel true m).taken = s.tracker.xstop.taken) :
    exec (.xstopChange m) s = .next (s.withXstop (s.tracker.xstop.afterLevel true m)) := by
  have next := centreEvent_next (giveXstop m) s running
  rw [(giveXstop_spec m s).2, if_pos same] at next
  have decided := decideAlert_self (s.withXstop (s.tracker.xstop.afterLevel true m)) causes
  exact next.trans (congrArg _ ((congrArg serve decided).trans (serve_quiet _ quiet)))

/-- A level taken settles the Tracker and requests the banner. -/
theorem xstopChange_taken {m : LevelMoment} {s : State} (running : s.inReset = false) (quiet : s.Quiet)
    (changed : (s.tracker.xstop.afterLevel true m).taken ≠ s.tracker.xstop.taken) :
    ∃ t, exec (.xstopChange m) s = .next t ∧
      SettledEvent s ((s.withXstop (s.tracker.xstop.afterLevel true m)).raise .banner) t ∧ t.line = s.line := by
  have next := centreEvent_next (giveXstop m) s running
  rw [(giveXstop_spec m s).2, if_neg changed] at next
  have latch : s.engine.requests = .none := quiet
  refine ⟨_, next, settledEvent ?_ rfl rfl ?_, by simp⟩
  · rw [← latch]
    rfl
  · apply State.ext <;> simp [State.withXstop]

/-- XSTOP enters and leaves every used zone's set with its taken level, and stops the zone (R21, R25, R26). -/
theorem xstop_in_sets {t : State} (sets : t.SetsCurrent) {k : Fin 6} (used : t.layout.zoneUsed k = true) :
    (t.tracker.zones.at_ k).reasons.xstop = t.tracker.xstop.taken ∧
      (t.tracker.xstop.taken = true → t.zstop k = true) := by
  obtain ⟨-, -, xstop⟩ := derived_base_iff t k
  rw [← sets k] at xstop
  have iff := xstop.trans (and_iff_right ((zoneUsed_iff _ _).1 used))
  exact ⟨Bool.eq_iff_iff.2 iff, fun taken => (zstop_iff t k).2 (.inl (.inr (.inr (iff.2 taken))))⟩

/-! ### XALERT (R177) -/

/-- A moment of XALERT changes its filter, and requests the banner where the level taken changes. -/
theorem xalertChange_next {m : LevelMoment} {s : State} (running : s.inReset = false) (quiet : s.Quiet) :
    ∃ t, exec (.xalertChange m) s = .next t ∧ { t with alert := s.alert, engine := s.engine } = s ∧
      t.alert = { s.alert with xalert := s.alert.xalert.afterLevel false m } ∧
      RequestedOnly (if t.alert.xalert.taken = s.alert.xalert.taken then [] else [.banner]) s t := by
  obtain ⟨alert, requests⟩ := giveXalert_spec m s
  have latch : s.engine.requests = .none := quiet
  have engine : { (giveXalert m s).engine with requests := .none } = s.engine := by
    rw [← latch]
    simp [giveXalert]
  refine ⟨_, event_next (giveXalert m) s running, ?_, by simpa using alert, ?_⟩
  · apply State.ext <;> simp [giveXalert]
  · refine serve_RequestedOnly _ engine fun r => ?_
    rw [requests, latch]
    simp only [serve_keeps, alert]
    split <;> cases r <;> simp [has_add, Role.isEngine]

/-- Settles O17: XSTOP's filter changes alone (`xstopChange_untaken`) or a taken level settles the Tracker
(`xstopChange_taken`); XALERT's taken level requests the banner (`xalertChange_next`). -/
theorem safetyStopAndXalertFollowTheirInputs : Obligations.SafetyStopAndXalertFollowTheirInputs := by
  intro m s running quiet sets causes filter
  have filtered (active : Bool) (f : PinFilter) : filter active f = f.afterLevel active m := by
    cases m with
    | taken high => cases active <;> cases high <;> rfl
    | level high =>
      obtain ⟨taken, timing⟩ := f
      cases active <;> cases high <;> cases taken <;> rfl
    | held => rfl
  have latch : s.engine.requests = .none := quiet
  rw [filtered, filtered]
  refine ⟨?_, xalertChange_next running quiet⟩
  by_cases same : (s.tracker.xstop.afterLevel true m).taken = s.tracker.xstop.taken
  · have derived := derivedReasons_xstopTimed same
    have current : (s.withXstop (s.tracker.xstop.afterLevel true m)).SetsCurrent := fun k =>
      (sets k).trans (derived k).symm
    refine ⟨_, xstopChange_untaken running quiet causes same, rfl, rfl, settled_of_same sets rfl derived fun _ => rfl,
      current, causes, fun k used => xstop_in_sets current used, fun _ => rfl, requestedOnly_of_same rfl fun r => ?_,
      rfl, onlyEchoes_of_same rfl rfl rfl⟩
    have untaken : (s.withXstop (s.tracker.xstop.afterLevel true m)).tracker.xstop.taken = s.tracker.xstop.taken := same
    rw [if_pos untaken, List.append_nil]
    exact not_mem_changeRoles rfl rfl rfl rfl r
  · obtain ⟨t, next, event, line⟩ := xstopChange_taken running quiet same
    have xstop : t.tracker.xstop = s.tracker.xstop.afterLevel true m := event.xstop
    have layout : t.layout = s.layout := (congrArg State.layout event.rest :)
    have changed : t.tracker.xstop.taken ≠ s.tracker.xstop.taken := xstop ▸ same
    obtain ⟨requested, echoes⟩ := event.requested_changes (latched := [.banner]) rfl rfl rfl rfl fun r => by
      cases r <;> simp [State.withXstop, latch, has_add, Role.isEngine]
    refine ⟨t, next, xstop, event.buffers, event.settled, event.sets, event.causes,
      fun k used => xstop_in_sets event.sets (layout ▸ used), fun h => absurd h changed, by rwa [if_neg changed], ?_, echoes⟩
    have kept := congrArg (fun x : State => { x with tracker := s.tracker, line := t.line, engine := s.engine })
      event.rest
    exact kept.trans (by rw [line]; rfl)

end Sys2Proof.Machine
end

section
/-! The stall monitor's second (R30). -/

namespace Sys2Proof.Machine

/-! ### A monitor's second of one zone (R30) -/

theorem monitorSecond_stepped {z : ZoneState} (q : Nat) (stepped : z.stepped = true) :
    z.monitorSecond true q = { z with miss := 0, stepped := false } := by
  simp [ZoneState.monitorSecond, stepped]

theorem monitorSecond_silent {z : ZoneState} (q : Nat) (silent : z.stepped = false) :
    z.monitorSecond true q =
      { z with miss := min q (z.miss + 1), stall := z.stall || decide (q ≤ min q (z.miss + 1)) } := by
  simp [ZoneState.monitorSecond, silent]

theorem monitorSecond_unqualified (z : ZoneState) (q : Nat) :
    z.monitorSecond false q = { z with miss := 0, stepped := false } := rfl

/-! ### The second taken whole -/

/-- A used zone's monitor second changes its zone alone, requests STATIONS where it sets STALL, and the causes and the
intensity follow. -/
theorem monitorSecond_next {k : Fin 6} {s : State} (running : s.inReset = false) (quiet : s.Quiet)
    (used : s.layout.zoneUsed k = true) :
    let z := s.tracker.zones.at_ k
    let z' := z.monitorSecond (s.qualifies k) (Config.stallSeconds (s.layout.zones.at_ k).stallIndex)
    ∃ t, exec (.stallMonitorSecond k) s = .next t ∧ t.tracker = { s.tracker with zones := s.tracker.zones.put k z' } ∧
      RequestedOnly (if z.stall = false ∧ z'.stall = true then [.stations] else []) s t ∧ t.CausesCurrent ∧
      { t with tracker := s.tracker, alert := s.alert, tiles := s.tiles, engine := s.engine } = s ∧
      OnlyEchoes s t := by
  intro z z'
  have next : exec (.stallMonitorSecond k) s =
      .next (serve (decideAlert s (if s.layout.zoneUsed k then monitorSecond k s else s))) :=
    centreEvent_next _ s running
  rw [if_pos used] at next
  have latch : s.engine.requests = .none := quiet
  have zone : (monitorSecond k s).tracker = { s.tracker with zones := s.tracker.zones.put k z' } := by
    simp [monitorSecond, Tab.upd, z', z]
  have requested : RequestedOnly (if z.stall = false ∧ z'.stall = true then [.stations] else []) s
      (serve (decideAlert s (monitorSecond k s))) := by
    refine requestedOnly_of_latched ?_ fun r => ?_
    · rw [← latch]
      simp [monitorSecond]
    · have latched : (monitorSecond k s).engine.requests =
          if z'.stall && !z.stall then s.engine.requests.add .stations else s.engine.requests := by
        simp [monitorSecond, z', z]
      rw [latched, latch]
      cases z.stall <;> cases z'.stall <;> cases r <;> simp [has_add, Role.isEngine]
  refine ⟨_, next, by simp [zone], requested, serve_causesCurrent (decideAlert_causesCurrent s _), ?_,
    onlyEchoes_of_requestedOnly (by simp [monitorSecond]) (by simp [monitorSecond]) requested⟩
  apply State.ext <;> simp [monitorSecond]

/-- Settles O18: the next state is `monitorSecond_next`'s, and its zone is read off R30's table row by row. -/
theorem stallMonitorCountsSilentSeconds : Obligations.StallMonitorCountsSilentSeconds := by
  intro k s running quiet causes
  refine ⟨fun unused => ?_, fun used => ?_⟩
  · have next : exec (.stallMonitorSecond k) s =
        .next (serve (decideAlert s (if s.layout.zoneUsed k then monitorSecond k s else s))) :=
      centreEvent_next _ s running
    rw [if_neg (by simp [unused]), decideAlert_self s causes, serve_quiet s quiet] at next
    exact next
  · obtain ⟨t, next, tracker, requested, current, frame, echoes⟩ := monitorSecond_next running quiet used
    have self : t.tracker.zones.at_ k = (s.tracker.zones.at_ k).monitorSecond (s.qualifies k)
        (Config.stallSeconds (s.layout.zones.at_ k).stallIndex) := by simp [tracker]
    refine ⟨t, next, ⟨fun qualifies stepped => ?_, fun qualifies silent => ?_, fun unqualified => ?_⟩,
      fun j hj => by simp [tracker, hj], by rw [tracker], current, frame, echoes⟩
    · rw [qualifies, monitorSecond_stepped _ stepped] at self requested
      exact ⟨self, requestedOnly_nil (by simpa using requested)⟩
    · rw [qualifies, monitorSecond_silent _ silent] at self requested
      have sets (q m : Nat) : ((s.tracker.zones.at_ k).stall = false ∧
          ((s.tracker.zones.at_ k).stall || decide (q ≤ m)) = true) ↔
            (s.tracker.zones.at_ k).stall = false ∧ q ≤ m := and_congr_right fun clear => by simp [clear]
      rw [if_congr (sets _ _) rfl rfl] at requested
      exact ⟨self, requested⟩
    · rw [unqualified, monitorSecond_unqualified] at self requested
      exact ⟨self, requestedOnly_nil (by simpa using requested)⟩

end Sys2Proof.Machine
end

section
/-! A car counted at the end of the line, and a step taken whole (R14 to R20, R79). -/

namespace Sys2Proof.Machine

/-! ### A car counted at the end of the line (R20, R79) -/

/-- The figures look at the clocks, the plan and the Pace Unit alone. -/
theorem computeFigures_congr {s t : State} (timer : t.timer = s.timer) (pace : t.pace = s.pace) :
    t.computeFigures = s.computeFigures := by
  simp only [State.computeFigures, timer, pace]

/-- The Pace Unit with one more car, its figures computed (R88, R91). -/
def State.paceCounted (s : State) : PaceUnit :=
  { s.pace with
    actual := s.pace.actual + 1
    figures := { s with pace := { s.pace with actual := s.pace.actual + 1 } }.computeFigures }

/-- A car that no open shift counts, or that finds the count at its bound, changes nothing. -/
theorem carCounted_uncounted {s : State} (h : s.timer.state.isOpen = false ∨ 9999 ≤ s.pace.actual) : carCounted s = s := by
  refine if_neg fun counted => ?_
  rcases h with closed | full
  · simp [closed] at counted
  · exact absurd counted.2 (Nat.not_lt.2 full)

/-- A car that is counted: the count and the figures, a PACE request where a shown figure changes (R88), and what the
target test makes of them (R79). -/
theorem carCounted_counted {s : State} (running : s.timer.state.isOpen = true) (room : s.pace.actual < 9999) :
    ∃ e : Engine, { e with requests := s.engine.requests } = s.engine ∧
      (∀ r, e.requests.has r = true ↔
        s.engine.requests.has r = true ∨ s.pace.figures.sameShown s.paceCounted.figures = false ∧ r = .pace) ∧
      carCounted s = announced s (targetTest { s with pace := s.paceCounted, engine := e }) := by
  have figures : (s.onPace fun u => { u with actual := s.pace.actual + 1 }).computeFigures = s.paceCounted.figures := rfl
  have counted : recompute (s.onPace fun u => { u with actual := s.pace.actual + 1 }) =
      { s with
        pace := s.paceCounted
        engine := (recompute (s.onPace fun u => { u with actual := s.pace.actual + 1 })).engine } := by
    apply State.ext <;> simp [recompute, figures]
    rfl
  refine ⟨(recompute (s.onPace fun u => { u with actual := s.pace.actual + 1 })).engine, by simp [recompute],
    fun r => ?_, ?_⟩
  · simp only [recompute, raiseIf_engine, onPace_fields, figures]
    cases s.pace.figures.sameShown s.paceCounted.figures <;> cases r <;> simp [has_add, Role.isEngine]
  · rw [← counted]
    exact if_pos ⟨running, room⟩

/-! ### A car completed (R16, R20, R79) -/

/-- A car that is not counted moves the buffers alone. -/
theorem carCompleted_uncounted {k : Fin 6} {s : State}
    (h : k.val + 1 ≠ s.layout.used ∨ s.timer.state.isOpen = false ∨ 9999 ≤ s.pace.actual) :
    carCompleted k s = s.withBuffers (s.bufferMoved k) := by
  refine ite_eq_right_iff.2 fun last => carCounted_uncounted ?_
  simpa [last] using h

/-- A car of the last zone is counted with its buffers moved. -/
theorem carCompleted_counted {k : Fin 6} {s : State} (last : k.val + 1 = s.layout.used) :
    carCompleted k s = carCounted (s.withBuffers (s.bufferMoved k)) := if_pos last

theorem stepTaken_within {k : Fin 6} {s : State}
    (h : (s.tracker.zones.at_ k).accumulator + 1 < (s.layout.zones.at_ k).pitch) : stepTaken k s = stepCounted k s :=
  if_neg (by simpa [completesCar] using h)

theorem stepTaken_completes {k : Fin 6} {s : State}
    (h : (s.layout.zones.at_ k).pitch ≤ (s.tracker.zones.at_ k).accumulator + 1) :
    stepTaken k s = carCompleted k (stepCounted k s) :=
  if_pos (by simpa [completesCar] using h)

/-! ### The step taken whole -/

/-- The state a step begins in: the pulse taken by its PITCH filter (R14). -/
def State.pulsed (k : Fin 6) (s : State) : State := { s with pitch := s.pitch.put k ⟨true, false⟩ }

@[simp] theorem pulsed_fields (k : Fin 6) (s : State) :
      (s.pulsed k).conditions = s.conditions ∧
      (s.pulsed k).straps = s.straps ∧
      (s.pulsed k).pitch = s.pitch.put k ⟨true, false⟩ ∧
      (s.pulsed k).layout = s.layout ∧
      (s.pulsed k).stations = s.stations ∧
      (s.pulsed k).tracker = s.tracker ∧
      (s.pulsed k).callList = s.callList ∧
      (s.pulsed k).timer = s.timer ∧
      (s.pulsed k).pace = s.pace ∧
      (s.pulsed k).loss = s.loss ∧
      (s.pulsed k).archive = s.archive ∧
      (s.pulsed k).history = s.history ∧
      (s.pulsed k).line = s.line ∧
      (s.pulsed k).plant = s.plant ∧
      (s.pulsed k).frame = s.frame ∧
      (s.pulsed k).engine = s.engine ∧
      (s.pulsed k).tiles = s.tiles ∧
      (s.pulsed k).alert = s.alert ∧
      (s.pulsed k).pending = s.pending :=
    ⟨rfl, rfl, rfl, rfl, rfl, rfl, rfl, rfl, rfl, rfl, rfl, rfl, rfl, rfl, rfl, rfl, rfl, rfl, rfl⟩

/-- A qualified pulse of a used zone is a step, settled once. -/
theorem step_next {k : Fin 6} {m : PitchMoment} {s : State} (running : s.inReset = false)
    (used : s.layout.zoneUsed k = true) (pulse : m = .pulse ∨ m = .held ∧ s.pitch.at_ k = ⟨false, true⟩) :
    exec (.step ⟨k, m⟩) s = .next (serve (decideAlert s (settleTracker s (stepTaken k (s.pulsed k))))) := by
  have next : exec (.step ⟨k, m⟩) s = .next (serve (decideAlert s (givePitch k m s))) := centreEvent_next _ s running
  have filter : s.onPitch k (PinFilter.afterPitch m) = s.pulsed k := by
    rcases pulse with rfl | ⟨rfl, low⟩
    · rfl
    · simp [State.onPitch, Tab.upd, low, PinFilter.afterPitch, PinFilter.settled, State.pulsed]
  have qualifies : (s.pitch.at_ k).qualifies m = true := by
    rcases pulse with rfl | ⟨rfl, low⟩
    · rfl
    · simp [low, PinFilter.qualifies]
  rw [next, (givePitch_spec k m s).2, if_pos ⟨qualifies, used⟩, filter, stepZone_eq,
    settleTracker_of_qualifies (old := s.pulsed k) (s := s) fun _ => rfl]

end Sys2Proof.Machine
end

section
/-! What a step's car leaves of the buffers, the count and the shift (R16, R17, R20, R79). -/

namespace Sys2Proof.Machine

/-! ### What a completed car leaves (R17, R20, R79) -/

/-- The buffers' table, a delivery and a draw written out (R17). -/
theorem bufferMoved_table (s : State) (k : Fin 6) (b : Fin 5) :
    s.bufferMoved k b =
      let x := s.tracker.buffers.at_ b
      if s.layout.bufferUsed b = true ∧ upstreamZone b = k then
        if x.count < s.layout.capacity b then ⟨x.count + 1, x.overSlip, x.underSlip⟩
        else ⟨x.count, true, x.underSlip⟩
      else if s.layout.bufferUsed b = true ∧ downstreamZone b = k then
        if x.count = 0 then ⟨0, x.overSlip, true⟩ else ⟨x.count - 1, x.overSlip, x.underSlip⟩
      else x := by
  have draw : (s.tracker.buffers.at_ b).draw =
      if (s.tracker.buffers.at_ b).count = 0 then
        ⟨0, (s.tracker.buffers.at_ b).overSlip, true⟩
      else ⟨(s.tracker.buffers.at_ b).count - 1, (s.tracker.buffers.at_ b).overSlip,
        (s.tracker.buffers.at_ b).underSlip⟩ := by
    refine ite_congr rfl (fun empty => ?_) fun _ => rfl
    rw [← empty]
  unfold State.bufferMoved
  rw [draw]
  rfl

theorem carCounted_pace {s : State} (open_ : s.timer.state.isOpen = true) (room : s.pace.actual < 9999) :
    (carCounted s).pace = s.paceCounted := by
  obtain ⟨engine, -, -, counted⟩ := carCounted_counted open_ room
  rw [counted]
  simp

/-- What the target test leaves of a counted car where the target is met: the close starts (R79, R80). -/
theorem carCounted_closes {s : State} (running : s.timer.state = .overtime) (room : s.pace.actual < 9999)
    (met : s.paceCounted.figures.g ≤ s.pace.actual + 1) :
    (carCounted s).timer = { s.timer with state := .closing } ∧
      (carCounted s).archive =
        ⟨s.archive.slots.put s.archive.following
          (.writing ({ s with pace := s.paceCounted }.snapshot .targetMet)), some s.archive.following⟩ ∧
      (carCounted s).plant = { s.plant with transaction := s.plant.transaction.slotTaken s.archive.following } := by
  obtain ⟨engine, -, -, counted⟩ := carCounted_counted (s := s) (by rw [running]; rfl) room
  have closes : targetTest { s with pace := s.paceCounted, engine := engine } =
      startClose .targetMet { s with pace := s.paceCounted, engine := engine } := if_pos ⟨running, met⟩
  rw [counted, closes]
  simp only [announced_keeps]
  exact ⟨rfl, rfl, rfl⟩

/-- A counted car that meets no target in OVERTIME leaves the shift as it is. -/
theorem carCounted_stays {s : State} (open_ : s.timer.state.isOpen = true) (room : s.pace.actual < 9999)
    (unmet : ¬(s.timer.state = .overtime ∧ s.paceCounted.figures.g ≤ s.pace.actual + 1)) :
    (carCounted s).timer = s.timer ∧ (carCounted s).archive = s.archive ∧ (carCounted s).plant = s.plant := by
  obtain ⟨engine, -, -, counted⟩ := carCounted_counted open_ room
  have stays : targetTest { s with pace := s.paceCounted, engine := engine } =
      { s with pace := s.paceCounted, engine := engine } := if_neg unmet
  rw [counted, stays]
  simp only [announced_keeps, and_self]

/-- The state of a step that completes a car, before the car is counted. -/
def State.carStepped (k : Fin 6) (s : State) : State :=
  (stepCounted k (s.pulsed k)).withBuffers ((stepCounted k (s.pulsed k)).bufferMoved k)

theorem carStepped_shift (k : Fin 6) (s : State) :
    (s.carStepped k).timer = s.timer ∧ (s.carStepped k).pace = s.pace ∧ (s.carStepped k).archive = s.archive ∧
      (s.carStepped k).plant = s.plant := by
  simp [State.carStepped]

theorem carStepped_paceCounted (k : Fin 6) (s : State) : (s.carStepped k).paceCounted = s.paceCounted := by
  simp [State.carStepped, State.paceCounted, State.computeFigures]

/-- A step moves calls, not how many there are, so a snapshot after it is that of the state it began in. -/
theorem carStepped_snapshot (k : Fin 6) (u : PaceUnit) (r : CloseReason) (s : State) :
    { s.carStepped k with pace := u }.snapshot r = { s with pace := u }.snapshot r := by
  simp [State.carStepped, State.snapshot, State.lineLostCars, State.lostCars]

/-- What a step leaves of the buffers, the count and the shift is what it leaves before the Tracker settles. -/
theorem step_leaves {k : Fin 6} {m : PitchMoment} {s : State} (running : s.inReset = false)
    (used : s.layout.zoneUsed k = true) (pulse : m = .pulse ∨ m = .held ∧ s.pitch.at_ k = ⟨false, true⟩) :
    ∃ t, exec (.step ⟨k, m⟩) s = .next t ∧
      t.tracker.buffers = (stepTaken k (s.pulsed k)).tracker.buffers ∧ t.pace = (stepTaken k (s.pulsed k)).pace ∧
      t.timer = (stepTaken k (s.pulsed k)).timer ∧ t.archive = (stepTaken k (s.pulsed k)).archive ∧
      t.plant = (stepTaken k (s.pulsed k)).plant := by
  refine ⟨_, step_next running used pulse, ?_, by simp, by simp, by simp, by simp⟩
  simpa using (settleTracker_inputs s (stepTaken k (s.pulsed k))).buffers

/-- Settles O16: the buffers, the count and the shift are those `stepTaken` leaves, case by case. -/
theorem stepHandsCarsToBuffersAndActualCount : Obligations.StepHandsCarsToBuffersAndActualCount := by
  intro k m s running used pulse
  obtain ⟨t, next, buffers, pace, timer, archive, plant⟩ := step_leaves running used pulse
  refine ⟨t, next, fun within => ?_, fun completes => ?_⟩
  · rw [buffers, pace, timer, archive, plant, stepTaken_within (by simpa using within)]
    simp
  · rw [stepTaken_completes (by simpa using completes)] at buffers pace timer archive plant
    refine ⟨fun b => ?_, fun uncounted => ?_, fun last open_ room => ?_⟩
    · have moved : t.tracker.buffers.at_ b = (stepCounted k (s.pulsed k)).bufferMoved k b := by
        simp [buffers]
      rw [moved, bufferMoved_table]
      simp
    · rw [pace, timer, archive, plant, carCompleted_uncounted (by simpa using uncounted)]
      simp
    · rw [carCompleted_counted (by simpa using last), ← State.carStepped] at pace timer archive plant
      obtain ⟨timer', pace', archive', plant'⟩ := carStepped_shift k s
      have counted := carStepped_paceCounted k s
      have running' : (s.carStepped k).timer.state.isOpen = true := timer' ▸ open_
      have room' : (s.carStepped k).pace.actual < 9999 := pace' ▸ room
      have count : t.pace = s.paceCounted := (pace.trans (carCounted_pace running' room')).trans counted
      refine ⟨count, fun met => ?_, fun unmet => ?_⟩
      · rw [count] at met
        obtain ⟨closing, taken, cut⟩ := carCounted_closes (s := s.carStepped k) (timer' ▸ met.1) room'
          (by rw [counted, pace']; exact met.2)
        rw [timer'] at closing
        rw [counted, carStepped_snapshot, archive'] at taken
        rw [plant', archive'] at cut
        rw [archive, count, taken]
        exact ⟨timer.trans closing, rfl, rfl, plant.trans cut⟩
      · rw [count, ← counted, ← timer', ← pace'] at unmet
        obtain ⟨timer'', archive'', plant''⟩ := carCounted_stays running' room' unmet
        exact ⟨timer.trans (timer''.trans timer'), archive.trans (archive''.trans archive'),
          plant.trans (plant''.trans plant')⟩

end Sys2Proof.Machine
end

section
/-! A moment of a PITCH input: the filter, and the step with its zone, its calls and the roles it requests (R14, R15, R27, R28, R43, R44). -/

namespace Sys2Proof.Machine

/-! ### Roles latched (R161) -/

/-- From engine `e` to engine `f` the latch takes these roles, and nothing else of the engine changes. -/
structure Latches (roles : Role → Prop) (e f : Engine) : Prop where
  rest : { f with requests := e.requests } = e
  has : ∀ r, f.requests.has r = true ↔ e.requests.has r = true ∨ roles r

theorem Latches.refl (e : Engine) : Latches (fun _ => False) e e := ⟨rfl, by simp⟩

theorem Latches.trans {p q : Role → Prop} {e f g : Engine} (h : Latches p e f) (h' : Latches q f g) :
    Latches (fun r => p r ∨ q r) e g := by
  refine ⟨?_, fun r => by rw [h'.has, h.has, or_assoc]⟩
  have rest := congrArg (fun x : Engine => { x with requests := e.requests }) h'.rest
  exact rest.trans h.rest

theorem Latches.congr {p q : Role → Prop} {e f : Engine} (h : Latches p e f) (same : ∀ r, p r ↔ q r) :
    Latches q e f := ⟨h.rest, fun r => by rw [h.has, same]⟩

theorem raise_latches {role : Role} (engine : role.isEngine = true) (s : State) :
    Latches (· = role) s.engine (s.raise role).engine := by
  refine ⟨rfl, fun r => ?_⟩
  simp [State.raise, has_add, engine, eq_comm (a := r)]

theorem raiseIf_latches {role : Role} (engine : role.isEngine = true) (b : Bool) (s : State) :
    Latches (fun r => b = true ∧ r = role) s.engine (s.raiseIf b role).engine := by
  cases b
  · simpa [State.raiseIf] using Latches.refl s.engine
  · simpa [State.raiseIf] using raise_latches engine s

/-- A change of shift state requests BANNER and CLOCK (R68). -/
theorem announced_latches (old s : State) :
    Latches (fun r => s.timer.state ≠ old.timer.state ∧ (r = .banner ∨ r = .clock)) s.engine (announced old s).engine := by
  unfold announced
  split
  · rename_i same
    simpa [same] using Latches.refl s.engine
  · rename_i change
    simpa [change] using (raise_latches rfl s).trans (raise_latches rfl (s.raise .banner))

/-- A change in the Call List requests STATIONS and TICKER (R43, R44). -/
theorem stepCalls_latches (k : Fin 6) (s : State) :
    Latches (fun r => (s.callList.calls.any fun c => c.entersHold k) = true ∧ (r = .stations ∨ r = .ticker)) s.engine
      (stepCalls k s).engine := by
  unfold stepCalls
  dsimp only
  split
  · rename_i change
    simpa [change, raiseCallChange] using (raise_latches rfl s).trans (raise_latches rfl (s.raise .stations))
  · rename_i none
    simpa [none] using Latches.refl s.engine

/-! ### What a step requests before the Tracker settles -/

theorem sameShown_self (f : Figures) : f.sameShown f = true := by simp [Figures.sameShown]

theorem sameShown_eq_false_iff (s t : State) :
    s.pace.figures.sameShown t.pace.figures = false ↔ ShownFiguresChange s t := by
  rw [← Bool.not_eq_true, ShownFiguresChange, ne_comm, ne_comm (a := t.pace.figures.g),
    ne_comm (a := t.pace.figures.shownActual), ne_comm (a := max _ _), ne_comm (a := t.pace.figures.pace)]
  simp only [Figures.sameShown, Bool.and_eq_true, decide_eq_true_iff, not_and_or, ne_eq, or_assoc]
  exact Iff.rfl

/-- A car counted requests PACE for a shown figure, and BANNER and CLOCK where the target closes the shift. -/
theorem carCounted_latches (s : State) :
    Latches (fun r => ShownFiguresChange s (carCounted s) ∧ r = .pace ∨
      (carCounted s).timer.state ≠ s.timer.state ∧ (r = .banner ∨ r = .clock)) s.engine (carCounted s).engine := by
  by_cases counted : s.timer.state.isOpen = true ∧ s.pace.actual < 9999
  · obtain ⟨open_, room⟩ := counted
    obtain ⟨e, rest, has, counted⟩ := carCounted_counted open_ room
    have figures : Latches (fun r => ShownFiguresChange s (carCounted s) ∧ r = .pace) s.engine e := by
      refine ⟨rest, fun r => ?_⟩
      rw [has, ← sameShown_eq_false_iff, carCounted_pace open_ room]
    have state := announced_latches s (targetTest { s with pace := s.paceCounted, engine := e })
    have timer := congrArg (fun x : State => x.timer.state) counted
    simp only [announced_keeps, targetTest_keeps] at timer state
    rw [← timer, ← counted] at state
    exact figures.trans state
  · have same : carCounted s = s := if_neg counted
    rw [same]
    exact (Latches.refl s.engine).congr fun r => by simp [ShownFiguresChange]

/-- A step that ends a stall requests STATIONS, one that ends a countdown STATIONS and TICKER (R31, R44). -/
theorem stepCounted_latches (k : Fin 6) (s : State) :
    Latches (fun r => (s.tracker.zones.at_ k).stall = true ∧ r = .stations ∨
      (s.callList.calls.any fun c => c.entersHold k) = true ∧ (r = .stations ∨ r = .ticker)) s.engine
      (stepCounted k s).engine := by
  have stall := raiseIf_latches (role := .stations) rfl (s.tracker.zones.at_ k).stall
    (s.onZone k fun z => z.afterStep (s.layout.zones.at_ k) (s.zstop k))
  have calls := stepCalls_latches k ((s.onZone k fun z =>
    z.afterStep (s.layout.zones.at_ k) (s.zstop k)).raiseIf (s.tracker.zones.at_ k).stall .stations)
  simp only [raiseIf_keeps] at calls
  exact stall.trans calls

/-- A step's zone and calls, its buffers, and the car it counts where it counts one. -/
theorem stepTaken_cases (k : Fin 6) (s : State) :
    ∃ f, stepTaken k s = (stepCounted k s).withBuffers f ∨ stepTaken k s = carCounted ((stepCounted k s).withBuffers f) := by
  unfold stepTaken carCompleted
  split
  · refine ⟨(stepCounted k s).bufferMoved k, ?_⟩
    dsimp only
    split
    · exact .inr rfl
    · exact .inl rfl
  · exact ⟨_, .inl (withBuffers_self fun _ => rfl)⟩

/-- What a step requests before the Tracker settles. -/
theorem stepTaken_latches (k : Fin 6) (s : State) :
    Latches (fun r => ((s.tracker.zones.at_ k).stall = true ∧ r = .stations ∨
        (s.callList.calls.any fun c => c.entersHold k) = true ∧ (r = .stations ∨ r = .ticker)) ∨
      (ShownFiguresChange s (stepTaken k s) ∧ r = .pace ∨
        (stepTaken k s).timer.state ≠ s.timer.state ∧ (r = .banner ∨ r = .clock))) s.engine
      (stepTaken k s).engine := by
  have counted := stepCounted_latches k s
  have still (w : State) (pace : w.pace = s.pace) (timer : w.timer = s.timer) (r : Role) :
      ¬(ShownFiguresChange s w ∧ r = .pace ∨ w.timer.state ≠ s.timer.state ∧ (r = .banner ∨ r = .clock)) := by
    simp [ShownFiguresChange, pace, timer]
  obtain ⟨f, uncounted | car⟩ := stepTaken_cases k s
  · rw [uncounted]
    exact counted.congr fun r => (or_iff_left (still _ (by simp) (by simp) r)).symm
  · have latches := carCounted_latches ((stepCounted k s).withBuffers f)
    simp only [ShownFiguresChange, withBuffers_fields, stepCounted_keeps, ← car] at latches
    exact counted.trans latches

/-- A step changes nothing of the Shift Timer but its state. -/
theorem stepTaken_timer (k : Fin 6) (s : State) :
    { (stepTaken k s).timer with state := s.timer.state } = s.timer := by
  have car (w : State) : { (carCounted w).timer with state := w.timer.state } = w.timer := by
    by_cases counted : w.timer.state.isOpen = true ∧ w.pace.actual < 9999
    · by_cases met : w.timer.state = .overtime ∧ w.paceCounted.figures.g ≤ w.pace.actual + 1
      · rw [(carCounted_closes met.1 counted.2 met.2).1]
      · rw [(carCounted_stays counted.1 counted.2 met).1]
    · rw [show carCounted w = w from if_neg counted]
  obtain ⟨f, uncounted | counted⟩ := stepTaken_cases k s
  · simp [uncounted]
  · simpa [counted] using car ((stepCounted k s).withBuffers f)

/-- A step reaches one zone. -/
theorem stepTaken_zone (k j : Fin 6) (s : State) :
    (stepTaken k s).tracker.zones.at_ j =
      if j = k then (s.tracker.zones.at_ k).afterStep (s.layout.zones.at_ k) (s.zstop k)
      else s.tracker.zones.at_ j := by
  rw [stepTaken_tracker]
  by_cases e : j = k
  · subst e
    simp
  · simp [e]

/-! ### A step whole -/

/-- A step leaves its zone out of STALL, so STALL changes where the step ends one or the settling does (R31). -/
theorem stallChanges_step {k : Fin 6} {s t : State} (settled : Settled (stepTaken k s).tracker.zones.at_ s t) :
    StallChanges s t ↔ (s.tracker.zones.at_ k).stall = true ∨ StallChanges (stepTaken k s) t := by
  have own : (t.tracker.zones.at_ k).stall = false := by
    rw [← Bool.not_eq_true, settled k]
    intro stall
    simpa [stepTaken_zone, ZoneState.afterStep] using requalified_stall_eq_true _ _ _ stall
  constructor
  · rintro ⟨j, change⟩
    by_cases e : j = k
    · subst e
      exact .inl (by simpa [own] using change)
    · exact .inr ⟨j, by simpa [stepTaken_zone, e] using change⟩
  · rintro (stall | ⟨j, change⟩)
    · exact ⟨k, by simp [own, stall]⟩
    · by_cases e : j = k
      · subst e
        simp [stepTaken_zone, ZoneState.afterStep, own] at change
      · exact ⟨j, by simpa [stepTaken_zone, e] using change⟩

theorem setsChange_step (k : Fin 6) (s t : State) : SetsChange (stepTaken k s) t ↔ SetsChange s t := by
  have reasons (j : Fin 6) : ((stepTaken k s).tracker.zones.at_ j).reasons = (s.tracker.zones.at_ j).reasons := by
    rw [stepTaken_zone]
    split
    · rename_i e
      rw [e, afterStep_reasons]
    · rfl
  simp only [SetsChange, reasons]

/-- The roles a step requests: those of what changed, and of a countdown it ended (R31, R44, R68, R88). -/
theorem step_requests {k : Fin 6} {s t : State} (event : SettledEvent s (stepTaken k (s.pulsed k)) t) (quiet : s.Quiet)
    (r : Role) :
    r ∈ changeRoles s t ++
        (if (s.callList.calls.any fun c => c.entersHold k) = true then [.stations, .ticker] else []) ↔
      (stepTaken k (s.pulsed k)).engine.requests.has r = true ∨
        SetsChange (stepTaken k (s.pulsed k)) t ∧ (r = .stations ∨ r = .ticker) ∨
        StallChanges (stepTaken k (s.pulsed k)) t ∧ r = .stations := by
  have latch : s.engine.requests = .none := quiet
  have own := (stepTaken_latches k (s.pulsed k)).has r
  have timer : t.timer = (stepTaken k (s.pulsed k)).timer := (congrArg State.timer event.rest :)
  have pace : t.pace = (stepTaken k (s.pulsed k)).pace := (congrArg State.pace event.rest :)
  have loss : t.loss = s.loss := (congrArg State.loss event.rest :).trans (by simp)
  have clock : t.timer.clock = s.timer.clock := by
    rw [timer]
    exact (congrArg ShiftTimer.clock (stepTaken_timer k (s.pulsed k)) :)
  have cars : t.lineLostCars = s.lineLostCars := by
    have active : t.timer.active = s.timer.active := by
      rw [timer]
      exact (congrArg ShiftTimer.active (stepTaken_timer k (s.pulsed k)) :)
    simp only [State.lineLostCars, State.lostCars, active, loss]
  have sets := setsChange_step k (s.pulsed k) t
  have stalls : StallChanges (s.pulsed k) t ↔ _ := stallChanges_step event.settled
  simp only [pulsed_fields, latch, SetsChange, StallChanges, ShownFiguresChange, ← pace, ← timer] at own sets stalls
  have calls : (r ∈ if (s.callList.calls.any fun c => c.entersHold k) = true then [Role.stations, .ticker] else []) ↔
      (s.callList.calls.any fun c => c.entersHold k) = true ∧ (r = .stations ∨ r = .ticker) := by
    split <;> simp_all
  rw [List.mem_append, mem_changeRoles, calls, own]
  simp only [SetsChange, StallChanges, ShownFiguresChange]
  rw [sets, stalls]
  simp only [clock, cars, none_has, ne_eq, not_true_eq_false, Bool.false_eq_true, false_and, false_or, or_false]
  rw [or_and_right (a := (s.tracker.zones.at_ k).stall = true)]
  exact iff_of_eq (by ac_rfl)

/-- A moment of a PITCH input that is no step changes its filter alone (R14). -/
theorem pitch_next {k : Fin 6} {m : PitchMoment} {s : State} (running : s.inReset = false) (quiet : s.Quiet)
    (causes : s.CausesCurrent) (idle : ¬((s.pitch.at_ k).qualifies m = true ∧ s.layout.zoneUsed k = true)) :
    exec (.step ⟨k, m⟩) s = .next (s.onPitch k (PinFilter.afterPitch m)) := by
  have next : exec (.step ⟨k, m⟩) s = .next (serve (decideAlert s (givePitch k m s))) := centreEvent_next _ s running
  have same : decideAlert s (s.onPitch k (PinFilter.afterPitch m)) = s.onPitch k (PinFilter.afterPitch m) :=
    decideAlert_self (s.onPitch k (PinFilter.afterPitch m)) causes
  rw [next, (givePitch_spec k m s).2, if_neg idle, same, serve_quiet (s.onPitch k (PinFilter.afterPitch m)) quiet]

theorem qualifies_pitch_iff (m : PitchMoment) (f : PinFilter) :
    f.qualifies m = true ↔ m = .pulse ∨ m = .held ∧ f = ⟨false, true⟩ := by
  obtain ⟨taken, timing⟩ := f
  cases m <;> simp [PinFilter.qualifies, and_comm]

theorem afterPitch_table (m : PitchMoment) (f : PinFilter) :
    f.afterPitch m =
      match m with
      | .pulse => ⟨true, false⟩
      | .level high => ⟨f.taken, decide (high ≠ f.taken)⟩
      | .held => if f.timing then ⟨!f.taken, false⟩ else f := by
  cases m with
  | pulse => rfl
  | level high => cases high <;> cases h : f.taken <;> simp [PinFilter.afterPitch, PinFilter.given, h]
  | held => rfl

theorem entersHold_eq (k : Fin 6) :
    (fun c : Call => c.entersHold k) = fun c => decide (c.zone = k ∧ c.phase = .warn ∧ c.remaining ≤ 1) := by
  funext c
  simp [Call.entersHold, Bool.and_assoc]

/-- R15's, R27's and R28's table, the coast saturating at 255. -/
theorem afterStep_table (z : ZoneState) (r : ZoneRecord) (stopped : Bool) :
    z.afterStep r stopped =
      let coast := if stopped ∧ z.coast < 255 then z.coast + 1 else z.coast
      { accumulator := if r.pitch ≤ z.accumulator + 1 then 0 else z.accumulator + 1
        reasons := z.reasons
        coast := coast
        overrun := z.overrun || (stopped && decide (r.coastAllowance < coast))
        miss := 0
        stepped := true
        stall := false } := by
  have coast : (if stopped then satSucc Config.coastMax z.coast else z.coast) =
      if stopped ∧ z.coast < 255 then z.coast + 1 else z.coast := by
    by_cases room : z.coast < 255 <;> simp [satSucc, Config.coastMax, room]
  simp only [ZoneState.afterStep, coast, completesCar, decide_eq_true_eq]

/-- Settles O15: a step is one settled event, its zone and calls those of `stepTaken`. -/
theorem stepMovesItsZoneAndItsCalls : Obligations.StepMovesItsZoneAndItsCalls := by
  intro k m s running quiet f filter steps
  refine ⟨fun causes idle => ?_, fun ⟨used, pulse⟩ => ?_⟩
  · have table : (s.pitch.at_ k).afterPitch m = filter := afterPitch_table m _
    rw [pitch_next running quiet causes (by rw [qualifies_pitch_iff, and_comm]; exact idle), State.onPitch, Tab.upd, table]
  · have latch : s.engine.requests = .none := quiet
    have engine : { (stepTaken k (s.pulsed k)).engine with requests := .none } = s.engine := by
      rw [← latch]
      exact (stepTaken_latches k (s.pulsed k)).rest
    have event := settledEvent (s := s) (w := stepTaken k (s.pulsed k))
      (u := settleTracker s (stepTaken k (s.pulsed k))) engine (by simp) (by simp) (by apply State.ext <;> simp)
    obtain ⟨requested, echoes⟩ := event.requested _ fun r => step_requests event quiet r
    rw [entersHold_eq] at requested
    have xstop : (stepTaken k (s.pulsed k)).tracker.xstop = s.tracker.xstop := by
      rw [stepTaken_tracker]
      rfl
    have zones : (stepTaken k (s.pulsed k)).tracker.zones.at_ = fun j =>
        if j = k then (s.tracker.zones.at_ k).afterStep (s.layout.zones.at_ k) (s.zstop k)
        else s.tracker.zones.at_ j := funext fun j => stepTaken_zone k j (s.pulsed k)
    have settled := event.settled
    rw [zones, afterStep_table] at settled
    refine ⟨_, step_next running used pulse, by simp, settled, event.sets, event.causes, event.xstop.trans xstop,
      by simp [Call.stepped], requested, by simp, by simp, by simp, by simp, by simp, by simp, by simp, by simp,
      by simp, echoes⟩

end Sys2Proof.Machine
end

section
/-! The replies of READ STATION, READ CALLS, READ PACE and READ LOSS (R138 to R140). -/

namespace Sys2Proof.Machine

/-! ### A reply captured (R138 to R140) -/

/-- An event that sets the transaction, taken with no request latched. -/
theorem event_setTransaction {f : State → State} {s : State} {reply : Transaction} (running : s.inReset = false)
    (quiet : s.Quiet) (h : f s = setTransaction reply s) :
    event f s = .next { s with plant := { s.plant with transaction := reply } } := by
  rw [event_next f s running, h, serve_quiet (setTransaction reply s) quiet]
  rfl

theorem readStation_captures {s : State} {n : Byte} (running : s.inReset = false) (quiet : s.Quiet)
    (h : s.plant.transaction = .station n none) :
    exec (.readStation .firstByte) s =
      .next { s with plant := { s.plant with transaction := .station n (some (s.stationReply n.toNat)) } } :=
  event_setTransaction (f := captureStation) running quiet (by simp only [captureStation, h])

theorem readPace_captures {s : State} (running : s.inReset = false) (quiet : s.Quiet)
    (h : s.plant.transaction = .pace none) :
    exec (.readPace .firstByte) s =
      .next { s with plant := { s.plant with transaction := .pace (some s.paceBlock) } } :=
  event_setTransaction (f := capturePace) running quiet (by simp only [capturePace, h])

theorem readLoss_captures {s : State} {n : Nat} {slot e : List Byte} (running : s.inReset = false) (quiet : s.Quiet)
    (h : s.plant.transaction = .loss n slot) (entry : s.lossEntries[n]? = some e) :
    exec (.readLoss .firstByte) s = .next { s with plant := { s.plant with transaction := .loss (n + 1) e } } :=
  event_setTransaction (f := captureLossEntry) running quiet (by simp only [captureLossEntry, h, entry])

theorem readLoss_past {s : State} {n : Nat} {slot : List Byte} (running : s.inReset = false) (quiet : s.Quiet)
    (h : s.plant.transaction = .loss n slot) (past : s.lossEntries[n]? = none) :
    exec (.readLoss .firstByte) s = .next { s with plant := { s.plant with transaction := .loss n [] } } :=
  event_setTransaction (f := captureLossEntry) running quiet (by simp only [captureLossEntry, h, past])

theorem callRecordSlot_captures {s : State} {notes rest : List Nat} {slot : List Byte} {c : Call}
    (running : s.inReset = false) (quiet : s.Quiet) (h : s.plant.transaction = .calls notes slot)
    (next : s.callList.nextNoted notes = some (c, rest)) :
    exec .callRecordSlot s = .next { s with plant := { s.plant with transaction := .calls rest c.bytes } } :=
  event_setTransaction (f := beginCallSlot) running quiet (by simp only [beginCallSlot, h, next])

theorem callRecordSlot_ends {s : State} {notes : List Nat} {slot : List Byte} (running : s.inReset = false)
    (quiet : s.Quiet) (h : s.plant.transaction = .calls notes slot) (none : s.callList.nextNoted notes = none) :
    exec .callRecordSlot s = .next { s with plant := { s.plant with transaction := .calls [] [0] } } :=
  event_setTransaction (f := beginCallSlot) running quiet (by simp only [beginCallSlot, h, none])

/-! ### Flags in a byte -/

theorem bitAt_eq (k : Nat) (b : Bool) : bitAt k b = 2 ^ k * b.toNat := by cases b <;> simp [bitAt]

@[simp] theorem be16_length (n : Nat) : (be16 n).length = 2 := rfl

@[simp] theorem be32_length (n : Nat) : (be32 n).length = 4 := rfl

/-! ### READ CALLS: the next noted call (R139) -/

/-- Notes of closed calls alone name no call. -/
theorem nextNoted_closed {l : CallList} {notes : List Nat} (closed : ∀ n ∈ notes, l.numbered n = none) :
    l.nextNoted notes = none := by
  induction notes with
  | nil => rfl
  | cons n notes ih =>
    rw [List.forall_mem_cons] at closed
    simp only [CallList.nextNoted, closed.1]
    exact ih closed.2

/-- The first note of an open call names it, and leaves the notes behind it. -/
theorem nextNoted_open {l : CallList} {notes : List Nat} {i : Nat} {c : Call} (bound : i < notes.length)
    (closed : ∀ j < i, l.numbered (notes.getD j 0) = none) (first : l.numbered (notes.getD i 0) = some c) :
    l.nextNoted notes = some (c, notes.drop (i + 1)) := by
  induction notes generalizing i with
  | nil => simp at bound
  | cons n notes ih =>
    cases i with
    | zero =>
      have named : l.numbered n = some c := by simpa using first
      simp [CallList.nextNoted, named]
    | succ i =>
      have passed : l.numbered n = none := by simpa using closed 0 (Nat.succ_pos i)
      simp only [CallList.nextNoted, passed, List.drop_succ_cons]
      exact ih (by simpa using bound) (fun j hj => by simpa using closed (j + 1) (Nat.succ_lt_succ hj))
        (by simpa using first)

/-! ### READ LOSS: its entries in order (R32, R110, R140) -/

/-- The entry of a list of equal parts that is numbered within its part. -/
theorem getElem?_flatMap_parts {α β : Type} {m : Nat} {f : α → List β} (parts : ∀ a, (f a).length = m) (l : List α)
    (k : Nat) {i : Nat} (hi : i < m) : (l.flatMap f)[m * k + i]? = l[k]?.bind fun a => (f a)[i]? := by
  induction l generalizing k with
  | nil => simp
  | cons a l ih =>
    rw [List.flatMap_cons]
    cases k with
    | zero => simp [List.getElem?_append_left, parts, hi]
    | succ k =>
      have shift : m * (k + 1) + i = (f a).length + (m * k + i) := by rw [parts, Nat.mul_succ]; omega
      rw [shift, List.getElem?_append_right (Nat.le_add_right _ _), Nat.add_sub_cancel_left, ih]
      simp

theorem reasonFields_length (zones : Tab ZoneLoss 6) : (reasonFields zones).length = 30 := rfl

theorem kindFields_length (zones : Tab ZoneLoss 6) : (kindFields zones).length = 30 := rfl

theorem finRange_getElem? {n : Nat} (k : Fin n) : (List.finRange n)[k.val]? = some k := by simp

theorem reasonFields_entry (zones : Tab ZoneLoss 6) (k : Fin 6) (i : Fin 5) :
    (reasonFields zones)[5 * k.val + i.val]? = some (be16 ((zones.at_ k).reasons.toList.getD i.val 0)) := by
  rw [reasonFields, getElem?_flatMap_parts (m := 5) (fun _ => rfl) _ k.val i.isLt, finRange_getElem?]
  fin_cases i <;> rfl

theorem kindFields_entry (zones : Tab ZoneLoss 6) (k : Fin 6) (i : Fin 5) :
    (kindFields zones)[5 * k.val + i.val]? = some (be16 ((zones.at_ k).kinds.toList.getD i.val 0)) := by
  rw [kindFields, getElem?_flatMap_parts (m := 5) (fun _ => rfl) _ k.val i.isLt, finRange_getElem?]
  fin_cases i <;> rfl

/-- The entries by their number: zones, buffers, reason seconds, kind seconds, lost cars, and the line's five. -/
theorem lossEntries_at (s : State) (n : Nat) :
    s.lossEntries[n]? =
      if n < 6 then ((List.finRange 6).map fun k => [(s.tracker.zones.at_ k).lossByte])[n]?
      else if n < 11 then ((List.finRange 5).map fun k => [(s.tracker.buffers.at_ k).lossByte])[n - 6]?
      else if n < 41 then (reasonFields s.loss.zones)[n - 11]?
      else if n < 71 then (kindFields s.loss.zones)[n - 41]?
      else if n < 77 then
        ((List.finRange 6).map fun k => be16 (s.lostCars (s.loss.zones.at_ k).reasons.toList.sum))[n - 71]?
      else [be16 s.loss.lineLost, be16 s.lineLostCars, be16 s.loss.opened, be16 s.loss.closed,
        be16 s.loss.longestHold][n - 77]? := by
  simp only [State.lossEntries, List.append_assoc, List.getElem?_append, List.length_map, List.length_finRange,
    reasonFields_length, kindFields_length]
  grind


theorem lossEntries_zone (s : State) (k : Fin 6) :
    s.lossEntries[k.val]? = some [(s.tracker.zones.at_ k).lossByte] := by
  rw [lossEntries_at, if_pos k.isLt, List.getElem?_map, finRange_getElem?]
  rfl

theorem lossEntries_buffer (s : State) (i : Fin 5) :
    s.lossEntries[6 + i.val]? = some [(s.tracker.buffers.at_ i).lossByte] := by
  rw [lossEntries_at, if_neg (by omega), if_pos (by omega), Nat.add_sub_cancel_left, List.getElem?_map,
    finRange_getElem?]
  rfl

theorem lossEntries_reason (s : State) (k : Fin 6) (i : Fin 5) :
    s.lossEntries[11 + 5 * k.val + i.val]? = some (be16 ((s.loss.zones.at_ k).reasons.toList.getD i.val 0)) := by
  rw [lossEntries_at, if_neg (by omega), if_neg (by omega), if_pos (by omega), Nat.add_assoc, Nat.add_sub_cancel_left,
    reasonFields_entry]

theorem lossEntries_kind (s : State) (k : Fin 6) (i : Fin 5) :
    s.lossEntries[41 + 5 * k.val + i.val]? = some (be16 ((s.loss.zones.at_ k).kinds.toList.getD i.val 0)) := by
  rw [lossEntries_at, if_neg (by omega), if_neg (by omega), if_neg (by omega), if_pos (by omega), Nat.add_assoc,
    Nat.add_sub_cancel_left, kindFields_entry]

theorem lossEntries_cars (s : State) (k : Fin 6) :
    s.lossEntries[71 + k.val]? = some (be16 (s.lostCars (s.loss.zones.at_ k).reasons.toList.sum)) := by
  rw [lossEntries_at, if_neg (by omega), if_neg (by omega), if_neg (by omega), if_neg (by omega), if_pos (by omega),
    Nat.add_sub_cancel_left, List.getElem?_map, finRange_getElem?]
  rfl

theorem lossEntries_line (s : State) (i : Fin 5) :
    s.lossEntries[77 + i.val]? =
      some (be16 ([s.loss.lineLost, s.lineLostCars, s.loss.opened, s.loss.closed, s.loss.longestHold].getD i.val 0)) := by
  rw [lossEntries_at, if_neg (by omega), if_neg (by omega), if_neg (by omega), if_neg (by omega), if_neg (by omega),
    Nat.add_sub_cancel_left]
  fin_cases i <;> rfl

theorem lossEntries_past (s : State) {n : Nat} (h : 82 ≤ n) : s.lossEntries[n]? = none := by
  rw [List.getElem?_eq_none_iff]
  simpa [State.lossEntries, reasonFields_length, kindFields_length] using h

/-- Lost cars at the active takt; with no active plan the takt is 0, and so are they (R102). -/
theorem lostCars_eq (s : State) (seconds : Nat) : s.lostCars seconds = seconds * 10 / s.timer.plan.takt := by
  unfold State.lostCars ShiftTimer.plan
  cases s.timer.active with
  | none => simp [Plan.empty]
  | some p => rfl

theorem zone_lossByte_table (z : ZoneState) :
    z.lossByte = BitVec.ofNat 8 (z.reasons.hold.toNat + 2 * z.reasons.plan.toNat +
            4 * z.reasons.xstop.toNat + 8 * z.reasons.blocked.toNat + 16 * z.reasons.starved.toNat +
            32 * z.stall.toNat + 128 * z.overrun.toNat) := by
  simp [ZoneState.lossByte, ReasonSet.bits, byteOf, bitAt_eq]

theorem buffer_lossByte_table (b : Buffer) :
    b.lossByte = BitVec.ofNat 8 (b.count % 16 + 16 * b.overSlip.toNat + 32 * b.underSlip.toNat) := by
  simp [Buffer.lossByte, byteOf, bitAt_eq]

/-! ### The replies written out (R138 to R140, R182) -/

/-- Settles O46: each command captures its reply by a lemma of its own, and the reply's bytes are the model's. -/
theorem stationCallPaceAndLossRepliesAreCaptured : Obligations.StationCallPaceAndLossRepliesAreCaptured := by
  intro s running quiet served
  refine ⟨fun n station => ⟨fun beyond => ?_, fun st hst => ?_⟩, fun notes slot calls => ?_, fun pace => ?_,
    fun n slot loss => ?_⟩
  · have captured := readStation_captures running quiet station
    rw [State.stationReply, index_of_ge beyond] at captured
    exact captured
  · have captured := readStation_captures running quiet station
    have enabled : bitAt 7 (s.layout.enabled st) = (s.layout.enabled st).toNat * 128 := by
      simp [bitAt_eq, Nat.mul_comm]
    rw [State.stationReply, index_of_lt hst] at captured
    simp only [State.stationBytes, enabled] at captured
    exact captured
  · intro isOpen
    have shut {n : Nat} (h : isOpen n = false) : s.callList.numbered n = none := by simpa [isOpen] using h
    have past (i : Nat) : s.miso i = some (slot.getD i (if notes = [] then 0 else 0xFF)) := by
      simp [State.miso, running, calls, Transaction.served, Transaction.reply]
    refine ⟨fun closed => callRecordSlot_ends running quiet calls (nextNoted_closed fun n hn => shut (closed n hn)),
      fun done i beyond => ?_, fun done marker i => ?_, fun i within => ?_, fun i bound closed c first => ?_⟩
    · simp [past, done, beyond]
    · cases i <;> simp [past, done, marker]
    · simp [past, within]
    · intro ack rest length
      have captured := callRecordSlot_captures running quiet calls
        (nextNoted_open bound (fun j hj => shut (closed j hj)) first)
      have counted : rest.length + 1 = length := by
        cases h : c.ack <;> simp [rest, ack, length, h] <;> omega
      have record : c.bytes = BitVec.ofNat 8 length :: rest := by
        rw [← counted]
        cases h : c.ack <;> simp [Call.bytes, withLength, kindBytes, ackBytes, byteOf, bitAt_eq, rest, ack, h]
      rw [record] at captured
      exact ⟨captured, counted⟩
  · intro f p block
    have captured := readPace_captures running quiet pace
    have flags : bitAt 0 s.timer.staged.isSome + bitAt 1 s.timer.next.isSome =
      s.timer.staged.isSome.toNat + 2 * s.timer.next.isSome.toNat := by simp [bitAt_eq]
    have written : s.paceBlock = block := by
      simp only [State.paceBlock, flags]
      rfl
    rw [written] at captured
    exact ⟨captured, by simp [block]⟩
  · intro entry cars
    have captures {e : List Byte} (at_n : s.lossEntries[n]? = some e) : entry e :=
      readLoss_captures running quiet loss at_n
    refine ⟨fun k => ?_, fun i hi => ?_, fun i hi => ?_, fun past =>
      readLoss_past running quiet loss (lossEntries_past s past)⟩
    · refine ⟨fun hn => ?_, fun i hi => captures (hi ▸ lossEntries_reason s k i),
        fun i hi => captures (hi ▸ lossEntries_kind s k i), fun hn => ?_⟩
      · have := captures (hn ▸ lossEntries_zone s k)
        rw [zone_lossByte_table] at this
        exact this
      · have := captures (hn ▸ lossEntries_cars s k)
        simp only [lostCars_eq, ReasonSeconds.toList, List.sum_cons, List.sum_nil, Nat.add_zero, ← Nat.add_assoc] at this
        exact this
    · have := captures (hi ▸ lossEntries_buffer s i)
      rw [buffer_lossByte_table] at this
      exact this
    · have := captures (hi ▸ lossEntries_line s i)
      rw [State.lineLostCars, lostCars_eq] at this
      exact this

end Sys2Proof.Machine
end

section
/-! Events that reach the Call List and a port alone, the lookups of a call, and the acknowledgements (R53, R54). -/

namespace Sys2Proof.Machine

/-! ### The Call List changed and the sender answered -/

/-- The state with the oldest frame out of the queue, as its rule is given it (R126). -/
def State.dequeued (s : State) (rest : List Frame) : State := s.onLine fun l => { l with queue := rest }

theorem dequeued_line (s : State) (rest : List Frame) : (s.dequeued rest).line = { s.line with queue := rest } := rfl

/-- A frame that at most changes the Call List is answered, and nothing else follows. -/
theorem frameEvent_onCalls {rule : FrameRule} {f : Frame} {rest : List Frame} {apply : State → State × LineResult}
    {s : State} {g : CallList → CallList} {r : LineResult} (running : s.inReset = false) (quiet : s.Quiet)
    (hq : s.line.queue = f :: rest) (hr : rule f = some apply)
    (applied : apply (s.dequeued rest) = ((s.dequeued rest).onCalls g, r)) :
    event (takeFrame rule) s = .next { s with line := s.line.answered rest r, callList := g s.callList } := by
  have taken := takeFrame_taken hq hr
  rw [← State.dequeued, applied] at taken
  rw [event_next _ _ running, taken]
  exact congrArg _ (serve_quiet _ quiet)

/-- A refused frame of the centre changes the queue and the result alone. -/
theorem centreFrame_refused {rule : FrameRule} {f : Frame} {rest : List Frame} {apply : State → State × LineResult}
    {s : State} {r : LineResult} (running : s.inReset = false) (quiet : s.Quiet) (causes : s.CausesCurrent)
    (hq : s.line.queue = f :: rest) (hr : rule f = some apply)
    (refused : apply (s.dequeued rest) = (s.dequeued rest, r)) :
    centreEvent (takeFrame rule) s = .next { s with line := s.line.answered rest r } := by
  have taken := takeFrame_taken hq hr
  rw [← State.dequeued, refused] at taken
  rw [centreEvent_next _ _ running, taken]
  have decided := decideAlert_self { s with line := s.line.answered rest r } causes
  exact congrArg _ ((congrArg serve decided).trans (serve_quiet _ quiet))

/-- A plant command that at most changes the Call List is answered, and nothing else follows. -/
theorem commandEvent_onCalls {c : PlantCommand} {rule : CommandRule} {s : State} {g : CallList → CallList}
    {r : PlantResult} (running : s.inReset = false) (quiet : s.Quiet) (h : s.plant.transaction = .arguments c)
    (applied : rule s = (s.onCalls g, r)) :
    event (takeCommand c rule) s = .next { s with plant := s.plant.answered r, callList := g s.callList } := by
  rw [event_next _ _ running, takeCommand_arguments h, applied]
  exact congrArg _ (serve_quiet _ quiet)

/-! ### The call that a frame names by its station (R47, R48, R53) -/

theorem lineCall_range {s : State} {a : Nat} (h : 48 ≤ a) : s.lineCall a = .error .range := by
  simp [State.lineCall, index_of_ge h]

theorem lineCall_state {s : State} {a : Nat} (h : a < 48)
    (free : ∀ st : Fin 48, st.val = a → s.callList.atStation st = none) : s.lineCall a = .error .state := by
  simp [State.lineCall, index_of_lt (i := ⟨a, h⟩) rfl, free ⟨a, h⟩ rfl]

theorem lineCall_ok {s : State} {a : Nat} {st : Fin 48} {x : Call} (h : st.val = a)
    (found : s.callList.atStation st = some x) : s.lineCall a = .ok x := by
  simp [State.lineCall, index_of_lt h, found]

/-! ### What a frame or command that names a call answers -/

section
variable {s : State} {a l n : Nat} {r : LineResult} {x : Call}

theorem applyRelease_refused (h : s.lineCall a = .error r) : applyRelease a s = (s, r) := by
  simp [applyRelease, h]

theorem applyRelease_taken (h : s.lineCall a = .ok x) : applyRelease a s = (closeCall x .station s, .ok) := by
  simp [applyRelease, h]

theorem applyLeaderReset_range (h : 48 ≤ a ∨ l = 0) : applyLeaderReset a l s = (s, .range) := by
  by_cases hl : l = 0
  · simp [applyLeaderReset, hl]
  · simp [applyLeaderReset, hl, lineCall_range (h.resolve_right hl)]

theorem applyLeaderReset_refused (hl : l ≠ 0) (h : s.lineCall a = .error r) : applyLeaderReset a l s = (s, r) := by
  simp [applyLeaderReset, hl, h]

theorem applyLeaderReset_taken (hl : l ≠ 0) (h : s.lineCall a = .ok x) :
    applyLeaderReset a l s = (closeCall x (.leader l) s, .ok) := by
  simp [applyLeaderReset, hl, h]

theorem applyLeaderAck_range (h : 48 ≤ a ∨ l = 0) : applyLeaderAck a l s = (s, .range) := by
  by_cases hl : l = 0
  · simp [applyLeaderAck, hl]
  · simp [applyLeaderAck, hl, lineCall_range (h.resolve_right hl)]

theorem applyLeaderAck_refused (hl : l ≠ 0) (h : s.lineCall a = .error r) : applyLeaderAck a l s = (s, r) := by
  simp [applyLeaderAck, hl, h]

theorem applyLeaderAck_already (hl : l ≠ 0) (h : s.lineCall a = .ok x) (acked : x.ack ≠ none) :
    applyLeaderAck a l s = (s, .already) := by
  simp [applyLeaderAck, hl, h, Option.isSome_iff_ne_none.2 acked]

theorem applyLeaderAck_taken (hl : l ≠ 0) (h : s.lineCall a = .ok x) (first : x.ack = none) :
    applyLeaderAck a l s = (acknowledge x .line l s, .ok) := by
  simp [applyLeaderAck, hl, h, first]

theorem applyClearCall_range (h : l = 0) : applyClearCall n l s = (s, .range) := if_pos h

theorem applyClearCall_noCall (hl : l ≠ 0) (h : s.callList.numbered n = none) :
    applyClearCall n l s = (s, .nocall) := by
  simp [applyClearCall, hl, h]

theorem applyClearCall_taken (hl : l ≠ 0) (h : s.callList.numbered n = some x) :
    applyClearCall n l s = (closeCall x (.plant l) s, .ok) := by
  simp [applyClearCall, hl, h]

theorem applyAckCall_range (h : l = 0) : applyAckCall n l s = (s, .range) := if_pos h

theorem applyAckCall_noCall (hl : l ≠ 0) (h : s.callList.numbered n = none) : applyAckCall n l s = (s, .nocall) := by
  simp [applyAckCall, hl, h]

theorem applyAckCall_already (hl : l ≠ 0) (h : s.callList.numbered n = some x) (acked : x.ack ≠ none) :
    applyAckCall n l s = (s, .already) := by
  simp [applyAckCall, hl, h, Option.isSome_iff_ne_none.2 acked]

theorem applyAckCall_taken (hl : l ≠ 0) (h : s.callList.numbered n = some x) (first : x.ack = none) :
    applyAckCall n l s = (acknowledge x .plant l s, .ok) := by
  simp [applyAckCall, hl, h, first]

end

/-! ### Refusals and acknowledgements (R47 to R49, R53, R54) -/

/-- A LEADER ACK is answered, and stores what its rule stores. -/
theorem leaderAck_next {a l : Byte} {rest : List Frame} {s : State} {g : CallList → CallList} {r : LineResult}
    (running : s.inReset = false) (quiet : s.Quiet) (hq : s.line.queue = .leaderAck a l :: rest)
    (applied : applyLeaderAck a.toNat l.toNat (s.dequeued rest) = ((s.dequeued rest).onCalls g, r)) :
    exec .leaderAck s = .next { s with line := s.line.answered rest r, callList := g s.callList } :=
  frameEvent_onCalls (rule := leaderAckRule) running quiet hq rfl applied

/-- An ACK CALL is answered, and stores what its rule stores. -/
theorem ackCall_next {n : Half} {l : Byte} {s : State} {g : CallList → CallList} {r : PlantResult}
    (running : s.inReset = false) (quiet : s.Quiet) (h : s.plant.transaction = .arguments .ackCall)
    (applied : applyAckCall n.toNat l.toNat s = (s.onCalls g, r)) :
    exec (.ackCall n l) s = .next { s with plant := s.plant.answered r, callList := g s.callList } :=
  commandEvent_onCalls running quiet h applied

/-- Settles O36: each clause is one answer of the rule of its frame or command, with nothing else to follow where the
Call List alone is reached (`leaderAck_next`, `ackCall_next`) or the frame or command is refused
(`centreFrame_refused`, `centreEvent_refused`). -/
theorem acknowledgementsStoredOnceAndRefusalsChangeNothingElse :
    Obligations.AcknowledgementsStoredOnceAndRefusalsChangeNothingElse := by
  intro a l n rest s running quiet acked line plant noCall
  have unnamed (h : l = 0) : l.toNat = 0 := congrArg BitVec.toNat h
  have named (h : l ≠ 0) : l.toNat ≠ 0 := BitVec.toNat_ne_iff_ne.2 h
  refine ⟨fun hq => ?leaderAck, fun causes hq => ?release, fun causes hq => ?leaderReset, fun h => ?ackCall,
    fun causes h => ?clearCall⟩
  case leaderAck =>
    refine ⟨fun bad => leaderAck_next (g := id) running quiet hq ?_, fun inRange hl none =>
      leaderAck_next (g := id) running quiet hq ?_, fun st hst x found hl => ⟨fun already =>
      leaderAck_next (g := id) running quiet hq ?_, fun first =>
      leaderAck_next running quiet hq (applyLeaderAck_taken (named hl) (lineCall_ok hst found) first)⟩⟩
    · exact applyLeaderAck_range (bad.imp_right unnamed)
    · exact applyLeaderAck_refused (named hl) (lineCall_state inRange none)
    · exact applyLeaderAck_already (named hl) (lineCall_ok hst found) already
  case release =>
    have refused {r : LineResult} (h : (s.dequeued rest).lineCall a.toNat = .error r) : line .release r :=
      centreFrame_refused (rule := releaseRule) running quiet causes hq rfl (applyRelease_refused h)
    exact ⟨fun outside => refused (lineCall_range outside),
      fun inRange none => refused (lineCall_state inRange none)⟩
  case leaderReset =>
    refine ⟨fun bad => centreFrame_refused (rule := leaderResetRule) running quiet causes hq rfl ?_,
      fun inRange hl none => centreFrame_refused (rule := leaderResetRule) running quiet causes hq rfl ?_⟩
    · exact applyLeaderReset_range (bad.imp_right unnamed)
    · exact applyLeaderReset_refused (named hl) (lineCall_state inRange none)
  case ackCall =>
    refine ⟨fun zero => ackCall_next (g := id) running quiet h ?_, fun hl none =>
      ackCall_next (g := id) running quiet h ?_, fun x found hl => ⟨fun already =>
      ackCall_next (g := id) running quiet h ?_, fun first =>
      ackCall_next running quiet h (applyAckCall_taken (named hl) found first)⟩⟩
    · exact applyAckCall_range (unnamed zero)
    · exact applyAckCall_noCall (named hl) none
    · exact applyAckCall_already (named hl) found already
  case clearCall =>
    exact ⟨fun zero => centreEvent_refused running quiet causes h (applyClearCall_range (unnamed zero)),
      fun hl none => centreEvent_refused running quiet causes h (applyClearCall_noCall (named hl) none)⟩

end Sys2Proof.Machine
end

section
/-! A PULL refused, and a PULL that grows the open call of its station (R38, R41, R42). -/

namespace Sys2Proof.Machine

/-! ### Refused (R38) -/

theorem ofCode_none {n : Nat} (h : 4 < n) : Kind.ofCode n = none := by
  obtain ⟨m, rfl⟩ := Nat.exists_eq_add_of_le' (Nat.succ_le_of_lt h)
  rfl

theorem applyPull_unnumbered {a b c : Nat} {s : State} (h : 48 ≤ a) : applyPull a b c s = (s, .range) := by
  simp [applyPull, index_of_ge h]

theorem applyPull_disabled {a b c : Nat} {st : Fin 48} {s : State} (h : st.val = a)
    (disabled : s.layout.enabled st = false) : applyPull a b c s = (s, .range) := by
  simp [applyPull, index_of_lt h, disabled]

theorem applyPull_unkind {a b c : Nat} {st : Fin 48} {s : State} (h : st.val = a) (unkind : 4 < b) :
    applyPull a b c s = (s, .range) := by
  simp [applyPull, index_of_lt h, ofCode_none unkind]

/-! ### At a station with an open call (R41) -/

/-- An enabled station belongs to a zone (R2). -/
theorem enabled_zone {l : Layout} {st : Fin 48} (h : l.enabled st = true) : ∃ zone, l.stationZone st = some zone := by
  simp only [Layout.enabled, Bool.and_eq_true] at h
  exact Option.isSome_iff_exists.1 h.2

theorem applyPull_atCall {a b c : Nat} {st : Fin 48} {k : Kind} {x : Call} {s : State} (h : st.val = a)
    (enabled : s.layout.enabled st = true) (kind : k.code = b) (found : s.callList.atStation st = some x) :
    applyPull a b c s = if k ∈ x.kinds then (s, .duplicate) else (growCall x k s, .ok) := by
  obtain ⟨zone, hz⟩ := enabled_zone enabled
  simp [applyPull, index_of_lt h, enabled, ← kind, ofCode_code, hz, found]

/-- The list with a call grown by a kind, before what follows from it. -/
def State.withGrown (s : State) (rest : List Frame) (x : Call) (k : Kind) : State :=
  (s.dequeued rest).onCalls fun l => l.update x.number fun y => y.grown k

/-- Such a PULL requests STATIONS and TICKER, settles the Tracker and is answered on the line. -/
theorem pullGrows_settledEvent {a b c : Byte} {st : Fin 48} {k : Kind} {x : Call} {rest : List Frame} {s : State}
    (running : s.inReset = false) (quiet : s.Quiet) (hq : s.line.queue = .pull a b c :: rest) (h : st.val = a.toNat)
    (enabled : s.layout.enabled st = true) (kind : k.code = b.toNat) (found : s.callList.atStation st = some x)
    (grows : k ∉ x.kinds) :
    ∃ t, exec .pull s = .next t ∧ SettledEvent s (raiseCallChange (s.withGrown rest x k)) t ∧
      t.line = s.line.answered rest .ok := by
  have next : exec .pull s = .next (serve (decideAlert s (takeFrame pullRule s))) := centreEvent_next _ s running
  have applied : applyPull a.toNat b.toNat c.toNat (s.dequeued rest) = (growCall x k (s.dequeued rest), .ok) :=
    (applyPull_atCall (s := s.dequeued rest) h enabled kind found).trans (if_neg grows)
  have taken := takeFrame_taken (rule := pullRule) hq rfl
  rw [← State.dequeued, applied] at taken
  rw [taken] at next
  have began : growCall x k (s.dequeued rest) = settleTracker s (raiseCallChange (s.withGrown rest x k)) :=
    settleTracker_of_qualifies (fun _ => rfl) _
  have latch : s.engine.requests = .none := quiet
  refine ⟨_, next, settledEvent ?_ rfl rfl ?_, ?_⟩
  · rw [← latch]
    rfl
  · rw [began]
    apply State.ext <;> simp [State.withGrown, State.dequeued]
  · simp [dequeued_line, LinePort.answered]

/-- Settles O34: the refusals are the answers of `applyPull` with nothing to follow (`centreFrame_refused`), and a call
that grows settles the Tracker with it (`pullGrows_settledEvent`). -/
theorem pullRefusedOrGrowsOpenCall : Obligations.PullRefusedOrGrowsOpenCall := by
  intro a b c rest s running quiet causes form hq
  have refused {r : LineResult}
      (h : applyPull a.toNat b.toNat c.toNat (s.dequeued rest) = (s.dequeued rest, r)) :
      exec .pull s = .next { s with line := s.line.answered rest r } :=
    centreFrame_refused (rule := pullRule) running quiet causes hq rfl h
  refine ⟨fun outside => refused (applyPull_unnumbered outside), fun st hst => ⟨?_, fun x found k enabled kind =>
    ⟨fun held => ?_, fun grows => ?_⟩⟩⟩
  · rintro (disabled | unkind)
    · exact refused (applyPull_disabled hst disabled)
    · exact refused (applyPull_unkind hst unkind)
  · exact refused ((applyPull_atCall (s := s.dequeued rest) hst enabled kind found).trans (if_pos held))
  · obtain ⟨t, next, event, line⟩ := pullGrows_settledEvent running quiet hq hst enabled kind found grows
    have latch : s.engine.requests = .none := quiet
    have callList : t.callList = (s.withGrown rest x k).callList := (congrArg State.callList event.rest :)
    have kept := congrArg (fun u : State => { u with
      callList := s.callList, tracker := s.tracker, line := s.line, engine := s.engine }) event.rest
    obtain ⟨requested, echoes⟩ := event.requested [.stations, .ticker] fun r => by
      cases r <;> simp [raiseCallChange, State.withGrown, State.dequeued, latch, has_add, Role.isEngine]
    refine ⟨t, next, callList, line, event.settled, event.buffers, event.xstop, event.causes, requested,
      kept.trans ?_, echoes⟩
    apply State.ext <;> simp [State.withGrown, State.dequeued]

end Sys2Proof.Machine
end

section
/-! RELEASE, LEADER RESET and CLEAR CALL: the record of a closing in the log, and the event whole (R47 to R51, R61). -/

namespace Sys2Proof.Machine

/-! ### A record stored (R113 to R115) -/

theorem flagHead_eq (log : List HistoryRecord) :
    flagHead log = log.mapIdx fun i x => if i = 0 then { x with droppedBefore := true } else x := by
  cases log with
  | nil => rfl
  | cons x rest => exact List.ext_getElem (by simp [flagHead]) fun i _ _ => by cases i <;> simp [flagHead]

theorem storeRecord_within {s : State} (room : s.history.length < 128) (r : HistoryRecord) :
    storeRecord r s = appendRecord r s := if_pos room

theorem storeRecord_full {s : State} (full : ¬s.history.length < 128) (r : HistoryRecord) :
    storeRecord r s = appendRecord r (removeOldest s) := if_neg full

theorem storeRecord_stored (r : HistoryRecord) (s : State) : RecordStored r s (storeRecord r s) := by
  unfold RecordStored
  split
  · rename_i room
    rw [storeRecord_within room]
    exact ⟨rfl, rfl⟩
  · rename_i full
    rw [storeRecord_full full, List.drop_one]
    cases cursor : s.plant.historyCursor with
    | none => simp [appendRecord, removeOldest, historyAfterRemoval, cursorAfterRemoval, cursor]
    | some n =>
      cases n with
      | zero => simp [appendRecord, removeOldest, historyAfterRemoval, cursorAfterRemoval, cursor, flagHead_eq]
      | succ n => simp [appendRecord, removeOldest, historyAfterRemoval, cursorAfterRemoval, cursor]

/-- A stored record reaches the slot in flight where the record of the cursor is removed (R120). -/
theorem storeRecord_plant (r : HistoryRecord) (s : State) :
    (storeRecord r s).plant =
      { s.plant with
        historyCursor := (storeRecord r s).plant.historyCursor
        transaction :=
          if s.history.length < 128 then s.plant.transaction
          else s.plant.transaction.afterRemoval s.plant.historyCursor } := by
  split
  · rename_i room
    rw [storeRecord_within room]
    rfl
  · rename_i full
    rw [storeRecord_full full]
    rfl

/-- What is stored shows in the logs and their cursors alone. -/
theorem RecordStored.congr {r : HistoryRecord} {s s' u t : State} (h : RecordStored r s u)
    (before : s'.history = s.history) (began : s'.plant.historyCursor = s.plant.historyCursor)
    (after : t.history = u.history) (ended : t.plant.historyCursor = u.plant.historyCursor) : RecordStored r s' t := by
  unfold RecordStored at h ⊢
  rw [before, began, after, ended]
  exact h

/-! ### A call closed (R51, R61, R103) -/

/-- The state with a call off the list and its station and counted, before its record is stored. -/
def State.withoutCall (s : State) (c : Call) : State :=
  { s with
    callList := { s.callList with calls := s.callList.calls.filter fun x => x.number ≠ c.number }
    stations := s.stations.upd c.station fun r => { r with openCall := none }
    loss := s.loss.callClosed s.shiftTag c.holdTime
    plant := { s.plant with transaction := s.plant.transaction.callClosed c.number } }

/-- The same with the record stored, before what follows from the change of the list. -/
def State.withClosed (s : State) (c : Call) (by_ : ClosedBy) : State :=
  storeRecord (s.historyRecord c by_) (s.withoutCall c)

theorem closeCall_eq (c : Call) (by_ : ClosedBy) (s : State) :
    closeCall c by_ s = callSettled s (s.withClosed c by_) := rfl

theorem withClosed_rest (s : State) (c : Call) (by_ : ClosedBy) :
    { s.withClosed c by_ with history := s.history, plant := (s.withoutCall c).plant } = s.withoutCall c := by
  apply State.ext <;> simp [State.withClosed, State.withoutCall]

/-- The tallies of a closing (R103). -/
theorem callClosed_loss (s : State) (hold : Nat) :
    s.loss.callClosed s.shiftTag hold =
      if s.timer.state.isOpen = true ∧ s.timer.number ≠ 0 then
        { s.loss with
          closed := if s.loss.closed < 65535 then s.loss.closed + 1 else s.loss.closed
          longestHold := max s.loss.longestHold hold }
      else s.loss := by
  unfold Loss.callClosed State.shiftTag satSucc Config.secondsMax
  cases s.timer.state.isOpen <;> by_cases h : s.timer.number = 0 <;> simp [h]

/-- A change of the list by a closing, taken whole, closes the call, in whatever state `d` of the queue it began. -/
theorem callClosed_of_change {s d t : State} {c : Call} {by_ : ClosedBy} (hd : { d with line := s.line } = s)
    (change : CallChange s (d.withClosed c by_) t)
    (cursor : t.plant.historyCursor = (d.withClosed c by_).plant.historyCursor) : CallClosed c by_ s t := by
  obtain ⟨line, rfl⟩ : ∃ line, d = { s with line := line } := ⟨d.line, by rw [← hd]⟩
  have left := withClosed_rest { s with line := line } c by_
  have callList := congrArg State.callList change.rest
  have stations := congrArg State.stations change.rest
  have loss := congrArg State.loss change.rest
  have history := congrArg State.history change.rest
  dsimp only at callList stations loss history
  refine ⟨?callList, ?stations, ?record, ?loss, ?settled, ?buffers, ?xstop, change.causes, change.requested,
    change.scroll, change.engine, ?frame, change.alert, change.tiles, change.intensity⟩
  case callList => exact callList.trans (congrArg State.callList left :)
  case stations => exact stations.trans (congrArg State.stations left :)
  case record =>
    have stored := storeRecord_stored (closingRecord c by_ s) ({ s with line := line }.withoutCall c)
    exact stored.congr rfl rfl history cursor
  case loss => exact (loss.trans (congrArg State.loss left :)).trans (callClosed_loss s c.holdTime)
  case settled =>
    have zones : ({ s with line := line }.withClosed c by_).tracker = s.tracker := (congrArg State.tracker left :)
    exact zones ▸ change.settled
  case buffers => exact change.buffers.trans (congrArg (fun u => u.tracker.buffers) left :)
  case xstop => exact change.xstop.trans (congrArg (fun u => u.tracker.xstop) left :)
  case frame =>
    have aside {a b : State} (h : a = b) :
        { a with
          callList := s.callList, stations := s.stations, history := s.history, loss := s.loss, tracker := s.tracker
          line := s.line, plant := s.plant, engine := s.engine, alert := s.alert, tiles := s.tiles } =
        { b with
          callList := s.callList, stations := s.stations, history := s.history, loss := s.loss, tracker := s.tracker
          line := s.line, plant := s.plant, engine := s.engine, alert := s.alert, tiles := s.tiles } := by rw [h]
    have kept := aside left
    exact (aside change.rest).trans kept

/-- A transaction after a closing, with the length of the log and the cursor in which the record is stored. -/
def Transaction.afterClosing (t : Transaction) (number log : Nat) (cursor : Option Nat) : Transaction :=
  if log < 128 then t.callClosed number else (t.callClosed number).afterRemoval cursor

theorem afterClosing_calls (noted : List Nat) (slot : List Byte) (number log : Nat) (cursor : Option Nat) :
    (Transaction.calls noted slot).afterClosing number log cursor =
      .calls (noted.filter fun n => decide (n ≠ number)) slot := ite_self _

theorem afterClosing_history (sl : HistorySlot) (number log : Nat) (cursor : Option Nat) :
    (Transaction.history (some sl)).afterClosing number log cursor =
      if 128 ≤ log ∧ cursor = some 0 then .history (some { sl with live := false }) else .history (some sl) := by
  by_cases room : log < 128
  · simp [Transaction.afterClosing, Transaction.callClosed, room]
  · simp [Transaction.afterClosing, Transaction.callClosed, Transaction.afterRemoval, room, Nat.le_of_not_lt room]

/-- Any other transaction goes on as it was. -/
theorem afterClosing_other {t : Transaction} (notCalls : ∀ noted slot, t ≠ .calls noted slot)
    (notSlot : ∀ sl, t ≠ .history (some sl)) (number log : Nat) (cursor : Option Nat) :
    t.afterClosing number log cursor = t := by
  have closed : t.callClosed number = t := by
    unfold Transaction.callClosed
    split
    · exact absurd rfl (notCalls _ _)
    · rfl
  have removed : t.afterRemoval cursor = t := by
    unfold Transaction.afterRemoval
    split
    · exact absurd rfl (notSlot _)
    · rfl
  rw [Transaction.afterClosing, closed, removed, ite_self]

/-- The Plant Port after a closing: READ CALLS loses its note of the call, and READ HISTORY's slot in flight its record
where the log drops it (R120, R139, log 21). -/
theorem withClosed_plant (s : State) (c : Call) (by_ : ClosedBy) :
    (s.withClosed c by_).plant =
      { s.plant with
        historyCursor := (s.withClosed c by_).plant.historyCursor
        transaction := s.plant.transaction.afterClosing c.number s.history.length s.plant.historyCursor } :=
  storeRecord_plant (s.historyRecord c by_) (s.withoutCall c)

theorem withClosed_keeps (s : State) (c : Call) (by_ : ClosedBy) :
    (s.withClosed c by_).engine = s.engine ∧ (s.withClosed c by_).alert = s.alert ∧
      (s.withClosed c by_).tiles = s.tiles ∧ (s.withClosed c by_).line = s.line := by
  simp [State.withClosed, State.withoutCall]

/-! ### The closing taken whole (R47 to R49) -/

/-- A frame whose rule closes a call. -/
theorem frame_callClosed {rule : FrameRule} {f : Frame} {rest : List Frame} {apply : State → State × LineResult}
    {s : State} {c : Call} {by_ : ClosedBy} (running : s.inReset = false) (quiet : s.Quiet)
    (hq : s.line.queue = f :: rest) (hr : rule f = some apply)
    (applied : apply (s.dequeued rest) = (closeCall c by_ (s.dequeued rest), .ok)) :
    ∃ t, centreEvent (takeFrame rule) s = .next t ∧ CallClosed c by_ s t ∧
      t.plant = ((s.dequeued rest).withClosed c by_).plant ∧ t.line = s.line.answered rest .ok := by
  have taken := takeFrame_taken hq hr
  rw [← State.dequeued, applied, closeCall_eq] at taken
  dsimp only at taken
  have next := centreEvent_next (takeFrame rule) s running
  rw [taken] at next
  obtain ⟨engine, alert, tiles, line⟩ := withClosed_keeps (s.dequeued rest) c by_
  have change := callChange_of_settled (d := s.dequeued rest) (o := (s.dequeued rest).withClosed c by_)
    (u := (callSettled (s.dequeued rest) ((s.dequeued rest).withClosed c by_)).onLine fun l =>
      { l with lastResult := .ok }) quiet engine alert tiles (fun _ => rfl) (by apply State.ext <;> simp [callSettled])
  exact ⟨_, next, callClosed_of_change (d := s.dequeued rest) rfl change (by simp [callSettled]),
    by simp [callSettled], by simp [callSettled, line, dequeued_line, LinePort.answered]⟩

/-- A command whose rule closes a call. -/
theorem command_callClosed {p : PlantCommand} {rule : CommandRule} {s : State} {c : Call} {by_ : ClosedBy}
    (running : s.inReset = false) (quiet : s.Quiet) (h : s.plant.transaction = .arguments p)
    (applied : rule s = (closeCall c by_ s, .ok)) :
    ∃ t, centreEvent (takeCommand p rule) s = .next t ∧ CallClosed c by_ s t ∧ t.line = s.line ∧
      t.plant = (s.withClosed c by_).plant.answered .ok := by
  have next := centreEvent_next (takeCommand p rule) s running
  rw [takeCommand_arguments h, applied, closeCall_eq] at next
  dsimp only at next
  obtain ⟨engine, alert, tiles, line⟩ := withClosed_keeps s c by_
  have change := callChange_of_settled (d := s) (o := s.withClosed c by_)
    (u := setTransaction .ignoring (setPlantResult .ok (callSettled s (s.withClosed c by_)))) quiet engine alert tiles
    (fun _ => rfl) (by apply State.ext <;> simp [callSettled])
  have plant : (serve (decideAlert s (setTransaction .ignoring (setPlantResult .ok
      (callSettled s (s.withClosed c by_)))))).plant = (s.withClosed c by_).plant.answered .ok := by
    simp [callSettled, PlantPort.answered]
  have cursor := congrArg PlantPort.historyCursor plant
  exact ⟨_, next, callClosed_of_change (d := s) rfl change cursor, by simp [callSettled, line], plant⟩

/-- Settles O35: the frame or command closes the call (`frame_callClosed`, `command_callClosed`), and the transaction
of the Plant Port loses what named the call or the record dropped (`withClosed_plant`). -/
theorem releaseResetAndClearCloseTheirCall : Obligations.ReleaseResetAndClearCloseTheirCall := by
  intro x a l n rest s running quiet
  have named (h : l ≠ 0) : l.toNat ≠ 0 := BitVec.toNat_ne_iff_ne.2 h
  refine ⟨?line, ?plant⟩
  case line =>
    intro found ha cut
    have call : (s.dequeued rest).lineCall a.toNat = .ok x := lineCall_ok ha.symm found
    have cuts {t : State} {by_ : ClosedBy} (plant : t.plant = ((s.dequeued rest).withClosed x by_).plant) : cut t := by
      have cursor := congrArg PlantPort.historyCursor plant
      refine (plant.trans (withClosed_plant _ x by_)).trans ?_
      rw [← cursor]
      show { s.plant with
        historyCursor := t.plant.historyCursor
        transaction := s.plant.transaction.afterClosing x.number s.history.length s.plant.historyCursor } = _
      cases s.plant.transaction with
      | calls noted slot => rw [afterClosing_calls]
      | history slot =>
        cases slot with
        | none => rw [afterClosing_other (by simp) (by simp)]
        | some sl => rw [afterClosing_history]
      | _ => rw [afterClosing_other (by simp) (by simp)]
    refine ⟨fun hq => ?_, fun hl hq => ?_⟩
    · obtain ⟨t, next, closed, plant, line⟩ := frame_callClosed (rule := releaseRule) running quiet hq rfl
        (applyRelease_taken call)
      exact ⟨t, next, closed, cuts plant, line⟩
    · obtain ⟨t, next, closed, plant, line⟩ := frame_callClosed (rule := leaderResetRule) running quiet hq rfl
        (applyLeaderReset_taken (named hl) call)
      exact ⟨t, next, closed, cuts plant, line⟩
  case plant =>
    intro hl hn found h
    obtain ⟨t, next, closed, line, plant⟩ := command_callClosed running quiet h
      (applyClearCall_taken (n := n.toNat) (named hl) (hn ▸ found))
    refine ⟨t, next, closed, line, ?_⟩
    rw [plant, withClosed_plant]
    rfl

end Sys2Proof.Machine
end

section
/-! CALL_SECOND: hold time, grace or escalation, and the level test (R58 to R60). -/

namespace Sys2Proof.Machine

/-! ### The smallest nonzero threshold (R59) -/

theorem foldr_minNonzero (l : List Nat) :
    l.foldr minNonzero 0 = (l.filter fun n => decide (n ≠ 0)).min?.getD 0 := by
  induction l with
  | nil => rfl
  | cons n l ih =>
    have nonzero {m : Nat} (h : (l.filter fun n => decide (n ≠ 0)).min? = some m) : m ≠ 0 := by
      simpa using (List.mem_filter.1 (List.min?_mem h)).2
    rw [List.foldr_cons, ih, List.filter_cons]
    generalize l.filter (fun n => decide (n ≠ 0)) = later at nonzero
    by_cases never : n = 0
    · simp [minNonzero, never]
    · cases least : later.min? with
      | none => simp [minNonzero, never, List.min?_cons, least]
      | some m => simp [minNonzero, never, nonzero least, List.min?_cons, least]

/-- The smallest of a call's nonzero thresholds for its next level, `none` where its kinds never reach it. -/
def Call.threshold (c : Call) (p : Policy) : Option Nat :=
  ((c.kinds.map fun k => (p.of k).at_ (c.level + 1)).filter fun n => decide (n ≠ 0)).min?

theorem effective_eq_threshold (c : Call) (p : Policy) :
    p.effective c.kinds (c.level + 1) = (c.threshold p).getD 0 := by
  rw [Call.threshold, ← foldr_minNonzero, List.foldr_map]
  rfl

/-- The effective threshold is met where the smallest nonzero one is. -/
theorem effective_met_iff (c : Call) (p : Policy) (n : Nat) :
    (p.effective c.kinds (c.level + 1) ≠ 0 ∧ p.effective c.kinds (c.level + 1) ≤ n) ↔
      (c.threshold p).any (fun t => decide (t ≤ n)) = true := by
  rw [effective_eq_threshold]
  cases found : c.threshold p with
  | none => simp
  | some m =>
    have nonzero : m ≠ 0 := by simpa using (List.mem_filter.1 (List.min?_mem found)).2
    simp [nonzero]

/-! ### A call's second (R58) -/

/-- The hold time after a second. -/
def Call.held (c : Call) : Nat := if c.phase = .hold then addSecond c.holdTime else c.holdTime

/-- The escalation time after a second outside BREAK: it stands while grace runs. -/
def Call.escalated (c : Call) : Nat := if c.grace = 0 then addSecond c.escalation else c.escalation

/-- The level rises in a second under this shift state. -/
def Call.rises (c : Call) (p : Policy) (state : ShiftState) : Bool :=
  decide (state ≠ .inBreak) && decide (c.level < 3) && (c.threshold p).any fun t => decide (t ≤ c.escalated)

theorem levelTest_eq (c : Call) (p : Policy) :
    c.levelTest p = { c with
      level := if c.level < 3 ∧ (c.threshold p).any (fun t => decide (t ≤ c.escalation)) = true then c.level + 1
        else c.level } := by
  unfold Call.levelTest
  simp only [effective_met_iff]
  split <;> rfl

theorem rises_iff (c : Call) (p : Policy) {state : ShiftState} (outside : state ≠ .inBreak) :
    c.rises p state = true ↔ c.level < 3 ∧ (c.threshold p).any (fun t => decide (t ≤ c.escalated)) = true := by
  simp [Call.rises, outside]

/-- In BREAK a second ends at the hold time. -/
theorem second_inBreak (c : Call) (p : Policy) : c.second p .inBreak = { c with holdTime := c.held } := by
  unfold Call.second Call.held
  simp only [if_true]
  split <;> rfl

/-- Outside BREAK a second goes on to grace or escalation and the level test. -/
theorem second_outside (c : Call) (p : Policy) {state : ShiftState} (outside : state ≠ .inBreak) :
    c.second p state =
      { c with
        holdTime := c.held, grace := c.grace - 1, escalation := c.escalated
        level := if c.rises p state then c.level + 1 else c.level } := by
  have counted : c.second p state =
      { c with holdTime := c.held, grace := c.grace - 1, escalation := c.escalated : Call }.levelTest p := by
    unfold Call.second Call.held Call.escalated
    rcases Nat.eq_zero_or_pos c.grace with none | some
    · by_cases hold : c.phase = .hold <;> simp [outside, none, hold]
    · by_cases hold : c.phase = .hold <;> simp [outside, some, Nat.ne_of_gt some, hold]
  rw [counted, levelTest_eq, if_congr (rises_iff c p outside) rfl rfl]
  rfl

/-- The level is the same or one higher. -/
theorem second_level (c : Call) (p : Policy) (state : ShiftState) :
    decide (c.level < (c.second p state).level) = c.rises p state := by
  by_cases inBreak : state = .inBreak
  · subst inBreak
    simp [second_inBreak, Call.rises]
  · rw [second_outside c p inBreak]
    cases h : c.rises p state <;> simp

/-! ### The seconds of the calls taken -/

/-- An open call after the seconds taken. -/
def State.afterSeconds (s : State) (only : Option Nat) (c : Call) : Call :=
  if secondOf only c then c.second s.callList.policy s.timer.state else c

/-- Some call's level rises, which requests STATIONS and TICKER (R60, R161). -/
def State.someRise (s : State) (only : Option Nat) : Bool :=
  s.callList.calls.any fun c => secondOf only c && c.rises s.callList.policy s.timer.state

theorem callSeconds_eq (only : Option Nat) (s : State) :
    callSeconds only s =
      (((s.onCalls fun l => { l with calls := l.calls.map (s.afterSeconds only) }).raiseIf (s.someRise only)
        .stations).raiseIf (s.someRise only) .ticker) := by
  have rose : (fun c : Call => decide (c.level < (s.afterSeconds only c).level)) =
      fun c => secondOf only c && c.rises s.callList.policy s.timer.state := by
    funext c
    unfold State.afterSeconds
    cases secondOf only c
    · simp
    · simpa using second_level c _ _
  unfold State.someRise
  rw [← rose]
  rfl

/-- The event: the calls change, the causes follow, and a rise requests STATIONS and TICKER once each (log 9). -/
theorem callSecond_next {only : Option Nat} {s : State} (running : s.inReset = false) (quiet : s.Quiet) :
    ∃ t, exec (.callSecond only) s = .next t ∧
      t.callList = { s.callList with calls := s.callList.calls.map (s.afterSeconds only) } ∧
      RequestedOnly (if s.someRise only then [.stations, .ticker] else []) s t ∧ t.CausesCurrent ∧
      { t with callList := s.callList, engine := s.engine, alert := s.alert, tiles := s.tiles } = s ∧
      OnlyEchoes s t := by
  have next : exec (.callSecond only) s = .next (serve (decideAlert s (callSeconds only s))) :=
    centreEvent_next _ s running
  have latch : s.engine.requests = .none := quiet
  have requested : RequestedOnly (if s.someRise only then [.stations, .ticker] else []) s
      (serve (decideAlert s (callSeconds only s))) := by
    rw [callSeconds_eq]
    refine requestedOnly_of_latched ?_ fun r => ?_
    · rw [← latch]
      simp
    · cases s.someRise only <;> cases r <;> simp [latch, has_add, Role.isEngine]
  refine ⟨_, next, by simp [callSeconds_eq], requested, serve_causesCurrent (decideAlert_causesCurrent s _), ?_,
    onlyEchoes_of_requestedOnly (by simp) (by simp) requested⟩
  apply State.ext <;> simp

theorem secondOf_eq (only : Option Nat) (c : Call) : secondOf only c = only.all fun n => decide (c.number = n) := by
  cases only <;> rfl

/-- Settles O37: the event is `callSecond_next`'s, and each call's second is `second_inBreak` or `second_outside`. -/
theorem callSecondRaisesHoldTimeEscalationAndLevel : Obligations.CallSecondRaisesHoldTimeEscalationAndLevel := by
  intro only s running quiet taken more hold escalation threshold rises
  obtain ⟨t, next, callList, requested, causes, frame, echoes⟩ := callSecond_next (only := only) running quiet
  have rise (c : Call) : (secondOf only c && c.rises s.callList.policy s.timer.state) = rises c := by
    rw [secondOf_eq]
    simp only [Call.rises, ← Bool.and_assoc]
    rfl
  have someRise : s.someRise only = s.callList.calls.any rises := by
    simp only [State.someRise, rise]
  have after (c : Call) : s.afterSeconds only c =
      if taken c = false then c
      else if s.timer.state = .inBreak then { c with holdTime := hold c }
      else
        { c with
          holdTime := hold c, grace := c.grace - 1, escalation := escalation c
          level := if rises c then c.level + 1 else c.level } := by
    unfold State.afterSeconds
    cases isTaken : secondOf only c with
    | false =>
      rw [if_pos ((secondOf_eq only c).symm.trans isTaken)]
      rfl
    | true =>
      have notFalse : ¬taken c = false := by simp [taken, ← secondOf_eq, isTaken]
      rw [if_neg notFalse, if_pos rfl]
      split
      · rename_i inBreak
        rw [inBreak, second_inBreak]
        rfl
      · rename_i outside
        rw [second_outside c _ outside, ← rise, isTaken, Bool.true_and]
        rfl
  refine ⟨t, next, ?_, someRise ▸ requested, causes, frame, echoes⟩
  rw [callList, funext after]

end Sys2Proof.Machine
end

section
/-! WRITE POLICY (R57) and WRITE LINK SETTINGS (R142). -/

namespace Sys2Proof.Machine

/-! ### WRITE POLICY (R57) -/

/-- The thresholds of a kind, each raised to the highest nonzero one before it and left at 0 where it is 0. -/
theorem storedThresholds_eq (x y z : Nat) :
    storedThresholds x y z =
      { level1 := min 3600 x
        level2 := if min 3600 y = 0 then 0 else max (min 3600 y) (min 3600 x)
        level3 := if min 3600 z = 0 then 0 else max (min 3600 z) (max (min 3600 x) (min 3600 y)) } := by
  unfold storedThresholds clampThreshold
  generalize min 3600 x = a
  generalize min 3600 y = b
  generalize min 3600 z = c
  have highest : max a (if b = 0 then 0 else max b a) = max a b := by
    split <;> omega
  simp only [highest]

/-- WRITE POLICY stores its table and is answered, and nothing else follows. -/
theorem writePolicy_next (v : Vector Half 15) (g : Half) {s : State} (running : s.inReset = false) (quiet : s.Quiet)
    (h : s.plant.transaction = .arguments .writePolicy) :
    exec (.writePolicy v g) s =
      .next { s with plant := s.plant.answered .ok, callList := { s.callList with policy := storedPolicy v g } } :=
  commandEvent_onCalls (g := fun c => { c with policy := storedPolicy v g }) running quiet h rfl

/-! ### WRITE LINK SETTINGS (R142) -/

theorem lineTimeout_eq {n : Nat} (h : n ≤ 3) : Config.lineTimeout n = [none, some 1, some 2, some 5].getD n none := by
  interval_cases n <;> rfl

theorem plantTimeout_eq {n : Nat} (h : n ≤ 3) :
    Config.plantTimeout n = [none, some 5, some 15, some 60].getD n none := by
  interval_cases n <;> rfl

/-- The state with the settings stored and the command answered, before the intensity follows. -/
def State.withLinkSettings (s : State) (a b c : Byte) : State :=
  { s with
    line := { s.line with
      link := { s.line.link with timeout := Config.lineTimeout a.toNat }, broadcastEnable := c.getLsbD 0 }
    plant := { s.plant.answered .ok with
      link := { s.plant.link with timeout := Config.plantTimeout b.toNat } }
    alert := { s.alert with mask := ⟨c.getLsbD 1, c.getLsbD 2, c.getLsbD 3⟩ } }

theorem applyLinkSettings_range {a b c : Byte} {s : State} (h : 3 < a.toNat ∨ 3 < b.toNat) :
    applyLinkSettings a b c s = (s, .range) := if_pos h

theorem applyLinkSettings_taken {a b : Byte} (c : Byte) {s : State} (ha : a.toNat ≤ 3) (hb : b.toNat ≤ 3) :
    setTransaction .ignoring (setPlantResult (applyLinkSettings a b c s).2 (applyLinkSettings a b c s).1) =
      s.withLinkSettings a b c := by
  have codes : ¬(3 < a.toNat ∨ 3 < b.toNat) := by omega
  rw [applyLinkSettings, if_neg codes]
  rfl

/-- With the causes current the alert decision leaves the Alert Logic as it is. -/
theorem decideAlert_alert {old s : State} (causes : s.CausesCurrent) : (decideAlert old s).alert = s.alert := by
  have kept := (decideAlert_echoes old s).1
  have current : (decideAlert old s).alert.causes = s.alert.causes :=
    (decideAlert_causesCurrent old s).trans
      ((presentCauses_congr (by simp) (by simp) (by simp) : _ = s.presentCauses).trans causes.symm)
  rw [← kept, ← current]

/-- The settings stored, with the intensity following the target that the mask gives (R175). -/
theorem writeLinkSettings_next {a b : Byte} (c : Byte) {s : State} (running : s.inReset = false) (quiet : s.Quiet)
    (h : s.plant.transaction = .arguments .writeLinkSettings) (ha : a.toNat ≤ 3) (hb : b.toNat ≤ 3) :
    exec (.writeLinkSettings a b c) s = .next (decideAlert s (s.withLinkSettings a b c)) := by
  have next : exec (.writeLinkSettings a b c) s =
      .next (serve (decideAlert s (takeCommand .writeLinkSettings (applyLinkSettings a b c) s))) :=
    centreEvent_next _ s running
  rw [takeCommand_arguments h, applyLinkSettings_taken c ha hb] at next
  have stillQuiet : (decideAlert s (s.withLinkSettings a b c)).Quiet :=
    (congrArg Engine.requests (decideAlert_echoes s (s.withLinkSettings a b c)).2.2).trans quiet
  rwa [serve_quiet _ stillQuiet] at next

/-- Settles O38: WRITE POLICY's next state is `writePolicy_next`'s, with each kind's thresholds by
`storedThresholds_eq`; WRITE LINK SETTINGS is refused, or the alert decision follows its new mask
(`writeLinkSettings_next`). -/
theorem policyAndLinkSettingsAreStored : Obligations.PolicyAndLinkSettingsAreStored := by
  intro v g a b c s running quiet
  refine ⟨?policy, ?settings⟩
  case policy =>
    intro h cut row
    have stored (x y z : Fin 15) : row x y z (storedThresholds (v[x]).toNat (v[y]).toNat (v[z]).toNat) := by
      rw [storedThresholds_eq]
      exact ⟨rfl, rfl, rfl⟩
    exact ⟨_, writePolicy_next v g running quiet h, stored 0 1 2, stored 3 4 5, stored 6 7 8, stored 9 10 11,
      stored 12 13 14, rfl, rfl, rfl, rfl⟩
  case settings =>
    intro causes h
    refine ⟨fun codes => centreEvent_refused running quiet causes h (applyLinkSettings_range codes),
      fun ha hb => ?_⟩
    obtain ⟨-, actual, -⟩ := decideAlert_echoes s (s.withLinkSettings a b c)
    have alert : (decideAlert s (s.withLinkSettings a b c)).alert = (s.withLinkSettings a b c).alert :=
      decideAlert_alert causes
    refine ⟨_, writeLinkSettings_next c running quiet h ha hb, ?line, ?plant, alert, actual, ?intensity, ?frame⟩
    case line => simp [State.withLinkSettings, lineTimeout_eq ha]
    case plant => simp [State.withLinkSettings, plantTimeout_eq hb]
    case intensity => exact decideAlert_intensity rfl
    case frame => apply State.ext <;> simp [State.withLinkSettings]

end Sys2Proof.Machine
end

section
/-! The Shift Timer's form (TimerForm): what each event of the shift does to the timer and to the figures. -/

namespace Sys2Proof.Machine

/-! ### TimerForm in two parts -/

/-- The part of TimerForm that is about the Shift Timer (R63, R68, R71, R75). -/
structure ShiftTimer.Form (t : ShiftTimer) : Prop where
  plans : ∀ p, t.staged = some p ∨ t.next = some p ∨ t.active = some p → p.InRange
  running : t.state ≠ .noShift → t.number ≠ 0 ∧ t.active.isSome = true
  pending : ∀ q, t.pendingStart = some q → t.state = .closing ∧ q.number ≠ 0
  low : -60 ≤ t.correction
  high : t.correction ≤ 60

/-- The part of TimerForm that is about the stored figures (R86, R88). -/
structure PaceUnit.Form (u : PaceUnit) : Prop where
  target : u.figures.g = u.figures.gm / 1000
  shown : u.figures.shownActual = u.actual

theorem timerForm_iff (s : State) : s.TimerForm ↔ s.timer.Form ∧ s.pace.Form := by
  constructor
  · rintro ⟨plans, running, pending, low, high, target, shown⟩
    exact ⟨⟨plans, running, pending, low, high⟩, ⟨target, shown⟩⟩
  · rintro ⟨⟨plans, running, pending, low, high⟩, ⟨target, shown⟩⟩
    exact ⟨plans, running, pending, low, high, target, shown⟩

theorem State.TimerForm.congr {s t : State} (h : s.TimerForm) (timer : t.timer = s.timer) (pace : t.pace = s.pace) :
    t.TimerForm := by
  simpa only [State.TimerForm, timer, pace] using h

/-! ### The Shift Timer's part -/

section
variable {t : ShiftTimer} (h : t.Form)
include h

/-- The clocks, the opening and the correction within its bounds are free. -/
theorem ShiftTimer.Form.clocked (openedAt openingWc runClock clock wc : Nat) {c : Int} (low : -60 ≤ c) (high : c ≤ 60) :
    { t with
      openedAt := openedAt, openingWc := openingWc, runClock := runClock, clock := clock, wc := wc
      correction := c }.Form :=
  ⟨h.plans, h.running, h.pending, low, high⟩

/-- A change of state among those in which the shift has a number and a plan. -/
theorem ShiftTimer.Form.moved {x : ShiftState} (running : t.state ≠ .noShift) (closing : t.state = .closing → x = .closing) :
    { t with state := x }.Form :=
  ⟨h.plans, fun _ => h.running running, fun q hq => ⟨closing (h.pending q hq).1, (h.pending q hq).2⟩, h.low, h.high⟩

/-- A start held pending in CLOSING (R71). -/
theorem ShiftTimer.Form.held (running : t.state ≠ .noShift) {number offset : Nat} (named : number ≠ 0) :
    { t with state := .closing, pendingStart := some ⟨number, offset⟩ }.Form := by
  refine ⟨h.plans, fun _ => h.running running, ?_, h.low, h.high⟩
  rintro q ⟨⟩
  exact ⟨rfl, named⟩

/-- The timer of a shift that is over, no start pending (R72). -/
theorem ShiftTimer.Form.freed : { t with state := .noShift, pendingStart := none }.Form :=
  ⟨h.plans, fun running => absurd rfl running, nofun, h.low, h.high⟩

/-- A shift opened with a number under a plan at hand (R70). -/
theorem ShiftTimer.Form.opened {p : Plan} (plan : t.opening = some p) {number offset : Nat} (named : number ≠ 0)
    (free : t.pendingStart = none) : (t.opened p number offset).Form := by
  have held : p.InRange := by
    unfold ShiftTimer.opening at plan
    cases next : t.next with
    | some q => exact h.plans p (.inr (.inl (next.trans (by simpa [next] using plan))))
    | none => exact h.plans p (.inr (.inr (by simpa [next] using plan)))
  refine ⟨?_, fun _ => ⟨named, rfl⟩, ?_, (by decide : (-60 : Int) ≤ 0), (by decide : (0 : Int) ≤ 60)⟩
  · rintro q (staged | next | active)
    · exact h.plans q (.inl staged)
    · cases next
    · cases active
      exact held
  · intro q hq
    exact absurd (free.symm.trans hq) nofun

/-- Plans in range put into the holders, the active one not emptied (R64, R66, R67). -/
theorem ShiftTimer.Form.planned {staged next active : Option Plan}
    (plans : ∀ p, staged = some p ∨ next = some p ∨ active = some p → p.InRange)
    (kept : t.active.isSome = true → active.isSome = true) :
    { t with staged := staged, next := next, active := active }.Form :=
  ⟨plans, fun running => (h.running running).imp_right kept, h.pending, h.low, h.high⟩

end

/-! ### The figures' part -/

/-- A computation gives G as the cars of Gm, and takes the A that stands (R86, R88). -/
theorem computeFigures_form (s : State) :
    s.computeFigures.g = s.computeFigures.gm / 1000 ∧ s.computeFigures.shownActual = s.pace.actual := by
  unfold State.computeFigures
  dsimp only
  split <;> exact ⟨rfl, rfl⟩

theorem recompute_pace (s : State) : (recompute s).pace = { s.pace with figures := s.computeFigures } := by
  simp [recompute]

theorem recompute_paceForm (s : State) : (recompute s).pace.Form := by
  rw [recompute_pace]
  exact ⟨(computeFigures_form s).1, (computeFigures_form s).2⟩

/-- Where the timer keeps its form, so does a computation of the figures. -/
theorem recompute_timerForm {s : State} (h : s.timer.Form) : (recompute s).TimerForm :=
  (timerForm_iff _).2 ⟨by simpa using h, recompute_paceForm s⟩

/-! ### The start of a close and OVERTIME (R78 to R80, R87) -/

theorem startClose_timerForm {s : State} (h : s.TimerForm) (reason : CloseReason) (running : s.timer.state ≠ .noShift) :
    (startClose reason s).TimerForm := by
  obtain ⟨timer, pace⟩ := (timerForm_iff s).1 h
  exact (timerForm_iff _).2 ⟨timer.moved running fun _ => rfl, pace⟩

theorem enterOvertime_timerForm {s : State} (h : s.TimerForm) (running : s.timer.state = .production) :
    (enterOvertime s).TimerForm := by
  obtain ⟨timer, -⟩ := (timerForm_iff s).1 h
  exact recompute_timerForm (timer.moved (by simp [running]) (by simp [running]))

theorem endOfShiftTest_timerForm {s : State} (h : s.TimerForm) (running : s.timer.state = .production) :
    (endOfShiftTest s).TimerForm := by
  have opened : s.timer.state ≠ .noShift := by simp [running]
  unfold endOfShiftTest
  split
  · exact startClose_timerForm h _ opened
  · split
    · exact startClose_timerForm h _ opened
    · exact enterOvertime_timerForm h running

theorem advanceEndTest_timerForm {s : State} (h : s.TimerForm) : (advanceEndTest s).TimerForm := by
  unfold advanceEndTest
  split
  · rename_i atEnd
    exact endOfShiftTest_timerForm h atEnd.1
  · split
    · rename_i atLimit
      exact startClose_timerForm h _ (by simp [atLimit.1])
    · exact h

theorem targetTest_timerForm {s : State} (h : s.TimerForm) : (targetTest s).TimerForm := by
  unfold targetTest
  split
  · rename_i met
    exact startClose_timerForm h _ (by simp [met.1])
  · exact h

/-! ### The actual count (R91, R92) -/

theorem actualTaken_timerForm {s : State} (h : s.TimerForm) (a : Nat) :
    (targetTest (recompute (s.onPace fun u => { u with actual := a }))).TimerForm :=
  targetTest_timerForm (recompute_timerForm ((timerForm_iff s).1 h).1)

theorem handOn_timerForm {s : State} (h : s.TimerForm) (old : State) : (handOn old s).TimerForm :=
  h.congr (by simp) (by simp)

theorem changeActual_timerForm {s : State} (h : s.TimerForm) (a : Nat) : (changeActual a s).TimerForm := by
  unfold changeActual
  split
  · exact h
  · exact handOn_timerForm (actualTaken_timerForm h a) s

theorem carCounted_timerForm {s : State} (h : s.TimerForm) : (carCounted s).TimerForm := by
  unfold carCounted
  split
  · exact (actualTaken_timerForm h (s.pace.actual + 1)).congr (by simp) (by simp)
  · exact h

/-- A step reaches the timer and the figures by the car it counts alone (R20). -/
theorem stepZone_timerForm (k : Fin 6) {s : State} (h : s.TimerForm) : (stepZone k s).TimerForm := by
  have moved (f : Fin 5 → Buffer) : ((stepCounted k s).withBuffers f).TimerForm := h.congr (by simp) (by simp)
  have taken : (stepTaken k s).TimerForm := by
    obtain ⟨f, uncounted | counted⟩ := stepTaken_cases k s
    · rw [uncounted]
      exact moved f
    · rw [counted]
      exact carCounted_timerForm (moved f)
  rw [stepZone_eq]
  exact taken.congr (by simp) (by simp)

theorem givePitch_timerForm (e : PitchEvent) {s : State} (h : s.TimerForm) :
    (givePitch e.zone e.moment s).TimerForm := by
  have given : (s.onPitch e.zone (PinFilter.afterPitch e.moment)).TimerForm := h
  rw [(givePitch_spec e.zone e.moment s).2]
  split
  · exact stepZone_timerForm _ given
  · exact given

/-! ### The shift second (R75, R76) -/

/-- Step 1 of an advance moves between PRODUCTION and BREAK alone. -/
theorem stateAt_cases (t : ShiftTimer) (c : Nat) :
    t.stateAt c = t.state ∨ t.state = .production ∧ t.stateAt c = .inBreak ∨
      t.state = .inBreak ∧ t.stateAt c = .production := by
  unfold ShiftTimer.stateAt
  split
  · rename_i enters
    exact .inr (.inl ⟨enters.1, rfl⟩)
  · split
    · rename_i leaves
      exact .inr (.inr ⟨leaves.1, rfl⟩)
    · exact .inl rfl

theorem advanceClock_timer (s : State) :
    (advanceClock s).timer =
      { s.timer with clock := s.timer.clock + 1, state := s.timer.stateAt (s.timer.clock + 1) } := by
  simp [advanceClock]

theorem advanceClock_timerForm {s : State} (h : s.TimerForm) : (advanceClock s).TimerForm := by
  obtain ⟨timer, pace⟩ := (timerForm_iff s).1 h
  refine (timerForm_iff _).2 ⟨?_, by simpa using pace⟩
  rw [advanceClock_timer]
  have moved : { s.timer with state := s.timer.stateAt (s.timer.clock + 1) }.Form := by
    obtain same | ⟨before, -⟩ | ⟨before, -⟩ := stateAt_cases s.timer (s.timer.clock + 1)
    · rw [same]
      exact timer
    all_goals exact timer.moved (by simp [before]) (by simp [before])
  exact moved.clocked _ _ _ _ _ timer.low timer.high

theorem productiveSecond_timerForm {s : State} (h : s.TimerForm) : (productiveSecond s).TimerForm := by
  have timer := ((timerForm_iff s).1 h).1
  have charged : (recompute (chargeSecond (s.onTimer fun t => { t with wc := t.wc + 1 }))).TimerForm :=
    recompute_timerForm (by simpa using timer.clocked _ _ _ _ (s.timer.wc + 1) timer.low timer.high)
  exact charged.congr (by simp [productiveSecond]) (by simp [productiveSecond])

theorem advance_timerForm {s : State} (h : s.TimerForm) : (advance s).TimerForm := by
  have clock := advanceClock_timerForm h
  unfold advance
  split
  · exact handOn_timerForm (advanceEndTest_timerForm (productiveSecond_timerForm (handOn_timerForm clock s))) _
  · exact handOn_timerForm (advanceEndTest_timerForm clock) s

theorem setCorrection_timerForm {s : State} (h : s.TimerForm) {c : Int} (low : -60 ≤ c) (high : c ≤ 60) :
    (setCorrection c s).TimerForm := by
  obtain ⟨timer, pace⟩ := (timerForm_iff s).1 h
  exact (timerForm_iff _).2 ⟨timer.clocked _ _ _ _ _ low high, pace⟩

theorem shiftSecond_timerForm {s : State} (h : s.TimerForm) : (shiftSecond s).TimerForm := by
  have timer := ((timerForm_iff s).1 h).1
  have low := timer.low
  have high := timer.high
  unfold shiftSecond
  split
  · split
    · refine setCorrection_timerForm ?_ (by omega) (by omega)
      unfold advanceIfOpen
      split
      · exact advance_timerForm (advance_timerForm h)
      · exact advance_timerForm h
    · split
      · exact setCorrection_timerForm h (by omega) (by omega)
      · exact advance_timerForm h
  · exact h

/-! ### Starts, marks and the completion of a close (R70 to R72, R77) -/

theorem openShift_timerForm {s : State} (h : s.timer.Form) {p : Plan} (plan : s.timer.opening = some p)
    {number : Nat} (offset : Nat) (named : number ≠ 0) (free : s.timer.pendingStart = none) :
    (openShift p number offset s).TimerForm := by
  refine (timerForm_iff _).2 ⟨?_, ?_⟩
  · simpa [openShift] using h.opened plan (offset := offset) named free
  · simpa [openShift] using recompute_paceForm _

theorem applyTimeMark_timerForm (number seconds : Nat) {s : State} (h : s.TimerForm) :
    (applyTimeMark number seconds s).1.TimerForm := by
  unfold applyTimeMark
  split
  · exact h
  · split
    · exact h
    · exact setCorrection_timerForm h (by omega) (by omega)

/-- In CLOSING, and as another shift's start ends the open one, the start is held (R71). -/
theorem heldClosing_timerForm {s : State} (h : s.TimerForm) (running : s.timer.state ≠ .noShift) {number : Nat}
    (named : number ≠ 0) (offset : Nat) : (startClose .newShift (holdStart number offset s)).TimerForm := by
  obtain ⟨timer, pace⟩ := (timerForm_iff s).1 h
  exact (timerForm_iff _).2 ⟨timer.held running named, pace⟩

theorem applyShiftStart_timerForm (number offset : Nat) {s : State} (h : s.TimerForm) :
    (applyShiftStart number offset s).1.TimerForm := by
  obtain ⟨timer, pace⟩ := (timerForm_iff s).1 h
  have ends (open_ : s.timer.state.isOpen = true) (named : number ≠ 0) :
      (if number = s.timer.number then applyTimeMark number offset s
        else (handOn s (startClose .newShift (holdStart number offset s)), Verdict.ok)).1.TimerForm := by
    split
    · exact applyTimeMark_timerForm number offset h
    · refine handOn_timerForm (heldClosing_timerForm h ?_ named offset) s
      intro closed
      simp [closed, ShiftState.isOpen] at open_
  unfold applyShiftStart
  split
  · exact h
  · rename_i named
    cases state : s.timer.state with
    | noShift =>
      have free : s.timer.pendingStart = none := by
        cases pending : s.timer.pendingStart with
        | none => rfl
        | some q => exact absurd (state.symm.trans (timer.pending q pending).1) nofun
      dsimp only
      split
      · exact h
      · rename_i p plan
        exact handOn_timerForm (openShift_timerForm timer plan offset named free) s
    | closing =>
      refine (timerForm_iff _).2 ⟨?_, pace⟩
      have held := timer.held (by simp [state]) (offset := offset) named
      rw [← state] at held
      exact held
    | production | inBreak | overtime => exact ends (by rw [state]; rfl) named

theorem takePending_none {s : State} (none : s.timer.pendingStart = none) : takePending s = s := by
  simp [takePending, none]

theorem takePending_some {s : State} {q : PendingStart} {p : Plan} (pending : s.timer.pendingStart = some q)
    (plan : s.timer.opening = some p) :
    takePending s = openShift p q.number q.offset (s.onTimer fun t => { t with pendingStart := none }) := by
  simp [takePending, pending, plan]

/-- The state as the Archive completes its slot, before any pending start is taken (R107). -/
def State.closeCompleted (s : State) : State :=
  { s with archive := s.archive.completed, timer := { s.timer with state := .noShift } }

theorem completeClose_closing {s : State} (closing : s.timer.state = .closing) :
    completeClose s = handOn s (takePending s.closeCompleted) := if_pos closing

theorem completeClose_idle {s : State} (idle : s.timer.state ≠ .closing) : completeClose s = s := if_neg idle

/-- The completion of a close leaves no start pending: a plan is at hand for the one that is (R72). -/
theorem completeClose_timerForm {s : State} (h : s.TimerForm) : (completeClose s).TimerForm := by
  obtain ⟨timer, pace⟩ := (timerForm_iff s).1 h
  by_cases closing : s.timer.state = .closing
  · rw [completeClose_closing closing]
    refine handOn_timerForm ?_ s
    obtain ⟨-, active⟩ := timer.running (by simp [closing])
    obtain ⟨p, plan⟩ : ∃ p, s.timer.opening = some p := by
      obtain ⟨a, active⟩ := Option.isSome_iff_exists.1 active
      cases next : s.timer.next with
      | some q => exact ⟨q, by simp [ShiftTimer.opening, next]⟩
      | none => exact ⟨a, by simp [ShiftTimer.opening, next, active]⟩
    have freed : { s.timer with state := .noShift, pendingStart := none }.Form := timer.freed
    cases pending : s.timer.pendingStart with
    | none =>
      rw [takePending_none (s := s.closeCompleted) pending]
      refine (timerForm_iff _).2 ⟨?_, pace⟩
      rw [← pending] at freed
      exact freed
    | some q =>
      rw [takePending_some (s := s.closeCompleted) pending plan]
      exact openShift_timerForm (s := s.closeCompleted.onTimer fun t => { t with pendingStart := none }) freed
        (p := p) plan q.offset (timer.pending q pending).2 rfl
  · rwa [completeClose_idle closing]

/-! ### Plans (R64 to R67) -/

/-- A plan that is staged lies in range (R64). -/
theorem judgePlan_inRange {length takt overtime count : Nat} {args : List BreakArg} {p : Plan}
    (h : judgePlan length takt overtime count args = .ok p) : p.InRange := by
  have lengths := clamp_bounds (x := length) (by decide : 1800 ≤ 43200)
  have takts := clamp_bounds (x := takt) (by decide : 300 ≤ 6000)
  unfold judgePlan at h
  split at h
  · cases h
  · rename_i few
    dsimp only at h
    split at h
    · cases h
      have used : ((args.take count).map BreakArg.clamped).length ≤ 6 := by
        simp only [List.length_map, List.length_take]
        omega
      refine ⟨lengths.1, lengths.2, takts.1, takts.2, Nat.min_le_left _ _, ?_⟩
      have fitted := List.length_filter_le (fun b : Break => decide (b.start < clamp 1800 43200 length))
        ((args.take count).map BreakArg.clamped)
      simp only [fitBreaks, List.length_map] at fitted used ⊢
      omega
    · cases h

theorem applyStagePlan_timerForm (length takt overtime : Half) (count : Byte) (breaks : Vector BreakArg 6) (s : State)
    (h : s.TimerForm) : (applyStagePlan length takt overtime count breaks s).1.TimerForm := by
  obtain ⟨timer, pace⟩ := (timerForm_iff s).1 h
  unfold applyStagePlan
  split
  · exact h
  · rename_i p judged
    refine (timerForm_iff _).2 ⟨timer.planned (t := s.timer) (staged := some p) ?_ id, pace⟩
    rintro q (new | held)
    · cases new
      exact judgePlan_inRange judged
    · exact timer.plans q (.inr held)

theorem applyDiscard_timerForm (s : State) (h : s.TimerForm) : (applyDiscard s).1.TimerForm := by
  obtain ⟨timer, pace⟩ := (timerForm_iff s).1 h
  refine (timerForm_iff _).2 ⟨timer.planned (t := s.timer) (staged := none) ?_ id, pace⟩
  rintro q (none | held)
  · cases none
  · exact timer.plans q (.inr held)

/-- A state decided again is one of an open shift (R67). -/
theorem redecided_open (t : ShiftTimer) : t.redecided.isOpen = true := by
  unfold ShiftTimer.redecided
  (repeat' split) <;> rfl

/-- The state of a COMMIT NOW before its figures are computed: rebased, under the new plan, with the state decided again
and, in OVERTIME, the target held (R67 steps 1 to 3, R90). -/
def commitDecided (p : Plan) (s : State) : State :=
  holdAtCommit (((rebase s).onTimer fun t => { t with active := some p, staged := none }).onTimer fun t =>
    { t with state := t.redecided })

theorem commitNow_eq (p : Plan) (s : State) :
    commitNow p s =
      handOn s (raiseLostCars s (commitOvertimeTests (commitEndTest (recompute (commitDecided p s))))) := rfl

theorem commitDecided_timer (p : Plan) (s : State) :
    (commitDecided p s).timer =
      { s.timer with
        active := some p, staged := none
        state := ShiftTimer.redecided { s.timer with active := some p, staged := none } } := by
  simp [commitDecided]

theorem commitEndTest_timerForm {s : State} (h : s.TimerForm) : (commitEndTest s).TimerForm := by
  unfold commitEndTest
  split
  · rename_i atEnd
    exact endOfShiftTest_timerForm h atEnd.1
  · exact h

theorem commitOvertimeTests_timerForm {s : State} (h : s.TimerForm) : (commitOvertimeTests s).TimerForm := by
  unfold commitOvertimeTests
  split
  · rename_i overtime
    split
    · exact startClose_timerForm h _ (by simp [overtime])
    · exact targetTest_timerForm h
  · exact h

theorem isOpen_ne {x : ShiftState} (h : x.isOpen = true) : x ≠ .noShift ∧ x ≠ .closing := by
  cases x <;> simp [ShiftState.isOpen] at h ⊢

theorem commitNow_timerForm {s : State} (h : s.TimerForm) {p : Plan} (staged : s.timer.staged = some p)
    (open_ : s.timer.state.isOpen = true) : (commitNow p s).TimerForm := by
  obtain ⟨timer, -⟩ := (timerForm_iff s).1 h
  obtain ⟨running, notClosing⟩ := isOpen_ne open_
  have planned : { s.timer with active := some p, staged := none }.Form := by
    refine timer.planned (t := s.timer) (staged := none) (next := s.timer.next) ?_ fun _ => rfl
    rintro q (none | next | new)
    · cases none
    · exact timer.plans q (.inr (.inl next))
    · cases new
      exact timer.plans p (.inl staged)
  have decided : (commitDecided p s).timer.Form := by
    rw [commitDecided_timer]
    exact planned.moved running fun closing => absurd closing notClosing
  have tested := commitOvertimeTests_timerForm (commitEndTest_timerForm (recompute_timerForm decided))
  rw [commitNow_eq]
  exact handOn_timerForm (tested.congr (by simp) (by simp)) s

theorem applyCommit_timerForm (mode : Nat) (s : State) (h : s.TimerForm) : (applyCommit mode s).1.TimerForm := by
  obtain ⟨timer, pace⟩ := (timerForm_iff s).1 h
  unfold applyCommit
  split
  · exact h
  · split
    · exact h
    · rename_i p staged
      split
      · exact h
      · split
        · rename_i now
          dsimp only
          exact commitNow_timerForm h staged now.2
        · have plans (q : Plan) (held : none = some q ∨ some p = some q ∨ s.timer.active = some q) : q.InRange := by
            obtain none | new | active := held
            · cases none
            · cases new
              exact timer.plans p (.inl staged)
            · exact timer.plans q (.inr (.inr active))
          have planned : (s.onTimer fun t => { t with next := some p, staged := none }).timer.Form :=
            timer.planned plans id
          exact (timerForm_iff _).2 ⟨planned, pace⟩

theorem applyShiftClose_timerForm (s : State) (h : s.TimerForm) : (applyShiftClose s).1.TimerForm := by
  unfold applyShiftClose
  split
  · rename_i open_
    exact handOn_timerForm (startClose_timerForm h _ (isOpen_ne open_).1) s
  · exact h

/-! ### Events, frames and commands -/

theorem event_timerForm {f : State → State} (hf : ∀ s, s.TimerForm → (f s).TimerForm) {s t : State}
    (h : s.TimerForm) (e : event f s = .next t) : t.TimerForm :=
  event_keeps hf (fun _ h => h.congr (by simp) (by simp)) h e

theorem centreEvent_timerForm {f : State → State} (hf : ∀ s, s.TimerForm → (f s).TimerForm) {s t : State}
    (h : s.TimerForm) (e : centreEvent f s = .next t) : t.TimerForm :=
  centreEvent_keeps hf (fun _ _ h => h.congr (by simp) (by simp)) (fun _ h => h.congr (by simp) (by simp)) h e

theorem takeFrame_timerForm {rule : FrameRule}
    (hr : ∀ fr apply, rule fr = some apply → ∀ s : State, s.TimerForm → (apply s).1.TimerForm) (s : State)
    (h : s.TimerForm) : (takeFrame rule s).TimerForm :=
  takeFrame_keeps (fun _ _ h => h) hr s h

theorem takeCommand_timerForm {c : PlantCommand} {rule : CommandRule}
    (hr : ∀ s : State, s.TimerForm → (rule s).1.TimerForm) (s : State) (h : s.TimerForm) :
    (takeCommand c rule s).TimerForm :=
  takeCommand_keeps (fun _ _ h => h.congr (by simp) (by simp)) (fun _ h => h.congr (by simp) (by simp))
    (fun _ _ h => h) hr s h

/-- The run clock is free. -/
theorem runClock_timerForm {s : State} (h : s.TimerForm) :
    ((s.onTimer fun t => { t with runClock := nextRunClock t.runClock }).raiseIf
      (minutesChange s.callList.calls s.timer.runClock (nextRunClock s.timer.runClock)) .ticker).TimerForm := by
  obtain ⟨timer, pace⟩ := (timerForm_iff s).1 h
  have clocked := timer.clocked s.timer.openedAt s.timer.openingWc (nextRunClock s.timer.runClock) s.timer.clock
    s.timer.wc timer.low timer.high
  exact (timerForm_iff _).2 ⟨by simpa using clocked, by simpa using pace⟩

theorem countAdjustRule_timerForm (fr : Frame) (apply : State → State × LineResult)
    (e : countAdjustRule fr = some apply) (s : State) (h : s.TimerForm) : (apply s).1.TimerForm := by
  unfold countAdjustRule at e
  split at e <;> cases e
  unfold applyCountAdjust
  split
  · exact changeActual_timerForm h _
  · exact h

theorem shiftStartRule_timerForm (fr : Frame) (apply : State → State × LineResult)
    (e : shiftStartRule fr = some apply) (s : State) (h : s.TimerForm) : (apply s).1.TimerForm := by
  unfold shiftStartRule at e
  split at e <;> cases e
  exact applyShiftStart_timerForm _ _ h

theorem timeMarkRule_timerForm (fr : Frame) (apply : State → State × LineResult)
    (e : timeMarkRule fr = some apply) (s : State) (h : s.TimerForm) : (apply s).1.TimerForm := by
  unfold timeMarkRule at e
  split at e <;> cases e
  exact applyTimeMark_timerForm _ _ h

/-! ### The step -/

/-- The commands that can change the Shift Timer or the Pace Unit; an edge of SCK can complete the bytes of any of
them. -/
def Instr.reachesShift : Instr → Bool
  | .hardReset _ | .endOfHardReset _ _ _ _ | .step _ | .runClockSecond | .shiftTimerSecond | .closeCompletion
  | .countAdjust | .lineShiftStart | .timeMark | .stagePlan _ _ _ _ _ | .commitPlan _ | .discardPlan
  | .plantShiftStart _ _ | .shiftClose | .commandByte (.edge _) => true
  | _ => false

/-- The frame of every other command, as it bears on the shift. -/
theorem exec_sameShift {c : Instr} {s t : State} (e : exec c s = .next t) (hc : Instr.reachesShift c = false) :
    t.timer = s.timer ∧ t.pace = s.pace := by
  cases c with
  | xstopChange m => simp only [execXstopChange_keeps m e, and_self]
  | xalertChange m => simp only [execXalertChange_keeps m e, and_self]
  | stallMonitorSecond k => simp only [execStallMonitorSecond_keeps k e, and_self]
  | callSecond only => simp only [execCallSecond_keeps only e, and_self]
  | lineLinkSecond => simp only [execLineLinkSecond_keeps e, and_self]
  | plantLinkSecond => simp only [execPlantLinkSecond_keeps e, and_self]
  | scrollSecond => simp only [execScrollSecond_keeps e, and_self]
  | scrollStep => simp only [execScrollStep_keeps e, and_self]
  | flashToggle => simp only [execFlashToggle_keeps e, and_self]
  | startTimerExpiry => simp only [execStartTimerExpiry_keeps e, and_self]
  | rampExpiry => simp only [execRampExpiry_keeps e, and_self]
  | presenceReturn tile present => simp only [execPresenceReturn_keeps tile present e, and_self]
  | renderPassComplete entry => simp only [execRenderPassComplete_keeps entry e, and_self]
  | addressByte input => simp only [execAddressByte_keeps input e, and_self]
  | lineStatusRead => simp only [execLineStatusRead_keeps e, and_self]
  | lineFrame bytes bits => simp only [execLineFrame_keeps bytes bits e, and_self]
  | pull => simp only [execPull_keeps e, and_self]
  | release => simp only [execRelease_keeps e, and_self]
  | leaderAck => simp only [execLeaderAck_keeps e, and_self]
  | leaderReset => simp only [execLeaderReset_keeps e, and_self]
  | bufferSet => simp only [execBufferSet_keeps e, and_self]
  | keepalive => simp only [execKeepalive_keeps e, and_self]
  | csFalling => simp only [execCsFalling_keeps e, and_self]
  | csRising bytes bits => simp only [execCsRising_keeps bytes bits e, and_self]
  | unknownCommand code => simp only [execUnknownCommand_keeps code e, and_self]
  | readStatus m => simp only [execReadStatus_keeps m e, and_self]
  | statusFlagByteSent => simp only [execStatusFlagByteSent_keeps e, and_self]
  | presenceExtension => simp only [execPresenceExtension_keeps e, and_self]
  | readStation m => simp only [execReadStation_keeps m e, and_self]
  | readCalls => simp only [execReadCalls_keeps e, and_self]
  | callRecordSlot => simp only [execCallRecordSlot_keeps e, and_self]
  | readPace m => simp only [execReadPace_keeps m e, and_self]
  | readLoss m => simp only [execReadLoss_keeps m e, and_self]
  | readSummary m => simp only [execReadSummary_keeps m e, and_self]
  | readHistory => simp only [execReadHistory_keeps e, and_self]
  | historySlot m => simp only [execHistorySlot_keeps m e, and_self]
  | rewindHistory => simp only [execRewindHistory_keeps e, and_self]
  | ackCall n r => simp only [execAckCall_keeps n r e, and_self]
  | clearCall n r => simp only [execClearCall_keeps n r e, and_self]
  | writeLayoutZone a b c d f g i j => simp only [execWriteLayoutZone_keeps a b c d f g i j e, and_self]
  | writeLayoutStation a b c => simp only [execWriteLayoutStation_keeps a b c e, and_self]
  | writePolicy v g => simp only [execWritePolicy_keeps v g e, and_self]
  | writeLinkSettings a b c => simp only [execWriteLinkSettings_keeps a b c e, and_self]
  | setWindow a b c d => simp only [execSetWindow_keeps a b c d e, and_self]
  | setCursor x y => simp only [execSetCursor_keeps x y e, and_self]
  | setAddressControl a b c d => simp only [execSetAddressControl_keeps a b c d e, and_self]
  | setColourMode m => simp only [execSetColourMode_keeps m e, and_self]
  | setMask f => simp only [execSetMask_keeps f e, and_self]
  | setMark => simp only [execSetMark_keeps e, and_self]
  | returnToMark => simp only [execReturnToMark_keeps e, and_self]
  | writePixels o => simp only [execWritePixels_keeps o e, and_self]
  | pixelGroup bytes => simp only [execPixelGroup_keeps bytes e, and_self]
  | readPixels => simp only [execReadPixels_keeps e, and_self]
  | pixelRead m => simp only [execPixelRead_keeps m e, and_self]
  | writeRegion a b c d f g h i j => simp only [execWriteRegion_keeps a b c d f g h i j e, and_self]
  | setIntensity a b c => simp only [execSetIntensity_keeps a b c e, and_self]
  | restartTiles => simp only [execRestartTiles_keeps e, and_self]
  | commandByte input =>
    cases input with
    | byte code => simp only [execCommandByte_byte_keeps code e, and_self]
    | edge => nomatch hc
  | hardReset | endOfHardReset | step | runClockSecond | shiftTimerSecond | closeCompletion | countAdjust
  | lineShiftStart | timeMark | stagePlan | commitPlan | discardPlan | plantShiftStart | shiftClose => nomatch hc

/-- Every command but an edge of SCK keeps the timer's form. -/
theorem exec_timerForm {c : Instr} {s t : State} (hc : ∀ e, c ≠ .commandByte (.edge e)) (h : s.TimerForm)
    (e : exec c s = .next t) : t.TimerForm := by
  cases c
  -- hard reset and its end
  case hardReset input =>
    have next := (execHardReset_next input s).symm.trans e
    dsimp only at next
    split at next <;> cases next
    · exact reset_timerForm.congr rfl rfl
    · exact h
  case endOfHardReset adr tst xtal gone =>
    have next := (execEndOfHardReset_next adr tst xtal gone s).symm.trans e
    dsimp only at next
    split at next <;> cases next
    · exact h.congr (by simp [endReset]) (by simp [endReset])
    · exact h
  -- cars, clocks and the shift
  case step p => exact centreEvent_timerForm (fun _ => givePitch_timerForm p) h e
  case runClockSecond =>
    exact event_timerForm (fun _ => runClock_timerForm) h e
  case shiftTimerSecond => exact centreEvent_timerForm (fun _ => shiftSecond_timerForm) h e
  case closeCompletion => exact centreEvent_timerForm (fun _ => completeClose_timerForm) h e
  case countAdjust => exact centreEvent_timerForm (takeFrame_timerForm countAdjustRule_timerForm) h e
  case lineShiftStart => exact centreEvent_timerForm (takeFrame_timerForm shiftStartRule_timerForm) h e
  case timeMark => exact event_timerForm (takeFrame_timerForm timeMarkRule_timerForm) h e
  case plantShiftStart number offset =>
    exact centreEvent_timerForm (takeCommand_timerForm fun _ => applyShiftStart_timerForm _ _) h e
  case shiftClose => exact centreEvent_timerForm (takeCommand_timerForm applyShiftClose_timerForm) h e
  -- plans
  case stagePlan length takt overtime count breaks =>
    exact event_timerForm (takeCommand_timerForm (applyStagePlan_timerForm _ _ _ _ _)) h e
  case commitPlan mode => exact centreEvent_timerForm (takeCommand_timerForm (applyCommit_timerForm _)) h e
  case discardPlan => exact event_timerForm (takeCommand_timerForm applyDiscard_timerForm) h e
  case commandByte input =>
    cases input with
    | byte code =>
      obtain ⟨timer, pace⟩ := exec_sameShift (c := .commandByte (.byte code)) e rfl
      exact h.congr timer pace
    | edge edge => exact absurd rfl (hc edge)
  all_goals exact h.congr (exec_sameShift e rfl).1 (exec_sameShift e rfl).2

/-- Settles O10: each event of the shift keeps the timer's form, and the others reach neither the timer nor the
figures. -/
theorem stepKeepsTimerForm : Obligations.StepKeepsTimerForm := by
  intro s t h e
  have ticked (s : State) (h : s.TimerForm) : (tick s).TimerForm :=
    h.congr (by simp only [tick_keeps]) (by simp only [tick_keeps])
  exact step_keeps_of_rows (I := State.TimerForm) (fun _ _ h => h) (fun _ _ h => h) ticked exec_timerForm h e

end Sys2Proof.Machine
end

section
/-! Events that reach the Shift Timer and a port alone, and the roles that an event latches, served at its end. -/

namespace Sys2Proof.Machine

/-! ### The roles latched are those served (R159) -/

/-- An event that latched these roles and changed nothing else of the engine serves them alone. -/
theorem Latches.served {roles : List Role} {s u : State} (h : Latches (· ∈ roles) s.engine u.engine) (quiet : s.Quiet) :
    RequestedOnly roles s (serve u) := by
  have latch : s.engine.requests = .none := quiet
  have rest := h.rest
  rw [latch] at rest
  refine serve_RequestedOnly roles rest fun r => ?_
  rw [Bool.eq_iff_iff, h.has, latch, decide_eq_true_iff]
  simp

theorem mem_ite_nil {p : Prop} [Decidable p] {l : List Role} {r : Role} : (r ∈ if p then l else []) ↔ p ∧ r ∈ l := by
  split <;> simp_all

/-- A role requested where a condition holds. -/
theorem raiseIf_latches_list {role : Role} (engine : role.isEngine = true) (b : Bool) (s : State) :
    Latches (· ∈ if b then [role] else []) s.engine (s.raiseIf b role).engine :=
  (raiseIf_latches engine b s).congr fun r => by rw [mem_ite_nil, List.mem_singleton]

/-! ### Frames and commands that reach the Shift Timer alone -/

/-- A frame of the centre that at most changes the Shift Timer is answered, and nothing else follows. -/
theorem centreFrame_onTimer {rule : FrameRule} {f : Frame} {rest : List Frame} {apply : State → State × LineResult}
    {s : State} {g : ShiftTimer → ShiftTimer} {r : LineResult} (running : s.inReset = false) (quiet : s.Quiet)
    (causes : s.CausesCurrent) (hq : s.line.queue = f :: rest) (hr : rule f = some apply)
    (applied : apply (s.dequeued rest) = ((s.dequeued rest).onTimer g, r)) :
    centreEvent (takeFrame rule) s = .next { s with line := s.line.answered rest r, timer := g s.timer } := by
  have taken := takeFrame_taken hq hr
  rw [← State.dequeued, applied] at taken
  rw [centreEvent_next _ _ running, taken]
  have decided := decideAlert_self { s with line := s.line.answered rest r, timer := g s.timer } causes
  exact congrArg _ ((congrArg serve decided).trans (serve_quiet _ quiet))

/-- The same for a frame that is no event of the centre. -/
theorem frameEvent_onTimer {rule : FrameRule} {f : Frame} {rest : List Frame} {apply : State → State × LineResult}
    {s : State} {g : ShiftTimer → ShiftTimer} {r : LineResult} (running : s.inReset = false) (quiet : s.Quiet)
    (hq : s.line.queue = f :: rest) (hr : rule f = some apply)
    (applied : apply (s.dequeued rest) = ((s.dequeued rest).onTimer g, r)) :
    event (takeFrame rule) s = .next { s with line := s.line.answered rest r, timer := g s.timer } := by
  have taken := takeFrame_taken hq hr
  rw [← State.dequeued, applied] at taken
  rw [event_next _ _ running, taken]
  exact congrArg _ (serve_quiet _ quiet)

/-- A plant command of the centre that at most changes the Shift Timer is answered, and nothing else follows. -/
theorem centreCommand_onTimer {c : PlantCommand} {rule : CommandRule} {s : State} {g : ShiftTimer → ShiftTimer}
    {r : PlantResult} (running : s.inReset = false) (quiet : s.Quiet) (causes : s.CausesCurrent)
    (h : s.plant.transaction = .arguments c) (applied : rule s = (s.onTimer g, r)) :
    centreEvent (takeCommand c rule) s = .next { s with plant := s.plant.answered r, timer := g s.timer } := by
  rw [centreEvent_next _ _ running, takeCommand_arguments h, applied]
  have decided := decideAlert_self { s with plant := s.plant.answered r, timer := g s.timer } causes
  exact congrArg _ ((congrArg serve decided).trans (serve_quiet _ quiet))

/-- The same for a command that is no event of the centre. -/
theorem commandEvent_onTimer {c : PlantCommand} {rule : CommandRule} {s : State} {g : ShiftTimer → ShiftTimer}
    {r : PlantResult} (running : s.inReset = false) (quiet : s.Quiet) (h : s.plant.transaction = .arguments c)
    (applied : rule s = (s.onTimer g, r)) :
    event (takeCommand c rule) s = .next { s with plant := s.plant.answered r, timer := g s.timer } := by
  rw [event_next _ _ running, takeCommand_arguments h, applied]
  exact congrArg _ (serve_quiet _ quiet)

/-! ### A command taken from its command byte (R132, R141) -/

/-- A command without arguments restarts the plant link within its own event. -/
theorem takeCommand_ready {c : PlantCommand} {s : State} (ready : s.plant.transaction = .ready)
    (bare : c.argBytes = 0) (rule : CommandRule) :
    takeCommand c rule s =
      setTransaction .ignoring (setPlantResult (rule (restartPlantLink s)).2 (rule (restartPlantLink s)).1) := by
  simp [takeCommand, State.decoded, ready, commandByteTaken, bare]

theorem restartPlantLink_plant (s : State) : (restartPlantLink s).plant = s.plant.linked := by
  simp [restartPlantLink, setPlantLink, Link.restarted, PlantPort.linked]

/-- The restart ends a LOST link, which requests the banner (R141). -/
theorem restartPlantLink_latches (s : State) :
    Latches (· ∈ s.plantLinkRoles) s.engine (restartPlantLink s).engine := by
  have ended : (decide (s.plant.link.restarted.state = .lost) != decide (s.plant.link.state = .lost)) =
      decide (s.plant.link.state = .lost) := by simp [Link.restarted]
  have latches := raiseIf_latches_list (role := .banner) rfl (decide (s.plant.link.state = .lost))
    (s.onPlant fun p => { p with link := s.plant.link.restarted })
  unfold restartPlantLink setPlantLink
  rw [ended]
  exact latches.congr fun r => by simp [State.plantLinkRoles]

end Sys2Proof.Machine
end

section
/-! The seconds of the run clock and of the two links (R69, R130, R141). -/

namespace Sys2Proof.Machine

/-- The run clock's second, before its request is served. -/
def State.clockTicked (s : State) : State :=
  (s.onTimer fun t => { t with runClock := nextRunClock t.runClock }).raiseIf
    (minutesChange s.callList.calls s.timer.runClock (nextRunClock s.timer.runClock)) .ticker

/-- The run clock's second, and TICKER where a call's minutes change. -/
theorem runClockSecond_next {s : State} (running : s.inReset = false) (quiet : s.Quiet) :
    ∃ t, exec .runClockSecond s = .next t ∧ t.timer = { s.timer with runClock := nextRunClock s.timer.runClock } ∧
      { t with timer := s.timer, engine := s.engine } = s ∧
      RequestedOnly (if minutesChange s.callList.calls s.timer.runClock (nextRunClock s.timer.runClock) then [.ticker]
        else []) s t := by
  have latches : Latches _ s.engine s.clockTicked.engine := raiseIf_latches_list (role := .ticker) rfl
    (minutesChange s.callList.calls s.timer.runClock (nextRunClock s.timer.runClock))
    (s.onTimer fun t => { t with runClock := nextRunClock t.runClock })
  have next : exec .runClockSecond s = event State.clockTicked s := rfl
  exact ⟨serve s.clockTicked, next.trans (event_next _ s running), by simp [State.clockTicked],
    by apply State.ext <;> simp [State.clockTicked], latches.served quiet⟩

/-! ### The links (R130, R141) -/

theorem expired_eq (timeout : Option Nat) (n : Nat) :
    Link.expired timeout n = timeout.any fun m => decide (m ≤ n) := by
  cases timeout <;> rfl

/-- A link's second takes it from UP to LOST: its count reaches the timeout (R130). -/
def Link.falls (l : Link) : Bool :=
  decide (l.state = .up) && Link.expired l.timeout (satSucc Config.linkCountMax l.count)

theorem second_eq (l : Link) :
    l.second =
      { l with
        state := if l.falls then .lost else l.state
        count := satSucc Config.linkCountMax l.count } := by
  simp [Link.second, Link.falls]

theorem falls_iff (l : Link) :
    l.falls = true ↔
      l.state = .up ∧ (l.timeout.any fun m => decide (m ≤ if l.count < 60 then l.count + 1 else l.count)) = true := by
  rw [Link.falls, expired_eq, Bool.and_eq_true, decide_eq_true_iff]
  rfl

/-- The state of a link changes in its second where it falls alone. -/
theorem second_state_eq_iff (l : Link) : l.second.state = l.state ↔ l.falls = false := by
  cases h : l.falls with
  | false => simp [second_eq, h]
  | true => simp [second_eq, h, ((falls_iff l).1 h).1]

/-- A line link second, and the three regions where the link falls (R131). -/
theorem lineLinkSecond_latches (s : State) :
    Latches (· ∈ if s.line.link.falls then [Role.stations, .ticker, .banner] else []) s.engine
      (lineLinkSecond s).engine := by
  have state : (lineLinkSecond s) =
      if s.line.link.falls then
        (((s.onLine fun l => { l with link := l.link.second }).raise .stations).raise .ticker).raise .banner
      else s.onLine fun l => { l with link := l.link.second } := by
    unfold lineLinkSecond raiseLineLink
    cases h : s.line.link.falls with
    | false => exact if_pos ((second_state_eq_iff s.line.link).2 h)
    | true => exact if_neg fun same => absurd ((second_state_eq_iff s.line.link).1 same) (by simp [h])
  rw [state]
  split
  · have raised := ((raise_latches (role := .stations) rfl (s.onLine fun l => { l with link := l.link.second })).trans
      (raise_latches (role := .ticker) rfl _)).trans (raise_latches (role := .banner) rfl _)
    exact raised.congr fun r => by simp [or_assoc]
  · exact (Latches.refl s.engine).congr fun r => by simp

/-- A plant link second, and the banner where the link falls (R141). -/
theorem plantLinkSecond_latches (s : State) :
    Latches (· ∈ if s.plant.link.falls then [Role.banner] else []) s.engine (plantLinkSecond s).engine := by
  have changes : (decide (s.plant.link.second.state = .lost) != decide (s.plant.link.state = .lost)) =
      s.plant.link.falls := by
    cases h : s.plant.link.falls with
    | false => simp [second_eq, h]
    | true => simp [second_eq, h, ((falls_iff _).1 h).1]
  have latches := raiseIf_latches_list (role := .banner) rfl s.plant.link.falls
    (s.onPlant fun p => { p with link := s.plant.link.second })
  unfold plantLinkSecond setPlantLink
  rw [changes]
  exact latches

theorem lineLinkSecond_line (s : State) :
    (lineLinkSecond s).line = { s.line with link := s.line.link.second } := by
  unfold lineLinkSecond raiseLineLink
  split <;> simp

theorem plantLinkSecond_plant (s : State) :
    (plantLinkSecond s).plant = { s.plant with link := s.plant.link.second } := by
  simp [plantLinkSecond, setPlantLink]

/-- Settles O20: the run clock's second is `runClockSecond_next`, and each link's second its latches served. -/
theorem timebaseSecondsCountAndLinksFallSilent : Obligations.TimebaseSecondsCountAndLinksFallSilent := by
  intro s running quiet
  refine ⟨?clock, ?line, ?plant⟩
  case clock =>
    obtain ⟨t, next, timer, frame, requested⟩ := runClockSecond_next running quiet
    refine ⟨t, next, timer, frame, ?_⟩
    rw [timer]
    exact requested
  case line =>
    refine ⟨_, event_next lineLinkSecond s running, ⟨?_, ?_⟩, by apply State.ext <;> simp⟩
    · simp only [serve_keeps, lineLinkSecond_line, second_eq, falls_iff]
      rfl
    · have served := (lineLinkSecond_latches s).served quiet
      simp only [falls_iff] at served
      exact served
  case plant =>
    refine ⟨_, event_next plantLinkSecond s running, ⟨?_, ?_⟩, by apply State.ext <;> simp⟩
    · simp only [serve_keeps, plantLinkSecond_plant, second_eq, falls_iff]
      rfl
    · have served := (plantLinkSecond_latches s).served quiet
      simp only [falls_iff] at served
      exact served

end Sys2Proof.Machine
end

section
/-! STAGE PLAN, COMMIT PLAN refused or taken as NEXT, and DISCARD PLAN (R64 to R66). -/

namespace Sys2Proof.Machine

/-! ### STAGE PLAN judged (R64, R65) -/

theorem breaksOrdered_iff (bs : List Break) :
    breaksOrdered bs = true ↔ bs.IsChain fun a b => a.start < b.start ∧ a.stop ≤ b.start := by
  induction bs with
  | nil => simp [breaksOrdered]
  | cons a bs ih =>
    cases bs with
    | nil => simp [breaksOrdered]
    | cons b bs => simp [breaksOrdered, ih, and_assoc]

/-- The break list of a plan that is staged: those that start before L, cut to end there (R65). -/
theorem fitBreaks_clamped (l : Nat) (args : List BreakArg) :
    fitBreaks l (args.map BreakArg.clamped) =
      args.filterMap fun b =>
        if b.start.toNat < l then some ⟨b.start.toNat, min (clamp 60 3600 b.length.toNat) (l - b.start.toNat)⟩
        else none := by
  induction args with
  | nil => rfl
  | cons b args ih =>
    have tail := ih
    unfold fitBreaks at tail ⊢
    by_cases before : b.start.toNat < l
    · simp [BreakArg.clamped, before, Break.cutAt, ← tail]
    · simp [BreakArg.clamped, before, ← tail]

/-- The three answers of the judging. -/
theorem judgePlan_range {length takt overtime count : Nat} {args : List BreakArg} (many : 6 < count) :
    judgePlan length takt overtime count args = .error .range := if_pos many

theorem judgePlan_invalid {length takt overtime count : Nat} {args : List BreakArg} (few : count ≤ 6)
    (disordered : breaksOrdered ((args.take count).map BreakArg.clamped) = false) :
    judgePlan length takt overtime count args = .error .invalid := by
  rw [judgePlan, if_neg (Nat.not_lt.2 few)]
  exact if_neg (ne_true_of_eq_false disordered)

theorem judgePlan_ok {length takt overtime count : Nat} {args : List BreakArg} (few : count ≤ 6)
    (ordered : breaksOrdered ((args.take count).map BreakArg.clamped) = true) :
    judgePlan length takt overtime count args = .ok
      { length := clamp 1800 43200 length, takt := clamp 300 6000 takt, overtime := min 7200 overtime
        breaks := fitBreaks (clamp 1800 43200 length) ((args.take count).map BreakArg.clamped) } := by
  rw [judgePlan, if_neg (Nat.not_lt.2 few)]
  exact if_pos ordered

/-- A STAGE PLAN refused changes the result alone. -/
theorem stagePlan_refused {l tk ot : Half} {n : Byte} {bs : Vector BreakArg 6} {s : State} {r : PlantResult}
    (running : s.inReset = false) (quiet : s.Quiet) (h : s.plant.transaction = .arguments .stagePlan)
    (judged : judgePlan l.toNat tk.toNat ot.toNat n.toNat bs.toList = .error r) :
    exec (.stagePlan l tk ot n bs) s = .next { s with plant := s.plant.answered r, timer := s.timer } :=
  commandEvent_onTimer (g := id) running quiet h (by simp only [applyStagePlan, judged]; rfl)

/-- A STAGE PLAN taken stores its plan. -/
theorem stagePlan_taken {l tk ot : Half} {n : Byte} {bs : Vector BreakArg 6} {s : State} {p : Plan}
    (running : s.inReset = false) (quiet : s.Quiet) (h : s.plant.transaction = .arguments .stagePlan)
    (judged : judgePlan l.toNat tk.toNat ot.toNat n.toNat bs.toList = .ok p) :
    exec (.stagePlan l tk ot n bs) s =
      .next { s with plant := s.plant.answered .ok, timer := { s.timer with staged := some p } } :=
  commandEvent_onTimer (g := fun t => { t with staged := some p }) running quiet h
    (by simp only [applyStagePlan, judged])

/-- Settles O29: the judging answers by count and order (`breaksOrdered_iff`), and the plan it gives is fitted to L
(`fitBreaks_clamped`). -/
theorem stagePlanJudgesClampsAndFits : Obligations.StagePlanJudgesClampsAndFits := by
  intro l tk ot n bs s running quiet h length used size ordered plan done
  have chain : breaksOrdered (used.map BreakArg.clamped) = true ↔ ordered := by
    rw [breaksOrdered_iff, List.isChain_map]
    rfl
  refine ⟨fun many => stagePlan_refused running quiet h (judgePlan_range many), fun few disordered =>
    stagePlan_refused running quiet h (judgePlan_invalid few ?_), fun few inOrder => ?_⟩
  · exact Bool.eq_false_iff.2 fun h => disordered (chain.1 h)
  · have taken := stagePlan_taken running quiet h (judgePlan_ok (length := l.toNat) (takt := tk.toNat)
      (overtime := ot.toNat) few (chain.2 inOrder))
    rw [fitBreaks_clamped] at taken
    exact taken

/-! ### COMMIT PLAN refused or taken as NEXT (R66) -/

/-- A COMMIT PLAN that stores nothing new but the next plan is answered, and nothing else follows. -/
theorem commitPlan_next {m : Byte} {s : State} {g : ShiftTimer → ShiftTimer} {r : PlantResult}
    (running : s.inReset = false) (quiet : s.Quiet) (causes : s.CausesCurrent)
    (h : s.plant.transaction = .arguments .commitPlan) (applied : applyCommit m.toNat s = (s.onTimer g, r)) :
    exec (.commitPlan m) s = .next { s with plant := s.plant.answered r, timer := g s.timer } :=
  centreCommand_onTimer running quiet causes h applied

theorem applyCommit_range {mode : Nat} (s : State) (h : 1 < mode) : applyCommit mode s = (s, .range) := if_pos h

theorem applyCommit_empty {mode : Nat} {s : State} (h : mode ≤ 1) (empty : s.timer.staged = none) :
    applyCommit mode s = (s, .state) := by
  simp [applyCommit, Nat.not_lt.2 h, empty]

theorem applyCommit_busy {s : State} {p : Plan} (staged : s.timer.staged = some p) (closing : s.timer.state = .closing) :
    applyCommit 1 s = (s, .busy) := by
  simp [applyCommit, staged, closing]

theorem applyCommit_next {mode : Nat} {s : State} {p : Plan} (staged : s.timer.staged = some p)
    (next : mode = 0 ∨ mode = 1 ∧ s.timer.state = .noShift) :
    applyCommit mode s = (s.onTimer fun t => { t with next := some p, staged := none }, .ok) := by
  obtain rfl | ⟨rfl, state⟩ := next
  · simp [applyCommit, staged]
  · simp [applyCommit, staged, state, ShiftState.isOpen]

/-- DISCARD PLAN empties the staged holder, from its command byte. -/
theorem discardPlan_next {s : State} (running : s.inReset = false) (quiet : s.Quiet)
    (ready : s.plant.transaction = .ready) :
    ∃ t, exec .discardPlan s = .next t ∧ t.timer = { s.timer with staged := none } ∧
      t.plant = s.plant.linked.answered .ok ∧ { t with timer := s.timer, plant := s.plant, engine := s.engine } = s ∧
      RequestedOnly s.plantLinkRoles s t := by
  have next : exec .discardPlan s = .next (serve (takeCommand .discardPlan applyDiscard s)) := event_next _ s running
  rw [takeCommand_ready ready rfl] at next
  refine ⟨_, next, by simp [applyDiscard], by simp [applyDiscard, restartPlantLink_plant, PlantPort.answered],
    by apply State.ext <;> simp [applyDiscard], Latches.served ?_ quiet⟩
  exact restartPlantLink_latches s

/-- Settles O30: each refusal is a branch of the judging, and the plan taken as NEXT changes its holders alone. -/
theorem commitPlanRefusedOrNextAndDiscardPlan : Obligations.CommitPlanRefusedOrNextAndDiscardPlan := by
  intro m s running quiet
  refine ⟨fun causes h => ?commit, discardPlan_next running quiet⟩
  intro done
  refine ⟨fun beyond => ?range, fun mode empty => ?state, fun p staged => ⟨?busy, fun next => ?taken⟩⟩
  case range => exact commitPlan_next (g := id) running quiet causes h (applyCommit_range s beyond)
  case state => exact commitPlan_next (g := id) running quiet causes h (applyCommit_empty mode empty)
  case busy =>
    rintro rfl closing
    exact commitPlan_next (g := id) running quiet causes h (applyCommit_busy staged closing)
  case taken =>
    refine commitPlan_next (g := fun t => { t with next := some p, staged := none }) running quiet causes h
      (applyCommit_next staged ?_)
    obtain rfl | ⟨rfl, state⟩ := next
    · exact .inl rfl
    · exact .inr ⟨rfl, state⟩

end Sys2Proof.Machine
end

section
/-! A change of the shift taken whole: the figures computed, the state handed on, and the roles requested (R68, R88, R161). -/

namespace Sys2Proof.Machine

/-! ### The figures (R84 to R89) -/

theorem follow_iff (f : Figures) (rp em gm actual : Nat) : f.Follow rp em gm actual ↔ f = figuresOf rp em gm actual := by
  obtain ⟨frp, fem, fgm, fe, fg, fgap, fpace, fshown⟩ := f
  rw [Figures.Follow, figuresOf, Figures.mk.injEq]
  rfl

theorem figuresCurrent_iff (s : State) : s.FiguresCurrent ↔ s.pace.figures = s.computeFigures := by
  unfold State.FiguresCurrent State.computeFigures
  dsimp only
  split
  · rw [follow_iff]
  · rw [follow_iff]
    rfl

/-- In OVERTIME the figures are computed from H (R87). -/
theorem computeFigures_overtime {s : State} (overtime : s.timer.state = .overtime) :
    s.computeFigures = figuresOf 0 s.pace.held s.pace.held s.pace.actual := if_pos overtime

/-- At or beyond L outside OVERTIME no productive second remains, so E and G are the same (R84 to R86). -/
theorem computeFigures_late {s : State} (state : s.timer.state ≠ .overtime) (late : s.timer.plan.length ≤ s.timer.clock) :
    s.computeFigures =
      (let m := s.pace.base + (s.timer.wc - s.pace.rebaseMark) * 10000 / s.timer.plan.takt
       figuresOf 0 m m s.pace.actual) := by
  have none : s.timer.plan.remaining s.timer.clock = 0 := if_neg (Nat.not_lt.2 late)
  rw [State.computeFigures, if_neg state]
  simp only [none, Nat.add_zero, milliCars]

theorem State.FiguresCurrent.congr {s t : State} (h : s.FiguresCurrent) (timer : t.timer = s.timer)
    (pace : t.pace = s.pace) : t.FiguresCurrent := by
  rw [figuresCurrent_iff] at h ⊢
  rw [computeFigures_congr timer pace, pace, h]

/-- The figures do not enter their own computation. -/
theorem recompute_figuresCurrent (s : State) : (recompute s).FiguresCurrent := by
  have timer : (recompute s).timer = s.timer := by simp
  rw [figuresCurrent_iff, recompute_pace]
  unfold State.computeFigures
  rw [recompute_pace, timer]

/-! ### What is requested for the clock and the figures (R88, R161) -/

/-- The roles requested for a changed minute of the shift clock, a changed figure or a changed count of lost cars. -/
def figureRoles (s t : State) : List Role :=
  (if t.timer.clock / 60 ≠ s.timer.clock / 60 then [.clock] else []) ++
    (if ShownFiguresChange s t ∨ t.lineLostCars ≠ s.lineLostCars then [.pace] else [])

theorem mem_figureRoles (r : Role) (s t : State) :
    r ∈ figureRoles s t ↔
      t.timer.clock / 60 ≠ s.timer.clock / 60 ∧ r = .clock ∨
        (ShownFiguresChange s t ∨ t.lineLostCars ≠ s.lineLostCars) ∧ r = .pace := by
  simp only [figureRoles, List.mem_append, mem_ite_nil, List.mem_singleton]

/-- A changed shift requests for the sets, for STALL, for its state, and for the clock and the figures. -/
theorem mem_changeRoles_iff (r : Role) (s t : State) :
    r ∈ changeRoles s t ↔
      SetsChange s t ∧ (r = .stations ∨ r = .ticker) ∨ StallChanges s t ∧ r = .stations ∨
        t.timer.state ≠ s.timer.state ∧ (r = .banner ∨ r = .clock) ∨ r ∈ figureRoles s t := by
  rw [mem_changeRoles, mem_figureRoles]

theorem lineLostCars_congr {s t : State} (active : t.timer.active = s.timer.active) (loss : t.loss = s.loss) :
    t.lineLostCars = s.lineLostCars := by
  simp only [State.lineLostCars, State.lostCars, active, loss]

/-- The roles of a change look at the Tracker, the shift, the figures and the lost seconds of the state it ended in. -/
theorem mem_changeRoles_congr {s u t : State} (r : Role) (tracker : t.tracker = u.tracker) (timer : t.timer = u.timer)
    (pace : t.pace = u.pace) (loss : t.loss = u.loss) : r ∈ changeRoles s t ↔ r ∈ changeRoles s u := by
  have cars : t.lineLostCars = u.lineLostCars := lineLostCars_congr (by rw [timer]) loss
  simp only [mem_changeRoles, SetsChange, StallChanges, ShownFiguresChange, cars, tracker, timer, pace]

/-- And at the same of the state it began in. -/
theorem mem_changeRoles_congr_old {s d u : State} (r : Role) (tracker : d.tracker = s.tracker) (timer : d.timer = s.timer)
    (pace : d.pace = s.pace) (loss : d.loss = s.loss) : r ∈ changeRoles d u ↔ r ∈ changeRoles s u := by
  have cars : d.lineLostCars = s.lineLostCars := lineLostCars_congr (by rw [timer]) loss
  simp only [mem_changeRoles, SetsChange, StallChanges, ShownFiguresChange, cars, tracker, timer, pace]

theorem not_mem_figureRoles {s t : State} (clock : t.timer.clock = s.timer.clock)
    (figures : t.pace.figures = s.pace.figures) (cars : t.lineLostCars = s.lineLostCars) (r : Role) :
    r ∉ figureRoles s t := by
  simp [mem_figureRoles, ShownFiguresChange, clock, figures, cars]

/-- A computation requests PACE where a shown figure changes (R88). -/
theorem recompute_latches (s : State) :
    Latches (fun r => ShownFiguresChange s (recompute s) ∧ r = .pace) s.engine (recompute s).engine := by
  have latches := raiseIf_latches (role := .pace) rfl (!s.pace.figures.sameShown s.computeFigures)
    (s.onPace fun u => { u with figures := s.computeFigures })
  refine latches.congr fun r => ?_
  rw [← sameShown_eq_false_iff, recompute_pace, Bool.not_eq_true']

/-- Line lost cars that changed request PACE (R161). -/
theorem raiseLostCars_latches (old s : State) :
    Latches (fun r => s.lineLostCars ≠ old.lineLostCars ∧ r = .pace) s.engine (raiseLostCars old s).engine :=
  (raiseIf_latches (role := .pace) rfl _ s).congr fun r => by rw [decide_eq_true_iff]

/-- Settling requests for the sets and for STALL (R24, R31). -/
theorem settleTracker_latches (old w : State) :
    Latches (fun r => SetsChange w (settleTracker old w) ∧ (r = .stations ∨ r = .ticker) ∨
      StallChanges w (settleTracker old w) ∧ r = .stations) w.engine (settleTracker old w).engine :=
  ⟨settleTracker_engine old w, settleTracker_requests old w⟩

/-! ### A change of the shift (R68) -/

/-- The Tracker settled once against a change of shift state between `s` and `u`, and as it was where there is none. -/
def TrackerFollows (s u : State) : Prop :=
  if u.timer.state = s.timer.state then u.tracker = s.tracker
  else Settled s.tracker.zones.at_ s u ∧ u.tracker.buffers = s.tracker.buffers ∧ u.tracker.xstop = s.tracker.xstop

/-- The event that began in `s` has come to `u`: the Tracker follows the shift, and the roles of what changed and these
besides are latched. -/
structure ShiftChange (besides : List Role) (s u : State) : Prop where
  tracker : TrackerFollows s u
  latches : Latches (· ∈ changeRoles s u ++ besides) s.engine u.engine
  alert : u.alert = s.alert
  tiles : u.tiles = s.tiles

theorem TrackerFollows.congr {s u t : State} (h : TrackerFollows s u) (layout : t.layout = u.layout)
    (tracker : t.tracker = u.tracker) (callList : t.callList = u.callList) (state : t.timer.state = u.timer.state) :
    TrackerFollows s t := by
  have same : SameSets u t := .of_fields layout tracker callList state
  unfold TrackerFollows at h ⊢
  rw [state, tracker]
  split
  · rename_i unchanged
    rwa [if_pos unchanged] at h
  · rename_i changed
    rw [if_neg changed] at h
    exact ⟨h.1.congr same.inputs same.zones, h.2⟩

theorem handOn_trackerFollows {s w : State} (tracker : w.tracker = s.tracker) : TrackerFollows s (handOn s w) := by
  have timer : (handOn s w).timer = w.timer := by simp
  unfold TrackerFollows
  rw [timer]
  split
  · rename_i same
    rw [handOn_same same, tracker]
  · rename_i change
    have inputs := settleTracker_inputs s ((w.raise .banner).raise .clock)
    have handed : handOn s w = settleTracker s ((w.raise .banner).raise .clock) := if_neg change
    rw [← tracker]
    exact ⟨handOn_settled change, handed ▸ inputs.buffers, handed ▸ inputs.xstop⟩

/-- A change of shift state handed on, by an event that has requested for the clock and the figures (R68). -/
theorem handOn_shiftChange {besides : List Role} {s w : State} (tracker : w.tracker = s.tracker)
    (latches : Latches (· ∈ figureRoles s w ++ besides) s.engine w.engine) (alert : w.alert = s.alert)
    (tiles : w.tiles = s.tiles) : ShiftChange besides s (handOn s w) := by
  refine ⟨handOn_trackerFollows tracker, ?_, by simp [alert], by simp [tiles]⟩
  by_cases same : w.timer.state = s.timer.state
  · rw [handOn_same same]
    exact latches.congr fun r => by simp [mem_changeRoles_iff, SetsChange, StallChanges, tracker, same]
  · have handed : handOn s w = settleTracker s ((w.raise .banner).raise .clock) := if_neg same
    have cars : (settleTracker s ((w.raise .banner).raise .clock)).lineLostCars = w.lineLostCars :=
      lineLostCars_congr (by simp) (by simp)
    have figures (r : Role) :
        r ∈ figureRoles s (settleTracker s ((w.raise .banner).raise .clock)) ↔ r ∈ figureRoles s w := by
      simp [mem_figureRoles, ShownFiguresChange, cars]
    have banner := latches.trans (raise_latches (role := .banner) rfl w)
    have raised := banner.trans (raise_latches (role := .clock) rfl (w.raise .banner))
    have settled := raised.trans (settleTracker_latches s ((w.raise .banner).raise .clock))
    rw [handed]
    refine settled.congr fun r => ?_
    have sets : SetsChange ((w.raise .banner).raise .clock) (settleTracker s ((w.raise .banner).raise .clock)) ↔
        SetsChange s (settleTracker s ((w.raise .banner).raise .clock)) := by
      simp only [SetsChange, raise_fields, tracker]
    have stalls : StallChanges ((w.raise .banner).raise .clock) (settleTracker s ((w.raise .banner).raise .clock)) ↔
        StallChanges s (settleTracker s ((w.raise .banner).raise .clock)) := by
      simp only [StallChanges, raise_fields, tracker]
    have state : (settleTracker s ((w.raise .banner).raise .clock)).timer.state ≠ s.timer.state := by simpa using same
    rw [List.mem_append, List.mem_append, mem_changeRoles_iff, figures, sets, stalls]
    generalize settleTracker s ((w.raise .banner).raise .clock) = u at state ⊢
    clear settled raised banner figures sets stalls latches cars handed
    tauto

/-- The state that an event's change is handed on against enters by its shift state and what qualified in it alone. -/
theorem handOn_old_congr {old old' : State} (state : old'.timer.state = old.timer.state)
    (qualifies : ∀ k, old'.qualifies k = old.qualifies k) (w : State) : handOn old' w = handOn old w := by
  unfold handOn
  rw [state, settleTracker_of_qualifies qualifies]

/-- A change that began within an event, which had reached neither the Tracker, the shift nor the figures before. -/
theorem ShiftChange.within {besides before : List Role} {s d u : State} (h : ShiftChange besides d u)
    (layout : d.layout = s.layout) (tracker : d.tracker = s.tracker) (timer : d.timer = s.timer) (pace : d.pace = s.pace)
    (loss : d.loss = s.loss) (alert : d.alert = s.alert) (tiles : d.tiles = s.tiles)
    (latches : Latches (· ∈ before) s.engine d.engine) : ShiftChange (besides ++ before) s u := by
  have qualifies (k : Fin 6) : d.qualifies k = s.qualifies k := qualifies_congr k layout (by rw [tracker]) (by rw [timer])
  refine ⟨?_, (latches.trans h.latches).congr fun r => ?_, h.alert.trans alert, h.tiles.trans tiles⟩
  · have follows := h.tracker
    unfold TrackerFollows Settled at follows ⊢
    simpa only [tracker, timer, qualifies] using follows
  · rw [List.mem_append, List.mem_append, List.mem_append, mem_changeRoles_congr_old r tracker timer pace loss]
    tauto

/-- The ports answer an event within it. -/
theorem ShiftChange.answered {besides : List Role} {s u : State} (h : ShiftChange besides s u) (line : LinePort)
    (plant : PlantPort) : ShiftChange besides s { u with line := line, plant := plant } :=
  have roles (r : Role) :
      r ∈ changeRoles s u ++ besides ↔ r ∈ changeRoles s { u with line := line, plant := plant } ++ besides := by
    rw [List.mem_append, List.mem_append]
    exact or_congr_left (mem_changeRoles_congr r rfl rfl rfl rfl).symm
  ⟨h.tracker.congr rfl rfl rfl rfl, h.latches.congr roles, h.alert, h.tiles⟩

/-! ### The change taken whole -/

/-- Two states agree on every block but the Tracker, the ports, the engine, the Alert Logic and the Tile Driver. -/
structure SameBlocks (w t : State) : Prop where
  conditions : t.conditions = w.conditions
  straps : t.straps = w.straps
  pitch : t.pitch = w.pitch
  layout : t.layout = w.layout
  stations : t.stations = w.stations
  callList : t.callList = w.callList
  timer : t.timer = w.timer
  pace : t.pace = w.pace
  loss : t.loss = w.loss
  archive : t.archive = w.archive
  history : t.history = w.history
  frame : t.frame = w.frame
  pending : t.pending = w.pending

theorem SameBlocks.trans {s t u : State} (h : SameBlocks s t) (g : SameBlocks t u) : SameBlocks s u := by
  constructor <;> simp only [g.conditions, g.straps, g.pitch, g.layout, g.stations, g.callList, g.timer, g.pace, g.loss,
    g.archive, g.history, g.frame, g.pending, h.conditions, h.straps, h.pitch, h.layout, h.stations, h.callList, h.timer,
    h.pace, h.loss, h.archive, h.history, h.frame, h.pending]

/-- The ports are no part of it. -/
theorem SameBlocks.of_ports {s t u : State} {line : LinePort} {plant : PlantPort} (h : SameBlocks u t)
    (ports : u = { s with line := line, plant := plant }) : SameBlocks s t := by
  subst ports
  exact ⟨h.conditions, h.straps, h.pitch, h.layout, h.stations, h.callList, h.timer, h.pace, h.loss, h.archive, h.history,
    h.frame, h.pending⟩

theorem handOn_sameBlocks (old w : State) : SameBlocks w (handOn old w) := by
  constructor <;> simp

/-- What an event leaves in `t` that began in `s` and came to `u`: the Tracker, the causes, the intensity and the
regions follow, and the rest is as in `u`. -/
structure ShiftEvent (besides : List Role) (s u t : State) : Prop where
  tracker : TrackerFollows s t
  causes : t.CausesCurrent
  requested : RequestedOnly (changeRoles s t ++ besides) s t
  echoes : OnlyEchoes s t
  blocks : SameBlocks u t
  line : t.line = u.line
  plant : t.plant = u.plant

theorem ShiftChange.taken {besides : List Role} {s u : State} (h : ShiftChange besides s u) (quiet : s.Quiet) :
    ShiftEvent besides s u (serve (decideAlert s u)) := by
  have tracker : (serve (decideAlert s u)).tracker = u.tracker := by simp
  have timer : (serve (decideAlert s u)).timer = u.timer := by simp
  have decided : (decideAlert s u).engine = u.engine := (decideAlert_echoes s u).2.2
  have roles (r : Role) : r ∈ changeRoles s u ++ besides ↔ r ∈ changeRoles s (serve (decideAlert s u)) ++ besides := by
    rw [List.mem_append, List.mem_append, mem_changeRoles_congr r tracker timer (by simp) (by simp)]
  have latched : Latches (· ∈ changeRoles s (serve (decideAlert s u)) ++ besides) s.engine (decideAlert s u).engine :=
    decided ▸ h.latches.congr roles
  have requested : RequestedOnly (changeRoles s (serve (decideAlert s u)) ++ besides) s (serve (decideAlert s u)) :=
    latched.served quiet
  exact ⟨h.tracker.congr (by simp) tracker (by simp) (by rw [timer]), serve_causesCurrent (decideAlert_causesCurrent s u), requested,
    onlyEchoes_of_requestedOnly h.alert h.tiles requested, by constructor <;> simp, by simp, by simp⟩

theorem TrackerFollows.changed {s t : State} (h : TrackerFollows s t) (change : t.timer.state ≠ s.timer.state) :
    Settled s.tracker.zones.at_ s t ∧ t.tracker.buffers = s.tracker.buffers ∧ t.tracker.xstop = s.tracker.xstop := by
  rwa [TrackerFollows, if_neg change] at h

theorem TrackerFollows.unchanged {s t : State} (h : TrackerFollows s t) (same : t.timer.state = s.timer.state) :
    t.tracker = s.tracker := by
  rwa [TrackerFollows, if_pos same] at h

/-- With no role besides, the roles are those of what changed. -/
theorem ShiftEvent.requested_changes {s u t : State} (h : ShiftEvent [] s u t) : RequestedOnly (changeRoles s t) s t := by
  simpa using h.requested

/-! ### Frames and commands that change the shift -/

/-- A frame whose rule changes the shift. -/
theorem frame_shiftEvent {besides : List Role} {rule : FrameRule} {f : Frame} {rest : List Frame}
    {apply : State → State × LineResult} {s u : State} {r : LineResult} (running : s.inReset = false) (quiet : s.Quiet)
    (hq : s.line.queue = f :: rest) (hr : rule f = some apply) (applied : apply (s.dequeued rest) = (u, r))
    (change : ShiftChange besides (s.dequeued rest) u) (line : u.line = (s.dequeued rest).line) :
    ∃ t, centreEvent (takeFrame rule) s = .next t ∧
      ShiftEvent besides s { u with line := s.line.answered rest r } t := by
  have began : ShiftChange (besides ++ []) s u :=
    change.within rfl rfl rfl rfl rfl rfl rfl ((Latches.refl s.engine).congr fun r => by simp)
  rw [List.append_nil] at began
  have taken := takeFrame_taken hq hr
  rw [← State.dequeued, applied] at taken
  have answered : (u.onLine fun l => { l with lastResult := r }) = { u with line := s.line.answered rest r } := by
    rw [State.onLine, line]
    rfl
  have next := centreEvent_next (takeFrame rule) s running
  rw [taken] at next
  dsimp only at next
  rw [answered] at next
  exact ⟨_, next, (began.answered (s.line.answered rest r) u.plant).taken quiet⟩

/-- A plant command with arguments whose rule changes the shift. -/
theorem command_shiftEvent {besides : List Role} {c : PlantCommand} {rule : CommandRule} {s u : State} {r : PlantResult}
    (running : s.inReset = false) (quiet : s.Quiet) (h : s.plant.transaction = .arguments c) (applied : rule s = (u, r))
    (change : ShiftChange besides s u) :
    ∃ t, centreEvent (takeCommand c rule) s = .next t ∧
      ShiftEvent besides s { u with plant := u.plant.answered r } t := by
  have next := centreEvent_next (takeCommand c rule) s running
  rw [takeCommand_arguments h, applied] at next
  exact ⟨_, next, (change.answered u.line (u.plant.answered r)).taken quiet⟩

/-- A plant command without arguments, from its command byte, whose rule changes the shift. -/
theorem readyCommand_shiftEvent {c : PlantCommand} {rule : CommandRule} {s u : State} {r : PlantResult}
    (running : s.inReset = false) (quiet : s.Quiet) (ready : s.plant.transaction = .ready) (bare : c.argBytes = 0)
    (applied : rule (restartPlantLink s) = (u, r)) (change : ShiftChange [] (restartPlantLink s) u) :
    ∃ t, centreEvent (takeCommand c rule) s = .next t ∧
      ShiftEvent s.plantLinkRoles s { u with plant := u.plant.answered r } t := by
  have next := centreEvent_next (takeCommand c rule) s running
  rw [takeCommand_ready ready bare, applied] at next
  have began : ShiftChange ([] ++ s.plantLinkRoles) s u :=
    change.within (by simp) (by simp) (by simp) (by simp) (by simp) (by simp) (by simp) (restartPlantLink_latches s)
  exact ⟨_, next, (began.answered u.line (u.plant.answered r)).taken quiet⟩

/-! ### The start of a close (R80, R105) -/

/-- A start of a close handed on. -/
theorem startClose_shiftChange (reason : CloseReason) {s w : State} (tracker : w.tracker = s.tracker)
    (latches : Latches (· ∈ figureRoles s w) s.engine w.engine) (alert : w.alert = s.alert)
    (tiles : w.tiles = s.tiles) : ShiftChange [] s (handOn s (startClose reason w)) := by
  have figures : figureRoles s (startClose reason w) = figureRoles s w := rfl
  exact handOn_shiftChange (by simp [tracker]) (by simpa [figures] using latches) (by simp [alert]) (by simp [tiles])

/-- A snapshot looks at neither the shift state nor the ports (R105). -/
theorem snapshot_of_blocks {reason : CloseReason} {w t : State} (h : SameBlocks (startClose reason w) t)
    (reason' : CloseReason) : t.snapshot reason' = w.snapshot reason' := by
  have same : t.snapshot reason' = (startClose reason w).snapshot reason' := by
    simp only [State.snapshot, State.lineLostCars, State.lostCars, h.layout, h.stations, h.callList, h.timer, h.pace, h.loss]
  exact same

/-- The Archive at the start of a close, with the snapshot as it reads after the event (R104, R105). -/
theorem archive_of_startClose {reason : CloseReason} {s w t : State} (h : SameBlocks (startClose reason w) t)
    (archive : w.archive = s.archive) :
    t.archive.newest = some s.archive.following ∧
      t.archive.slots = s.archive.slots.put s.archive.following (.writing (t.snapshot reason)) := by
  rw [snapshot_of_blocks h, h.archive, ← archive]
  exact ⟨rfl, rfl⟩

end Sys2Proof.Machine
end

section
/-! SHIFT START refused, marked, held or ending the open shift, and SHIFT CLOSE (R70, R71, R74). -/

namespace Sys2Proof.Machine

/-! ### A close begun (R80, R105) -/

/-- The change of shift state a close makes. -/
theorem ShiftEvent.settled {besides : List Role} {s u t : State} (h : ShiftEvent besides s u t)
    (change : u.timer.state ≠ s.timer.state) :
    Settled s.tracker.zones.at_ s t ∧ t.tracker.buffers = s.tracker.buffers ∧ t.tracker.xstop = s.tracker.xstop :=
  h.tracker.changed (by rwa [h.blocks.timer])

/-- An open shift is not CLOSING. -/
theorem closing_ne_of_isOpen {x : ShiftState} (h : x.isOpen = true) : ShiftState.closing ≠ x := (isOpen_ne h).2.symm

/-- A close begun by an event leaves the Archive and the Plant Port so (R80, R105, R109). -/
theorem closeBegun_of_blocks {r : CloseReason} {s w t : State} (blocks : SameBlocks (startClose r w) t)
    (plant : t.plant = (startClose r w).plant) (archive : w.archive = s.archive) (port : w.plant = s.plant) :
    CloseBegun r s t ∧ t.plant.lastResult = s.plant.lastResult ∧ t.plant.link = s.plant.link ∧
      ∀ i, i ≠ s.archive.following → t.archive.slots.at_ i = s.archive.slots.at_ i := by
  obtain ⟨newest, slots⟩ := archive_of_startClose blocks archive
  have taken : t.plant = { s.plant with transaction := s.plant.transaction.slotTaken s.archive.following } := by
    rw [plant, startClose, archive, port]
  refine ⟨⟨by rw [blocks.timer]; rfl, newest, slots, by rw [taken]⟩, by rw [taken], by rw [taken], fun i other => ?_⟩
  rw [slots]
  exact Tab.at_put_ne _ _ other

/-! ### SHIFT START judged (R70, R71) -/

theorem applyTimeMark_closed {number seconds : Nat} {s : State}
    (h : s.timer.state.isOpen = false ∨ number ≠ s.timer.number) : applyTimeMark number seconds s = (s, .state) := by
  refine if_pos (h.imp_left fun closed => ?_)
  simp [closed]

theorem applyTimeMark_far {number seconds : Nat} {s : State} (open_ : s.timer.state.isOpen = true)
    (same : number = s.timer.number)
    (far : (seconds : Int) - s.timer.clock < -60 ∨ 60 < (seconds : Int) - s.timer.clock) :
    applyTimeMark number seconds s = (s, .range) := by
  unfold applyTimeMark
  rw [if_neg (by simp [open_, same]), if_pos (by omega)]

theorem applyTimeMark_near {number seconds : Nat} {s : State} (open_ : s.timer.state.isOpen = true)
    (same : number = s.timer.number) (low : -60 ≤ (seconds : Int) - s.timer.clock)
    (high : (seconds : Int) - s.timer.clock ≤ 60) :
    applyTimeMark number seconds s = (setCorrection ((seconds : Int) - s.timer.clock) s, .ok) := by
  unfold applyTimeMark
  rw [if_neg (by simp [open_, same]), if_neg (by omega)]

theorem applyShiftStart_zero (offset : Nat) (s : State) : applyShiftStart 0 offset s = (s, .range) := rfl

theorem applyShiftStart_noPlan {number offset : Nat} {s : State} (valid : number ≠ 0) (state : s.timer.state = .noShift)
    (next : s.timer.next = none) (active : s.timer.active = none) :
    applyShiftStart number offset s = (s, .state) := by
  simp [applyShiftStart, valid, state, ShiftTimer.opening, next, active]

theorem applyShiftStart_opens {number offset : Nat} {s : State} {p : Plan} (valid : number ≠ 0)
    (state : s.timer.state = .noShift) (plan : s.timer.opening = some p) :
    applyShiftStart number offset s = (handOn s (openShift p number offset s), .ok) := by
  simp [applyShiftStart, valid, state, plan]

theorem applyShiftStart_held {number offset : Nat} {s : State} (valid : number ≠ 0) (state : s.timer.state = .closing) :
    applyShiftStart number offset s = (holdStart number offset s, .ok) := by
  simp [applyShiftStart, valid, state]

theorem applyShiftStart_same {number offset : Nat} {s : State} (valid : number ≠ 0)
    (open_ : s.timer.state.isOpen = true) (same : number = s.timer.number) :
    applyShiftStart number offset s = applyTimeMark number offset s := by
  unfold applyShiftStart
  rw [if_neg valid]
  cases state : s.timer.state
  case production => exact if_pos same
  case inBreak => exact if_pos same
  case overtime => exact if_pos same
  case noShift => simp [state, ShiftState.isOpen] at open_
  case closing => simp [state, ShiftState.isOpen] at open_

theorem applyShiftStart_ends {number offset : Nat} {s : State} (valid : number ≠ 0)
    (open_ : s.timer.state.isOpen = true) (other : number ≠ s.timer.number) :
    applyShiftStart number offset s = (handOn s (startClose .newShift (holdStart number offset s)), .ok) := by
  unfold applyShiftStart
  rw [if_neg valid]
  cases state : s.timer.state
  case production => exact if_neg other
  case inBreak => exact if_neg other
  case overtime => exact if_neg other
  case noShift => simp [state, ShiftState.isOpen] at open_
  case closing => simp [state, ShiftState.isOpen] at open_

theorem half_ne_zero {n : Half} (h : n ≠ 0) : n.toNat ≠ 0 := fun zero => h (BitVec.eq_of_toNat_eq zero)

/-- A SHIFT START that opens no shift and ends none answers, and changes the Shift Timer alone. -/
def StartJudged (n o : Half) (s : State) (g : ShiftTimer → ShiftTimer) (v : Verdict) : Prop :=
  applyShiftStart n.toNat o.toNat s = (s.onTimer g, v)

theorem startJudged_zero (o : Half) (s : State) : StartJudged 0 o s id .range := applyShiftStart_zero _ s

theorem startJudged_noPlan {n : Half} (o : Half) {s : State} (valid : n ≠ 0) (state : s.timer.state = .noShift)
    (next : s.timer.next = none) (active : s.timer.active = none) : StartJudged n o s id .state :=
  applyShiftStart_noPlan (half_ne_zero valid) state next active

theorem startJudged_far {n o : Half} {s : State} (valid : n ≠ 0) (open_ : s.timer.state.isOpen = true)
    (same : n.toNat = s.timer.number)
    (far : (o.toNat : Int) - s.timer.clock < -60 ∨ 60 < (o.toNat : Int) - s.timer.clock) :
    StartJudged n o s id .range :=
  (applyShiftStart_same (half_ne_zero valid) open_ same).trans (applyTimeMark_far open_ same far)

theorem startJudged_near {n o : Half} {s : State} (valid : n ≠ 0) (open_ : s.timer.state.isOpen = true)
    (same : n.toNat = s.timer.number) (low : -60 ≤ (o.toNat : Int) - s.timer.clock)
    (high : (o.toNat : Int) - s.timer.clock ≤ 60) :
    StartJudged n o s (fun t => { t with correction := (o.toNat : Int) - s.timer.clock }) .ok :=
  (applyShiftStart_same (half_ne_zero valid) open_ same).trans (applyTimeMark_near open_ same low high)

theorem startJudged_held {n : Half} (o : Half) {s : State} (valid : n ≠ 0) (state : s.timer.state = .closing) :
    StartJudged n o s (fun t => { t with pendingStart := some ⟨n.toNat, o.toNat⟩ }) .ok :=
  applyShiftStart_held (half_ne_zero valid) state

/-- The frame, so judged. -/
theorem lineShiftStart_judged {n o : Half} {rest : List Frame} {s : State} {g : ShiftTimer → ShiftTimer} {v : Verdict}
    (running : s.inReset = false) (quiet : s.Quiet) (causes : s.CausesCurrent)
    (hq : s.line.queue = .shiftStart n o :: rest) (judged : StartJudged n o (s.dequeued rest) g v) :
    exec .lineShiftStart s = .next { s with line := s.line.answered rest v.line, timer := g s.timer } :=
  centreFrame_onTimer running quiet causes hq rfl (congrArg lineVerdict judged)

/-- The plant command, so judged. -/
theorem plantShiftStart_judged {n o : Half} {s : State} {g : ShiftTimer → ShiftTimer} {v : Verdict}
    (running : s.inReset = false) (quiet : s.Quiet) (causes : s.CausesCurrent)
    (h : s.plant.transaction = .arguments .shiftStart) (judged : StartJudged n o s g v) :
    exec (.plantShiftStart n o) s = .next { s with plant := s.plant.answered v.plant, timer := g s.timer } :=
  centreCommand_onTimer running quiet causes h (congrArg plantVerdict judged)

/-! ### SHIFT START of another shift (R71) -/

/-- The open shift's close begun, the new one held. -/
def State.startHeld (number offset : Nat) (s : State) : State :=
  handOn s (startClose .newShift (holdStart number offset s))

theorem startHeld_change (number offset : Nat) (s : State) : ShiftChange [] s (s.startHeld number offset) := by
  refine startClose_shiftChange .newShift rfl ((Latches.refl s.engine).congr fun r => ?_) rfl rfl
  simp [not_mem_figureRoles (s := s) (t := holdStart number offset s) rfl rfl rfl r]

theorem startHeld_blocks (number offset : Nat) (s : State) :
    SameBlocks (startClose .newShift (holdStart number offset s)) (s.startHeld number offset) := handOn_sameBlocks _ _

theorem startHeld_plant (number offset : Nat) (s : State) :
    (s.startHeld number offset).plant =
      { s.plant with transaction := s.plant.transaction.slotTaken s.archive.following } := by
  simp only [State.startHeld, handOn_keeps]
  rfl

theorem startHeld_state_ne {number offset : Nat} {s : State} (open_ : s.timer.state.isOpen = true) :
    (s.startHeld number offset).timer.state ≠ s.timer.state := by
  rw [(startHeld_blocks number offset s).timer]
  exact closing_ne_of_isOpen open_

/-- The frame that ends the open shift. -/
theorem lineShiftStart_ends {n o : Half} {rest : List Frame} {s : State} (running : s.inReset = false) (quiet : s.Quiet)
    (hq : s.line.queue = .shiftStart n o :: rest) (valid : n ≠ 0) (open_ : s.timer.state.isOpen = true)
    (other : n.toNat ≠ s.timer.number) :
    ∃ t, exec .lineShiftStart s = .next t ∧
      ShiftEvent [] s { (s.dequeued rest).startHeld n.toNat o.toNat with line := s.line.answered rest .ok } t := by
  have applied := applyShiftStart_ends (s := s.dequeued rest) (offset := o.toNat) (half_ne_zero valid) open_ other
  exact frame_shiftEvent running quiet hq rfl (congrArg lineVerdict applied) (startHeld_change _ _ _)
    (by simp [State.startHeld, holdStart])

/-- The plant command that ends the open shift. -/
theorem plantShiftStart_ends {n o : Half} {s : State} (running : s.inReset = false) (quiet : s.Quiet)
    (h : s.plant.transaction = .arguments .shiftStart) (valid : n ≠ 0) (open_ : s.timer.state.isOpen = true)
    (other : n.toNat ≠ s.timer.number) :
    ∃ t, exec (.plantShiftStart n o) s = .next t ∧
      ShiftEvent [] s
        { s.startHeld n.toNat o.toNat with plant := (s.startHeld n.toNat o.toNat).plant.answered .ok } t := by
  have applied := applyShiftStart_ends (s := s) (offset := o.toNat) (half_ne_zero valid) open_ other
  exact command_shiftEvent running quiet h (congrArg plantVerdict applied) (startHeld_change _ _ _)

/-- Settles O28: what is refused, marked or held is `StartJudged`, and another number starts the close of the open
shift (`startHeld_change`). -/
theorem shiftStartRefusedMarkedHeldOrEndingShift : Obligations.ShiftStartRefusedMarkedHeldOrEndingShift := by
  intro n o s running quiet causes gap noPlan same held
  refine ⟨fun rest hq => ?line, fun h => ?plant⟩
  case line =>
    intro done
    have judged {g v} := lineShiftStart_judged (n := n) (o := o) (g := g) (v := v) running quiet causes hq
    refine ⟨?_, fun valid ⟨state, next, active⟩ => judged (startJudged_noPlan o valid state next active),
      fun valid ⟨open_, number⟩ far => judged (startJudged_far valid open_ number far),
      fun valid ⟨open_, number⟩ low high => judged (startJudged_near valid open_ number low high),
      fun valid state => judged (startJudged_held o valid state), fun valid open_ other => ?_⟩
    · rintro rfl
      exact judged (startJudged_zero o _)
    · obtain ⟨t, next, ev⟩ := lineShiftStart_ends (o := o) running quiet hq valid open_ other
      have blocks : SameBlocks (startClose .newShift (holdStart n.toNat o.toNat (s.dequeued rest))) t :=
        (startHeld_blocks n.toNat o.toNat (s.dequeued rest)).trans (ev.blocks.of_ports rfl)
      obtain ⟨settled, buffers, xstop⟩ := ev.settled (startHeld_state_ne (s := s.dequeued rest) open_)
      have plant : t.plant = { s.plant with transaction := s.plant.transaction.slotTaken s.archive.following } :=
        ev.plant.trans (startHeld_plant n.toNat o.toNat (s.dequeued rest))
      refine ⟨t, next, (closeBegun_of_blocks (s := s) blocks plant rfl rfl).1, blocks.timer, ev.line, by rw [plant], settled,
        buffers, xstop, ev.requested_changes, ?_, ev.echoes⟩
      apply State.ext <;> simp [blocks.conditions, blocks.straps, blocks.pitch, blocks.layout, blocks.stations,
        blocks.callList, blocks.pace, blocks.loss, blocks.history, blocks.frame, blocks.pending, holdStart, State.dequeued]
  case plant =>
    intro done
    have judged {g v} := plantShiftStart_judged (n := n) (o := o) (g := g) (v := v) running quiet causes h
    refine ⟨?_, fun valid ⟨state, next, active⟩ => judged (startJudged_noPlan o valid state next active),
      fun valid ⟨open_, number⟩ far => judged (startJudged_far valid open_ number far),
      fun valid ⟨open_, number⟩ low high => judged (startJudged_near valid open_ number low high),
      fun valid state => judged (startJudged_held o valid state), fun valid open_ other => ?_⟩
    · rintro rfl
      exact judged (startJudged_zero o _)
    · obtain ⟨t, next, ev⟩ := plantShiftStart_ends (o := o) running quiet h valid open_ other
      have blocks : SameBlocks (startClose .newShift (holdStart n.toNat o.toNat s)) t :=
        (startHeld_blocks n.toNat o.toNat s).trans (ev.blocks.of_ports rfl)
      obtain ⟨newest, slots⟩ := archive_of_startClose blocks (s := s) rfl
      obtain ⟨settled, buffers, xstop⟩ := ev.settled (startHeld_state_ne open_)
      have plant : t.plant = s.plant.answered .ok := by
        rw [ev.plant, startHeld_plant]
        rfl
      have line : t.line = s.line := ev.line.trans (by simp [State.startHeld, holdStart])
      refine ⟨t, next, blocks.timer, newest, slots, plant, settled, buffers, xstop, ev.requested_changes, ?_, ev.echoes⟩
      apply State.ext <;> simp [blocks.conditions, blocks.straps, blocks.pitch, blocks.layout, blocks.stations, line,
        blocks.callList, blocks.pace, blocks.loss, blocks.history, blocks.frame, blocks.pending, holdStart]

/-! ### SHIFT CLOSE (R74) -/

/-- Of the state an event began in the alert decision looks at the intensity's target alone. -/
theorem decideAlert_current {old s : State} (causes : s.CausesCurrent) (alert : s.alert = old.alert)
    (tiles : s.tiles = old.tiles) : decideAlert old s = s := by
  have target : old.effectiveTarget = s.effectiveTarget := by
    unfold State.effectiveTarget
    rw [alert, tiles]
  calc decideAlert old s = decideAlert s s := by simp only [decideAlert, target]
    _ = s := decideAlert_self s causes

theorem applyShiftClose_closed {s : State} (h : s.timer.state.isOpen = false) : applyShiftClose s = (s, .state) :=
  if_neg (by simp [h])

theorem applyShiftClose_open {s : State} (h : s.timer.state.isOpen = true) :
    applyShiftClose s = (handOn s (startClose .command s), .ok) := if_pos h

/-- A command without arguments that its rule refuses restarts the plant link alone. -/
theorem readyCommand_refused {c : PlantCommand} {rule : CommandRule} {s : State} {r : PlantResult}
    (running : s.inReset = false) (quiet : s.Quiet) (causes : s.CausesCurrent) (ready : s.plant.transaction = .ready)
    (bare : c.argBytes = 0) (refused : rule (restartPlantLink s) = (restartPlantLink s, r)) :
    ∃ t, centreEvent (takeCommand c rule) s = .next t ∧ t.plant = s.plant.linked.answered r ∧
      { t with plant := s.plant, engine := s.engine } = s ∧ RequestedOnly s.plantLinkRoles s t := by
  have next := centreEvent_next (takeCommand c rule) s running
  rw [takeCommand_ready ready bare, refused] at next
  have current : (setTransaction .ignoring (setPlantResult r (restartPlantLink s))).CausesCurrent :=
    CausesCurrent.congr causes (by simp) (by simp) (by simp) (by simp)
  dsimp only at next
  rw [decideAlert_current current (by simp) (by simp)] at next
  refine ⟨_, next, by simp [restartPlantLink_plant, PlantPort.answered], by apply State.ext <;> simp, Latches.served ?_ quiet⟩
  exact restartPlantLink_latches s

/-- The open shift's close begun by a command from its command byte. -/
def State.closeCommanded (s : State) : State := handOn (restartPlantLink s) (startClose .command (restartPlantLink s))

theorem closeCommanded_change (s : State) : ShiftChange [] (restartPlantLink s) s.closeCommanded := by
  refine startClose_shiftChange .command rfl ((Latches.refl _).congr fun r => ?_) rfl rfl
  simp [not_mem_figureRoles (s := restartPlantLink s) (t := restartPlantLink s) rfl rfl rfl r]

theorem closeCommanded_plant (s : State) :
    s.closeCommanded.plant.answered .ok = s.plant.linked.answered .ok := by
  have started : s.closeCommanded.plant = (startClose .command (restartPlantLink s)).plant := by simp [State.closeCommanded]
  rw [started, startClose, restartPlantLink_plant]
  rfl

/-- Settles O32: an open shift's close is `closeCommanded_change`, and its snapshot is the state's as it was, with the
line's lost cars as R105 counts them (`lostCars_eq`). -/
theorem shiftCloseStartsCloseWithSnapshot : Obligations.ShiftCloseStartsCloseWithSnapshot := by
  intro s running quiet ready
  have timer : (restartPlantLink s).timer = s.timer := by simp
  refine ⟨fun closed causes => ?refused, fun open_ => ?closes⟩
  case refused =>
    exact readyCommand_refused running quiet causes ready rfl (applyShiftClose_closed (by rw [timer, closed]))
  case closes =>
    obtain ⟨t, next, ev⟩ := readyCommand_shiftEvent (c := .shiftClose) running quiet ready rfl
      (applyShiftClose_open (s := restartPlantLink s) (by rw [timer, open_])) (closeCommanded_change s)
    have blocks : SameBlocks (startClose .command (restartPlantLink s)) t :=
      (handOn_sameBlocks _ _).trans (ev.blocks.of_ports rfl)
    have closing : t.timer = { s.timer with state := .closing } := by
      rw [blocks.timer, startClose, timer]
    have archive : t.archive = (startClose .command s).archive := by
      rw [blocks.archive]
      simp [startClose, State.snapshot, State.lineLostCars, State.lostCars]
    obtain ⟨settled, buffers, xstop⟩ := ev.tracker.changed (by rw [closing]; exact closing_ne_of_isOpen open_)
    have line : t.line = s.line := by rw [ev.line]; simp
    refine ⟨t, next, ev.plant.trans (closeCommanded_plant s), closing, by rw [archive]; rfl, ?_, settled, buffers,
      xstop, ev.requested, ?_, ev.causes, ev.echoes⟩
    · rintro k newest
      rw [archive] at newest ⊢
      cases newest
      have cars : s.lineLostCars = s.loss.lineLost * 10 / s.timer.plan.takt := lostCars_eq s _
      rw [← cars]
      rfl
    · apply State.ext <;> simp [blocks.conditions, blocks.straps, blocks.pitch, blocks.layout, blocks.stations, line,
        blocks.callList, blocks.pace, blocks.loss, blocks.history, blocks.frame, blocks.pending]

end Sys2Proof.Machine
end

section
/-! A shift opened by SHIFT START or at the completion of a close (R70, R72, R107). -/

namespace Sys2Proof.Machine

/-! ### The open of a shift (R70) -/

theorem openShift_timer (p : Plan) (number offset : Nat) (s : State) :
    (openShift p number offset s).timer = s.timer.opened p number offset := by simp [openShift]

theorem openShift_stations (p : Plan) (number offset : Nat) (s : State) :
    (openShift p number offset s).stations = .tab fun st => (s.stations.at_ st).opened := by simp [openShift]

theorem openShift_loss (p : Plan) (number offset : Nat) (s : State) : (openShift p number offset s).loss = .zero := by
  simp [openShift]

/-- The figures an open computes are those of the opened shift. -/
theorem openShift_pace (p : Plan) (number offset : Nat) (s : State) :
    (openShift p number offset s).pace =
      ⟨0, (s.timer.opened p number offset).wc, 0, s.pace.held, (openShift p number offset s).pace.figures⟩ := by
  simp [openShift, recompute_pace, PaceUnit.opened]

theorem openShift_figuresCurrent (p : Plan) (number offset : Nat) (s : State) :
    (openShift p number offset s).FiguresCurrent := by
  let opened : State :=
    { s with
      timer := s.timer.opened p number offset
      stations := .tab fun st => (s.stations.at_ st).opened
      loss := .zero
      pace := s.pace.opened (s.timer.opened p number offset).wc }
  exact (recompute_figuresCurrent opened).congr rfl rfl

/-- An open requests PACE and CLOCK, whatever changed (R70). -/
theorem openShift_latches (p : Plan) (number offset : Nat) (s : State) :
    Latches (· ∈ [Role.pace, .clock]) s.engine (openShift p number offset s).engine := by
  have pace := (recompute_latches { s with
    timer := s.timer.opened p number offset
    stations := .tab fun st => (s.stations.at_ st).opened
    loss := .zero
    pace := s.pace.opened (s.timer.opened p number offset).wc }).trans (raise_latches (role := .pace) rfl _)
  refine (pace.trans (raise_latches (role := .clock) rfl _)).congr fun r => ?_
  simp only [List.mem_cons, List.not_mem_nil, or_false]
  tauto

/-- A shift opens into production or into a break. -/
theorem opened_state (t : ShiftTimer) (p : Plan) (number offset : Nat) :
    (t.opened p number offset).state = .inBreak ∨ (t.opened p number offset).state = .production := by
  unfold ShiftTimer.opened
  dsimp only
  split
  · exact .inl rfl
  · exact .inr rfl

/-- A shift opened from NO_SHIFT, or as the close before it completes, handed on. -/
theorem openShift_change {p : Plan} {number offset : Nat} {s w : State} (tracker : w.tracker = s.tracker)
    (engine : w.engine = s.engine) (alert : w.alert = s.alert) (tiles : w.tiles = s.tiles) :
    ShiftChange [.pace, .clock] s (handOn s (openShift p number offset w)) := by
  have latches := openShift_latches p number offset w
  rw [engine] at latches
  refine handOn_shiftChange (by simp [tracker]) (latches.congr fun r => ?_) (by simp [alert]) (by simp [tiles])
  rw [List.mem_append, mem_figureRoles]
  simp only [List.mem_cons, List.not_mem_nil, or_false]
  tauto

/-- What an open leaves, from any state with the timer's fields but its shift state, the figures and the stations of
`s`. -/
theorem shiftOpened_of_blocks {p : Plan} {number offset : Nat} {s w t : State} {state : ShiftState}
    (blocks : SameBlocks (openShift p number offset w) t) (timer : w.timer = { s.timer with state := state })
    (pace : w.pace = s.pace) (stations : w.stations = s.stations)
    (requested : RequestedOnly (changeRoles s t ++ [.pace, .clock]) s t) : ShiftOpened p number offset s t := by
  have opened : t.timer = s.timer.opened p number offset := by
    rw [blocks.timer, openShift_timer, timer]
    rfl
  have table : t.loss = .zero := blocks.loss.trans (openShift_loss p number offset w)
  refine ⟨?_, fun st => ?_, fun k => ?_, ?_, ?_, ?_, ?_, ?_, ?_, requested⟩
  · rw [opened]
    simp [ShiftTimer.opened, Plan.insideBreak, Plan.breakBefore, Break.stop]
  · rw [blocks.stations, openShift_stations, stations, Tab.at_tab]
    rfl
  · rw [table]
    exact Tab.at_tab _ k
  · rw [table]; rfl
  · rw [table]; rfl
  · rw [table]; rfl
  · rw [table]; rfl
  · rw [blocks.pace, openShift_pace, pace, timer]
    rfl
  · exact (openShift_figuresCurrent p number offset w).congr blocks.timer blocks.pace

/-! ### SHIFT START in NO_SHIFT (R70, R83) -/

/-- The state of an opened shift is not the one before. -/
theorem openShift_state_ne {p : Plan} {number offset : Nat} {s w : State} (closed : s.timer.state.isOpen = false) :
    (handOn s (openShift p number offset w)).timer.state ≠ s.timer.state := by
  rw [(handOn_sameBlocks s (openShift p number offset w)).timer, openShift_timer]
  intro same
  obtain inBreak | production := opened_state w.timer p number offset
  · rw [← same, inBreak] at closed
    exact absurd closed (by decide)
  · rw [← same, production] at closed
    exact absurd closed (by decide)

/-- The frame that opens a shift. -/
theorem lineShiftStart_opens {n o : Half} {p : Plan} {rest : List Frame} {s : State} (running : s.inReset = false)
    (quiet : s.Quiet) (hq : s.line.queue = .shiftStart n o :: rest) (state : s.timer.state = .noShift) (valid : n ≠ 0)
    (plan : s.timer.opening = some p) :
    ∃ t, exec .lineShiftStart s = .next t ∧
      ShiftEvent [.pace, .clock] s
        { handOn (s.dequeued rest) (openShift p n.toNat o.toNat (s.dequeued rest)) with
          line := s.line.answered rest .ok } t := by
  have applied := applyShiftStart_opens (s := s.dequeued rest) (offset := o.toNat) (half_ne_zero valid) state plan
  exact frame_shiftEvent running quiet hq rfl (congrArg lineVerdict applied) (openShift_change rfl rfl rfl rfl) (by simp)

/-- The plant command that opens a shift. -/
theorem plantShiftStart_opens {n o : Half} {p : Plan} {s : State} (running : s.inReset = false) (quiet : s.Quiet)
    (h : s.plant.transaction = .arguments .shiftStart) (state : s.timer.state = .noShift) (valid : n ≠ 0)
    (plan : s.timer.opening = some p) :
    ∃ t, exec (.plantShiftStart n o) s = .next t ∧
      ShiftEvent [.pace, .clock] s
        { handOn s (openShift p n.toNat o.toNat s) with
          plant := (handOn s (openShift p n.toNat o.toNat s)).plant.answered .ok } t := by
  have applied := applyShiftStart_opens (s := s) (offset := o.toNat) (half_ne_zero valid) state plan
  exact command_shiftEvent running quiet h (congrArg plantVerdict applied) (openShift_change rfl rfl rfl rfl)

/-- Settles O27: from either port the rule opens the shift (`openShift_change`), under the next plan, else the active
one. -/
theorem shiftStartOpensShift : Obligations.ShiftStartOpensShift := by
  intro n o p s running quiet state valid plan
  have closed : s.timer.state.isOpen = false := by rw [state]; rfl
  refine ⟨fun rest hq => ?line, fun h => ?plant⟩
  case line =>
    obtain ⟨t, next, ev⟩ := lineShiftStart_opens (o := o) running quiet hq state valid plan
    have blocks : SameBlocks (openShift p n.toNat o.toNat (s.dequeued rest)) t :=
      (handOn_sameBlocks _ _).trans (ev.blocks.of_ports rfl)
    obtain ⟨settled, buffers, xstop⟩ := ev.settled (openShift_state_ne (s := s.dequeued rest) closed)
    have plant : t.plant = s.plant := ev.plant.trans (by simp [State.dequeued])
    refine ⟨t, next, shiftOpened_of_blocks blocks rfl rfl rfl ev.requested, ev.line, settled, buffers, xstop, ?_,
      ev.echoes⟩
    apply State.ext <;> simp [blocks.conditions, blocks.straps, blocks.pitch, blocks.layout, blocks.callList, plant,
      blocks.archive, blocks.history, blocks.frame, blocks.pending, State.dequeued]
  case plant =>
    obtain ⟨t, next, ev⟩ := plantShiftStart_opens (o := o) running quiet h state valid plan
    have blocks : SameBlocks (openShift p n.toNat o.toNat s) t := (handOn_sameBlocks _ _).trans (ev.blocks.of_ports rfl)
    obtain ⟨settled, buffers, xstop⟩ := ev.settled (openShift_state_ne closed)
    have plant : t.plant = s.plant.answered .ok := ev.plant.trans (by simp [PlantPort.answered])
    have line : t.line = s.line := ev.line.trans (by simp)
    refine ⟨t, next, shiftOpened_of_blocks blocks rfl rfl rfl ev.requested, plant, settled, buffers, xstop, ?_, ev.echoes⟩
    apply State.ext <;> simp [blocks.conditions, blocks.straps, blocks.pitch, blocks.layout, blocks.callList, line,
      blocks.archive, blocks.history, blocks.frame, blocks.pending]

/-! ### The completion of a close (R72, R107) -/

/-- A completion frees the shift, and opens the pending one. -/
def State.completed (s : State) : State := handOn s (takePending s.closeCompleted)

/-- The completion opens the pending start, or there is none to open under a plan. -/
theorem takePending_cases (s : State) :
    (∃ q p, s.timer.pendingStart = some q ∧ s.timer.opening = some p) ∨
      takePending s = s ∧ ∀ q, s.timer.pendingStart = some q → s.timer.opening = none := by
  cases pending : s.timer.pendingStart with
  | none => exact .inr ⟨takePending_none pending, by simp⟩
  | some q =>
    cases plan : s.timer.opening with
    | none => exact .inr ⟨by simp [takePending, pending, plan], by simp⟩
    | some p => exact .inl ⟨q, p, rfl, rfl⟩

/-- The pending start's state as its shift is opened. -/
def State.pendingTaken (s : State) : State := s.closeCompleted.onTimer fun t => { t with pendingStart := none }

/-- The roles of a completion besides those of what changed: PACE and CLOCK of the shift it opens. -/
def State.pendingRoles (s : State) : List Role :=
  if s.timer.pendingStart.isSome ∧ s.timer.opening.isSome then [.pace, .clock] else []

theorem pendingRoles_opens {s : State} {q : PendingStart} {p : Plan} (pending : s.timer.pendingStart = some q)
    (plan : s.timer.opening = some p) : s.pendingRoles = [.pace, .clock] := by
  simp [State.pendingRoles, pending, plan]

theorem pendingRoles_free {s : State} (free : ∀ q, s.timer.pendingStart = some q → s.timer.opening = none) :
    s.pendingRoles = [] := by
  refine if_neg fun ⟨pending, plan⟩ => ?_
  obtain ⟨q, hq⟩ := Option.isSome_iff_exists.1 pending
  simp [free q hq] at plan

theorem completed_opens {s : State} {q : PendingStart} {p : Plan} (pending : s.timer.pendingStart = some q)
    (plan : s.timer.opening = some p) :
    s.completed = handOn s (openShift p q.number q.offset s.pendingTaken) :=
  congrArg (handOn s) (takePending_some (s := s.closeCompleted) pending plan)

theorem completed_change (s : State) : ShiftChange s.pendingRoles s s.completed := by
  obtain ⟨q, p, pending, plan⟩ | ⟨taken, free⟩ := takePending_cases s.closeCompleted
  · rw [completed_opens (s := s) pending plan, pendingRoles_opens (s := s) pending plan]
    exact openShift_change rfl rfl rfl rfl
  · rw [State.completed, taken, pendingRoles_free (s := s) free]
    refine handOn_shiftChange rfl ((Latches.refl s.engine).congr fun r => ?_) rfl rfl
    simp [not_mem_figureRoles (s := s) (t := s.closeCompleted) rfl rfl rfl r]

theorem completed_state_ne (s : State) : s.completed.timer.state ≠ .closing := by
  obtain ⟨q, p, pending, plan⟩ | ⟨taken, -⟩ := takePending_cases s.closeCompleted
  · rw [completed_opens (s := s) pending plan, (handOn_sameBlocks s _).timer, openShift_timer]
    obtain inBreak | production := opened_state s.pendingTaken.timer p q.number q.offset
    · simp [inBreak]
    · simp [production]
  · rw [State.completed, taken, (handOn_sameBlocks s _).timer]
    simp [State.closeCompleted]

theorem closeCompletion_shiftEvent {s : State} (running : s.inReset = false) (quiet : s.Quiet)
    (closing : s.timer.state = .closing) :
    ∃ t, exec .closeCompletion s = .next t ∧ ShiftEvent s.pendingRoles s s.completed t := by
  refine ⟨_, ?_, (completed_change s).taken quiet⟩
  rw [State.completed, ← completeClose_closing closing]
  exact centreEvent_next completeClose s running

theorem archive_completed_newest (a : Archive) : a.completed.newest = a.newest := by
  unfold Archive.completed
  split
  · rfl
  · rfl

/-- The slot being written becomes COMPLETE with what was written (R107). -/
theorem archive_completed_slots {a : Archive} {k : Fin 4} {r : Summary} (newest : a.newest = some k)
    (writing : a.slots.at_ k = .writing r) : a.completed.slots = a.slots.put k (.complete r) := by
  unfold Archive.completed
  rw [newest]
  simp only [Tab.upd, writing, Slot.completed]

/-- Settles O25: the completion's event is `completed_change`, and what it leaves is the shift freed or opened. -/
theorem closeCompletionFreesShiftAndOpensPendingStart : Obligations.CloseCompletionFreesShiftAndOpensPendingStart := by
  intro s running quiet causes
  refine ⟨fun idle => ?idle, fun closing => ?closing⟩
  case idle =>
    have next : exec .closeCompletion s = .next (serve (decideAlert s (completeClose s))) :=
      centreEvent_next completeClose s running
    rw [next, completeClose_idle idle, decideAlert_self s causes, serve_quiet s quiet]
  case closing =>
    obtain ⟨t, next, ev⟩ := closeCompletion_shiftEvent running quiet closing
    have blocks : SameBlocks (takePending s.closeCompleted) t := (handOn_sameBlocks _ _).trans ev.blocks
    have archive : t.archive = s.archive.completed := blocks.archive.trans (by simp [State.closeCompleted])
    obtain ⟨settled, buffers, xstop⟩ := ev.settled (by rw [closing]; exact completed_state_ne s)
    have line : t.line = s.line := ev.line.trans (by simp [State.completed, State.closeCompleted])
    have plant : t.plant = s.plant := ev.plant.trans (by simp [State.completed, State.closeCompleted])
    refine ⟨t, next, ?_, fun k newest r writing => ?_, fun none => ?_, fun q pending p plan => ?_, settled, buffers, xstop,
      ?_, ev.causes, ev.echoes⟩
    · rw [archive, archive_completed_newest]
    · rw [archive, archive_completed_slots newest writing]
    · have free : s.pendingRoles = [] := by simp [State.pendingRoles, none]
      rw [takePending_none (s := s.closeCompleted) none] at blocks
      have requested := ev.requested
      rw [free, List.append_nil] at requested
      exact ⟨blocks.timer, blocks.pace, blocks.loss, blocks.stations, requested⟩
    · rw [takePending_some (s := s.closeCompleted) pending plan] at blocks
      have requested := ev.requested
      rw [pendingRoles_opens pending plan] at requested
      exact shiftOpened_of_blocks (w := s.pendingTaken) (state := .noShift) blocks rfl rfl rfl requested
    · apply State.ext <;> simp [blocks.conditions, blocks.straps, blocks.pitch, blocks.layout, blocks.callList, line, plant,
        blocks.history, blocks.frame, blocks.pending, State.closeCompleted]

end Sys2Proof.Machine
end

section
/-! COUNT ADJUST, TIME MARK and KEEPALIVE (R77, R79, R92, R127). -/

namespace Sys2Proof.Machine

/-- The roles of an event count as a set. -/
theorem RequestedOnly.congr {roles roles' : List Role} {s t : State} (h : RequestedOnly roles s t)
    (same : ∀ r, r ∈ roles ↔ r ∈ roles') : RequestedOnly roles' s t :=
  ⟨h.1, fun i => by simpa only [same] using h.2 i⟩

/-- An event that changes neither the shift state, nor the Call List, nor the layout leaves alert and tiles. -/
theorem ShiftEvent.alert_tiles {besides : List Role} {s u t : State} (h : ShiftEvent besides s u t)
    (causes : s.CausesCurrent) (state : u.timer.state = s.timer.state) (layout : u.layout = s.layout)
    (callList : u.callList = s.callList) : t.alert = s.alert ∧ t.tiles = s.tiles := by
  obtain ⟨-, alert, tiles, follows⟩ := h.echoes
  have tracker : t.tracker = s.tracker := h.tracker.unchanged (by rw [h.blocks.timer, state])
  have present : t.presentCauses = s.presentCauses :=
    presentCauses_congr (h.blocks.callList.trans callList) (h.blocks.layout.trans layout) tracker
  have kept : t.alert.causes = s.alert.causes := h.causes.trans (present.trans causes.symm)
  have sameAlert : t.alert = s.alert := by rw [← alert, ← kept]
  have target : t.effectiveTarget = s.effectiveTarget := by
    have aim : t.tiles.target = s.tiles.target := by rw [← tiles]
    have override : t.tiles.override = s.tiles.override := by rw [← tiles]
    unfold State.effectiveTarget
    rw [sameAlert, aim, override]
  have actual : t.tiles.actual = s.tiles.actual := by
    rw [follows]
    exact if_neg fun moved => moved.2 target
  exact ⟨sameAlert, by rw [← tiles, ← actual]⟩

/-! ### COUNT ADJUST (R79, R92) -/

/-- The actual count with a value taken, and the figures computed. -/
def State.actualTaken (a : Nat) (s : State) : State := recompute (s.onPace fun u => { u with actual := a })

theorem changeActual_same {a : Nat} {s : State} (h : a = s.pace.actual) : changeActual a s = s := if_pos h

theorem changeActual_other {a : Nat} {s : State} (h : a ≠ s.pace.actual) :
    changeActual a s = handOn s (targetTest (s.actualTaken a)) := if_neg h

theorem actualTaken_pace (a : Nat) (s : State) :
    (s.actualTaken a).pace = { s.pace with actual := a, figures := (s.actualTaken a).pace.figures } := by
  simp [State.actualTaken, recompute_pace]

theorem actualTaken_figuresCurrent (a : Nat) (s : State) : (s.actualTaken a).FiguresCurrent :=
  recompute_figuresCurrent _

theorem actualTaken_timer (a : Nat) (s : State) : (s.actualTaken a).timer = s.timer := by simp [State.actualTaken]

/-- In OVERTIME the figures stay on H (R87). -/
theorem actualTaken_overtime (a : Nat) {s : State} (overtime : s.timer.state = .overtime) :
    (s.actualTaken a).pace.figures.Follow 0 s.pace.held s.pace.held a := by
  rw [follow_iff, State.actualTaken, recompute_pace]
  exact computeFigures_overtime overtime

theorem actualTaken_latches (a : Nat) (s : State) :
    Latches (fun r => ShownFiguresChange s (s.actualTaken a) ∧ r = .pace) s.engine (s.actualTaken a).engine :=
  recompute_latches (s.onPace fun u => { u with actual := a })

/-- The count as it was shown changes with it (R88). -/
theorem actualTaken_shown {a : Nat} {s : State} (form : s.pace.Form) (other : a ≠ s.pace.actual) :
    ShownFiguresChange s (s.actualTaken a) := by
  have shown : (s.actualTaken a).pace.figures.shownActual = a := by
    have form := recompute_paceForm (s.onPace fun u => { u with actual := a })
    exact form.shown.trans (by rw [← State.actualTaken, actualTaken_pace])
  refine .inr (.inr (.inl ?_))
  rw [shown, form.shown]
  exact other

/-- The target test closes the shift in OVERTIME where A has reached G (R79). -/
theorem targetTest_met {s : State} (overtime : s.timer.state = .overtime) (met : s.pace.figures.g ≤ s.pace.actual) :
    targetTest s = startClose .targetMet s := if_pos ⟨overtime, met⟩

theorem targetTest_unmet {s : State} (h : s.timer.state ≠ .overtime ∨ s.pace.actual < s.pace.figures.g) :
    targetTest s = s := by
  refine if_neg fun ⟨overtime, met⟩ => ?_
  obtain running | short := h
  · exact running overtime
  · exact absurd met (Nat.not_le.2 short)

theorem targetTest_pace (s : State) : (targetTest s).pace = s.pace := by simp

theorem targetTest_actualTaken_met {a : Nat} {s : State} (overtime : s.timer.state = .overtime)
    (met : (s.actualTaken a).pace.figures.g ≤ a) :
    targetTest (s.actualTaken a) = startClose .targetMet (s.actualTaken a) := by
  have actual : (s.actualTaken a).pace.actual = a := by rw [actualTaken_pace]
  exact targetTest_met (by rw [actualTaken_timer, overtime]) (by rwa [actual])

theorem targetTest_actualTaken_unmet {a : Nat} {s : State}
    (unmet : s.timer.state ≠ .overtime ∨ a < (s.actualTaken a).pace.figures.g) :
    targetTest (s.actualTaken a) = s.actualTaken a := by
  have actual : (s.actualTaken a).pace.actual = a := by rw [actualTaken_pace]
  exact targetTest_unmet (by rwa [actualTaken_timer, actual])

/-- The target test changes the shift state, the Archive and the Plant Port alone. -/
theorem targetTest_figureRoles (old s : State) : figureRoles old (targetTest s) = figureRoles old s := by
  unfold targetTest
  split
  · rfl
  · rfl

theorem changeActual_change {a : Nat} {s : State} (other : a ≠ s.pace.actual) :
    ShiftChange [] s (changeActual a s) := by
  have timer := actualTaken_timer a s
  have cars : (s.actualTaken a).lineLostCars = s.lineLostCars :=
    lineLostCars_congr (by rw [timer]) (by simp [State.actualTaken])
  rw [changeActual_other other]
  refine handOn_shiftChange (by simp [State.actualTaken]) ?_ (by simp [State.actualTaken]) (by simp [State.actualTaken])
  rw [targetTest_figureRoles]
  have engine : (targetTest (s.actualTaken a)).engine = (s.actualTaken a).engine := by simp
  rw [engine]
  refine (actualTaken_latches a s).congr fun r => ?_
  simp [mem_figureRoles, timer, cars]

/-- The frame that changes the count. -/
theorem countAdjust_shiftEvent {d : Byte} {rest : List Frame} {s : State} (running : s.inReset = false)
    (quiet : s.Quiet) (hq : s.line.queue = .countAdjust d :: rest) (open_ : s.timer.state.isOpen = true)
    (other : adjustedActual s.pace.actual d.toInt ≠ s.pace.actual) :
    ∃ t, exec .countAdjust s = .next t ∧
      ShiftEvent [] s
        { changeActual (adjustedActual s.pace.actual d.toInt) (s.dequeued rest) with line := s.line.answered rest .ok }
        t := by
  have applied : applyCountAdjust d.toInt (s.dequeued rest) =
      (changeActual (adjustedActual s.pace.actual d.toInt) (s.dequeued rest), .ok) := if_pos open_
  exact frame_shiftEvent running quiet hq rfl applied (changeActual_change (s := s.dequeued rest) other) (by simp)

/-- A COUNT ADJUST that changes no count is answered alone. -/
theorem countAdjust_same {d : Byte} {rest : List Frame} {s : State} (running : s.inReset = false) (quiet : s.Quiet)
    (causes : s.CausesCurrent) (hq : s.line.queue = .countAdjust d :: rest) (open_ : s.timer.state.isOpen = true)
    (same : adjustedActual s.pace.actual d.toInt = s.pace.actual) :
    exec .countAdjust s = .next { s with line := s.line.answered rest .ok } := by
  refine centreFrame_onTimer (g := id) (apply := applyCountAdjust d.toInt) running quiet causes hq rfl ?_
  have unchanged := changeActual_same (s := s.dequeued rest) same
  have applied : applyCountAdjust d.toInt (s.dequeued rest) =
      (changeActual (adjustedActual s.pace.actual d.toInt) (s.dequeued rest), .ok) := if_pos open_
  exact applied.trans (by rw [unchanged]; rfl)

theorem countAdjust_closed {d : Byte} {rest : List Frame} {s : State} (running : s.inReset = false) (quiet : s.Quiet)
    (causes : s.CausesCurrent) (hq : s.line.queue = .countAdjust d :: rest) (closed : s.timer.state.isOpen = false) :
    exec .countAdjust s = .next { s with line := s.line.answered rest .state } :=
  centreFrame_onTimer (g := id) (apply := applyCountAdjust d.toInt) running quiet causes hq rfl
    (if_neg (by simp [State.dequeued, closed]))

/-- The clamp of R92, as the model takes it. -/
theorem adjustedActual_eq (a : Nat) (delta : Int) :
    adjustedActual a delta = (max 0 (min 9999 ((a : Int) + delta))).toNat := by
  have max : Config.actualMax = 9999 := rfl
  rw [adjustedActual, max]
  omega

/-! ### TIME MARK and KEEPALIVE (R77, R127) -/

theorem timeMark_judged {n m : Half} {rest : List Frame} {s : State} {g : ShiftTimer → ShiftTimer} {v : Verdict}
    (running : s.inReset = false) (quiet : s.Quiet) (hq : s.line.queue = .timeMark n m :: rest)
    (judged : applyTimeMark n.toNat m.toNat (s.dequeued rest) = ((s.dequeued rest).onTimer g, v)) :
    exec .timeMark s = .next { s with line := s.line.answered rest v.line, timer := g s.timer } :=
  frameEvent_onTimer running quiet hq rfl (congrArg lineVerdict judged)

/-! ### What a changed count leaves -/

/-- The state that a COUNT ADJUST of another count comes to. -/
def State.countTaken (a : Nat) (rest : List Frame) (s : State) : State :=
  { handOn (s.dequeued rest) (targetTest ((s.dequeued rest).actualTaken a)) with line := s.line.answered rest .ok }

theorem countTaken_blocks {besides : List Role} {a : Nat} {rest : List Frame} {s t : State}
    (ev : ShiftEvent besides s (s.countTaken a rest) t) :
    SameBlocks (targetTest ((s.dequeued rest).actualTaken a)) t := (handOn_sameBlocks _ _).trans (ev.blocks.of_ports rfl)

theorem countTaken_pace {besides : List Role} {a : Nat} {rest : List Frame} {s t : State}
    (ev : ShiftEvent besides s (s.countTaken a rest) t) : t.pace = ((s.dequeued rest).actualTaken a).pace :=
  (countTaken_blocks ev).pace.trans (targetTest_pace _)

/-- The target test unmet, the event changes the count and the figures alone. -/
theorem countTaken_stays {a : Nat} {rest : List Frame} {s t : State} (ev : ShiftEvent [] s (s.countTaken a rest) t)
    (causes : s.CausesCurrent) (form : s.pace.Form) (other : a ≠ s.pace.actual)
    (unmet : s.timer.state ≠ .overtime ∨ a < t.pace.figures.g) :
    t.FiguresCurrent ∧ { t with line := s.line, pace := s.pace, engine := s.engine } = s ∧ RequestedOnly [.pace] s t := by
  have blocks := countTaken_blocks ev
  have pace := countTaken_pace ev
  have stay : targetTest ((s.dequeued rest).actualTaken a) = (s.dequeued rest).actualTaken a := by
    rw [pace] at unmet
    exact targetTest_actualTaken_unmet (s := s.dequeued rest) unmet
  rw [State.countTaken, stay] at ev
  rw [stay] at blocks
  have timer : t.timer = s.timer := blocks.timer.trans (actualTaken_timer a _)
  have loss : t.loss = s.loss := blocks.loss.trans (by simp [State.actualTaken, State.dequeued])
  have tracker : t.tracker = s.tracker := ev.tracker.unchanged (by rw [timer])
  have plant : t.plant = s.plant := ev.plant.trans (by simp [State.actualTaken, State.dequeued])
  obtain ⟨alert, tiles⟩ := ev.alert_tiles causes (by simp [actualTaken_timer, State.dequeued])
    (by simp [State.actualTaken, State.dequeued]) (by simp [State.actualTaken, State.dequeued])
  have shown : ShownFiguresChange s t := by
    have shown := actualTaken_shown (s := s.dequeued rest) form other
    rwa [ShownFiguresChange, ← pace] at shown
  refine ⟨(actualTaken_figuresCurrent a (s.dequeued rest)).congr blocks.timer pace, ?_,
    ev.requested_changes.congr fun r => ?_⟩
  · apply State.ext <;> simp [blocks.conditions, blocks.straps, blocks.pitch, blocks.layout, blocks.stations,
      blocks.callList, blocks.archive, blocks.history, blocks.frame, blocks.pending, timer, loss, tracker, alert, tiles,
      plant, State.actualTaken, State.dequeued]
  · simp [mem_changeRoles, SetsChange, StallChanges, tracker, timer, shown]

/-- The target test met, the event begins the close (R79). -/
theorem countTaken_closes {a : Nat} {rest : List Frame} {s t : State} (ev : ShiftEvent [] s (s.countTaken a rest) t)
    (overtime : s.timer.state = .overtime) (met : t.pace.figures.g ≤ a) :
    CloseBegun .targetMet s t ∧ t.timer = { s.timer with state := .closing } ∧
      t.plant = { s.plant with transaction := t.plant.transaction } ∧
      Settled s.tracker.zones.at_ s t ∧ t.tracker.buffers = s.tracker.buffers ∧ t.tracker.xstop = s.tracker.xstop ∧
      { t with
        line := s.line, pace := s.pace, timer := s.timer, archive := s.archive, plant := s.plant
        tracker := s.tracker, engine := s.engine, alert := s.alert, tiles := s.tiles } = s := by
  have blocks := countTaken_blocks ev
  have close : targetTest ((s.dequeued rest).actualTaken a) = startClose .targetMet ((s.dequeued rest).actualTaken a) := by
    rw [countTaken_pace ev] at met
    exact targetTest_actualTaken_met (s := s.dequeued rest) overtime met
  rw [State.countTaken, close] at ev
  rw [close] at blocks
  have timer : t.timer = { s.timer with state := .closing } :=
    blocks.timer.trans (by rw [startClose, actualTaken_timer]; rfl)
  have plant : t.plant = (startClose .targetMet ((s.dequeued rest).actualTaken a)).plant := ev.plant.trans (by simp)
  obtain ⟨settled, buffers, xstop⟩ := ev.tracker.changed (by simp [timer, overtime])
  refine ⟨(closeBegun_of_blocks (s := s) blocks plant (by simp [State.actualTaken, State.dequeued])
    (by simp [State.actualTaken, State.dequeued])).1, timer, ?_, settled, buffers, xstop, ?_⟩
  · rw [plant]
    simp [startClose, State.actualTaken, State.dequeued]
  · apply State.ext <;> simp [blocks.conditions, blocks.straps, blocks.pitch, blocks.layout, blocks.stations,
      blocks.callList, blocks.loss, blocks.history, blocks.frame, blocks.pending, State.actualTaken, State.dequeued]

/-- Settles O26: a change of the count is `countAdjust_shiftEvent`, which closes the shift where the target test is
met; a TIME MARK reaches the correction alone. -/
theorem countAdjustTimeMarkAndKeepaliveAreJudgedAndApplied :
    Obligations.CountAdjustTimeMarkAndKeepaliveAreJudgedAndApplied := by
  intro d n m rest s running quiet causes form
  refine ⟨fun hq => ⟨countAdjust_closed running quiet causes hq, fun open_ => ?count⟩, fun hq => ?mark, fun hq => ?alive⟩
  case alive =>
    exact frameEvent_onTimer (g := id) (apply := fun s => (s, .ok)) running quiet hq rfl rfl
  case mark =>
    intro gap refused
    have judged {g v} := timeMark_judged (n := n) (m := m) (g := g) (v := v) running quiet hq
    refine ⟨fun h => judged (g := id) (applyTimeMark_closed (s := s.dequeued rest) h), fun h far => ?_, fun h low high => ?_⟩
    · obtain ⟨open_, same⟩ := not_or.1 h
      exact judged (g := id) (applyTimeMark_far (s := s.dequeued rest) (Bool.not_eq_false _ ▸ open_) (not_not.1 same) far)
    · obtain ⟨open_, same⟩ := not_or.1 h
      exact judged (applyTimeMark_near (s := s.dequeued rest) (Bool.not_eq_false _ ▸ open_) (not_not.1 same) low high)
  case count =>
    intro a
    have adjusted : adjustedActual s.pace.actual d.toInt = a := adjustedActual_eq _ _
    refine ⟨fun same => countAdjust_same running quiet causes hq open_ (adjusted.trans same), fun other => ?_⟩
    obtain ⟨t, next, ev⟩ := countAdjust_shiftEvent running quiet hq open_ (by rwa [adjusted])
    rw [adjusted, changeActual_other (s := s.dequeued rest) other] at ev
    have pace := countTaken_pace ev
    have current : t.pace = { s.pace with actual := a, figures := t.pace.figures } := by
      rw [pace]
      exact actualTaken_pace a (s.dequeued rest)
    refine ⟨t, next, ev.line, current,
      fun unmet => countTaken_stays ev causes ((timerForm_iff s).1 form).2 other unmet, fun overtime => ?_,
      fun overtime met => ?_⟩
    · rw [pace]
      exact actualTaken_overtime a (s := s.dequeued rest) overtime
    · obtain ⟨begun, timer, plant, settled, buffers, xstop, frame⟩ := countTaken_closes ev overtime met
      exact ⟨begun, timer, plant, settled, buffers, xstop, ev.requested_changes, frame, ev.echoes⟩

end Sys2Proof.Machine
end

section
/-! The end tests as one close for a reason, and COMMIT PLAN NOW (R67, R78, R79, R90). -/

namespace Sys2Proof.Machine

/-! ### A computation that changes nothing (R88) -/

theorem recompute_current {s : State} (h : s.FiguresCurrent) : recompute s = s := by
  have same : s.computeFigures = s.pace.figures := ((figuresCurrent_iff s).1 h).symm
  have shown : s.pace.figures.sameShown s.pace.figures = true := by
    rw [← Bool.not_eq_false, sameShown_eq_false_iff (s := s) (t := s)]
    simp [ShownFiguresChange]
  have quiet : (!s.pace.figures.sameShown s.pace.figures) = false := by rw [shown]; rfl
  unfold recompute
  rw [same, quiet]
  rfl

/-- The entry into OVERTIME, where the figures stay. -/
def State.overtimeEntered (s : State) : State :=
  { s with timer := { s.timer with state := .overtime }, pace := { s.pace with held := s.pace.figures.gm } }

/-- At or beyond L the figures in PRODUCTION are those from H (R84 to R87). -/
theorem enterOvertime_late {s : State} (production : s.timer.state = .production)
    (late : s.timer.plan.length ≤ s.timer.clock) (current : s.FiguresCurrent) :
    enterOvertime s = s.overtimeEntered := by
  refine recompute_current ((figuresCurrent_iff _).2 ?_)
  have figures := (figuresCurrent_iff s).1 current
  rw [computeFigures_late (by simp [production]) late] at figures
  rw [computeFigures_overtime rfl]
  simp only [figures, figuresOf]

/-! ### A close for the reason that the end tests give -/

/-- The state itself, or the start of its close. -/
def closedBy (reason : Option CloseReason) (s : State) : State :=
  match reason with
  | none => s
  | some r => startClose r s

theorem closedBy_timer (reason : Option CloseReason) (s : State) :
    (closedBy reason s).timer = { s.timer with state := if reason.isSome then .closing else s.timer.state } := by
  cases reason with
  | none => rfl
  | some r => rfl

@[simp] theorem closedBy_keeps (reason : Option CloseReason) (s : State) :
    (closedBy reason s).conditions = s.conditions ∧ (closedBy reason s).straps = s.straps ∧
      (closedBy reason s).pitch = s.pitch ∧ (closedBy reason s).layout = s.layout ∧
      (closedBy reason s).stations = s.stations ∧ (closedBy reason s).tracker = s.tracker ∧
      (closedBy reason s).callList = s.callList ∧ (closedBy reason s).pace = s.pace ∧
      (closedBy reason s).loss = s.loss ∧ (closedBy reason s).history = s.history ∧
      (closedBy reason s).line = s.line ∧ (closedBy reason s).frame = s.frame ∧
      (closedBy reason s).engine = s.engine ∧ (closedBy reason s).tiles = s.tiles ∧
      (closedBy reason s).alert = s.alert ∧ (closedBy reason s).pending = s.pending := by
  cases reason <;> simp [closedBy]

/-- The Archive where an event ended in such a close: in CLOSING its slot taken for the reason, else as it was. -/
theorem archive_of_closedBy {reason : Option CloseReason} {s w t : State} (blocks : SameBlocks (closedBy reason w) t)
    (open_ : w.timer.state ≠ .closing) (archive : w.archive = s.archive) :
    (t.timer.state = .closing → ∃ r, reason = some r ∧ t.archive.newest = some s.archive.following ∧
      t.archive.slots = s.archive.slots.put s.archive.following (.writing (t.snapshot r))) ∧
    (t.timer.state ≠ .closing → t.archive = s.archive) := by
  rw [blocks.timer]
  cases reason with
  | none => exact ⟨fun closing => absurd closing open_, fun _ => blocks.archive.trans archive⟩
  | some r => exact ⟨fun _ => ⟨r, rfl, archive_of_startClose blocks archive⟩, fun other => absurd rfl other⟩

/-! ### The end tests of a COMMIT NOW (R67 step 4) -/

/-- The target is reached. -/
abbrev State.targetReached (s : State) : Prop := s.pace.figures.g ≤ s.pace.actual

/-- In PRODUCTION at or beyond L. -/
abbrev State.beyondEnd (s : State) : Prop := s.timer.state = .production ∧ s.timer.plan.length ≤ s.timer.clock

/-- The end-of-shift test enters OVERTIME (R78). -/
abbrev State.entersOvertime (s : State) : Prop := ¬s.targetReached ∧ s.timer.plan.overtime ≠ 0

/-- The reason for which a COMMIT NOW closes the shift, the overtime tests the limit first (R67, R78, R79). -/
def commitReason (s : State) : Option CloseReason :=
  if s.beyondEnd then
    if s.targetReached then some .targetMet
    else if s.timer.plan.overtime = 0 then some .lengthEnd
    else if overLimit s then some .overtimeLimit
    else none
  else if s.timer.state = .overtime then
    if overLimit s then some .overtimeLimit
    else if s.targetReached then some .targetMet
    else none
  else none

theorem endOfShiftTest_enters {s : State} (enters : s.entersOvertime) : endOfShiftTest s = enterOvertime s := by
  rw [endOfShiftTest, if_neg enters.1, if_neg enters.2]

theorem endOfShiftTest_closes {s : State} (stays : ¬s.entersOvertime) :
    endOfShiftTest s = startClose (if s.targetReached then .targetMet else .lengthEnd) s := by
  unfold endOfShiftTest
  by_cases met : s.targetReached
  · rw [if_pos met, if_pos met]
  · have short : s.timer.plan.overtime = 0 := not_not.1 fun allowed => stays ⟨met, allowed⟩
    rw [if_neg met, if_neg met, if_pos short]

/-- The overtime tests: the limit before the target. -/
theorem commitOvertimeTests_overtime {s : State} (overtime : s.timer.state = .overtime) :
    commitOvertimeTests s =
      closedBy (if overLimit s then some .overtimeLimit else if s.targetReached then some .targetMet else none) s := by
  unfold commitOvertimeTests
  rw [if_pos overtime]
  split
  · rfl
  · by_cases met : s.targetReached
    · rw [if_pos met]
      exact targetTest_met overtime met
    · rw [if_neg met]
      exact targetTest_unmet (.inr (Nat.not_le.1 met))

theorem commitOvertimeTests_other {s : State} (other : s.timer.state ≠ .overtime) : commitOvertimeTests s = s :=
  if_neg other

/-- The end tests of a COMMIT NOW close the shift for their reason, from OVERTIME where they enter it first. -/
theorem commitTests_eq {s : State} (current : s.FiguresCurrent) :
    commitOvertimeTests (commitEndTest s) =
      closedBy (commitReason s) (if s.beyondEnd ∧ s.entersOvertime then s.overtimeEntered else s) := by
  unfold commitReason
  by_cases beyond : s.beyondEnd
  · have test : commitEndTest s = endOfShiftTest s := if_pos beyond
    rw [test, if_pos beyond]
    by_cases enters : s.entersOvertime
    · have limit : overLimit s.overtimeEntered = overLimit s := rfl
      have unmet : ¬s.overtimeEntered.targetReached := enters.1
      rw [endOfShiftTest_enters enters, enterOvertime_late beyond.1 beyond.2 current,
        commitOvertimeTests_overtime rfl, if_pos (c := s.beyondEnd ∧ s.entersOvertime) ⟨beyond, enters⟩,
        if_neg (c := s.targetReached) enters.1, if_neg (c := s.timer.plan.overtime = 0) enters.2, limit,
        if_neg unmet]
    · rw [endOfShiftTest_closes enters, if_neg (c := s.beyondEnd ∧ s.entersOvertime) fun both => enters both.2,
        commitOvertimeTests_other (by simp [startClose])]
      by_cases met : s.targetReached
      · rw [if_pos met, if_pos met]
        rfl
      · have short : s.timer.plan.overtime = 0 := not_not.1 fun allowed => enters ⟨met, allowed⟩
        rw [if_neg met, if_neg met, if_pos short]
        rfl
  · have test : commitEndTest s = s := if_neg beyond
    rw [test, if_neg beyond, if_neg (c := s.beyondEnd ∧ s.entersOvertime) fun both => beyond both.1]
    by_cases overtime : s.timer.state = .overtime
    · rw [commitOvertimeTests_overtime overtime, if_pos overtime]
    · rw [commitOvertimeTests_other overtime, if_neg overtime]
      rfl

end Sys2Proof.Machine
end

section
/-! COMMIT PLAN NOW in an open shift (R67, R90). -/

namespace Sys2Proof.Machine

/-! ### The new plan, the state decided again, and the figures (R67 steps 1 to 3, R90) -/

/-- The base of a COMMIT NOW: in OVERTIME H, else the milli-cars up to now (R90). -/
def State.rebased (s : State) : Nat :=
  if s.timer.state = .overtime then s.pace.held
  else s.pace.base + (s.timer.wc - s.pace.rebaseMark) * 10000 / s.timer.plan.takt

/-- The shift state decided again under plan `p` (R67 step 3). -/
def State.decidedUnder (p : Plan) (s : State) : ShiftState :=
  ShiftTimer.redecided { s.timer with active := some p, staged := none }

theorem holdAtCommit_pace (s : State) :
    (holdAtCommit s).pace = { s.pace with held := if s.timer.state = .overtime then s.pace.base else s.pace.held } := by
  unfold holdAtCommit
  split <;> rfl

theorem commitDecided_pace (p : Plan) (s : State) :
    (commitDecided p s).pace =
      { s.pace with
        base := s.rebased, rebaseMark := s.timer.wc
        held := if s.decidedUnder p = .overtime then s.rebased else s.pace.held } := by
  rw [commitDecided, holdAtCommit_pace]
  simp only [State.onTimer, State.onPace, rebase, State.rebased, State.decidedUnder, milliCars]
  rfl

/-- The state under the new plan, its figures computed. -/
def State.replanned (p : Plan) (s : State) : State := recompute (commitDecided p s)

theorem replanned_timer (p : Plan) (s : State) :
    (s.replanned p).timer = { s.timer with active := some p, staged := none, state := s.decidedUnder p } := by
  have timer : (s.replanned p).timer = (commitDecided p s).timer := by simp [State.replanned]
  exact timer.trans (commitDecided_timer p s)

theorem replanned_pace (p : Plan) (s : State) :
    (s.replanned p).pace =
      { s.pace with
        base := s.rebased, rebaseMark := s.timer.wc
        held := if s.decidedUnder p = .overtime then s.rebased else s.pace.held
        figures := (s.replanned p).pace.figures } := by
  rw [State.replanned, recompute_pace, commitDecided_pace]

theorem replanned_current (p : Plan) (s : State) : (s.replanned p).FiguresCurrent := recompute_figuresCurrent _

theorem replanned_latches (p : Plan) (s : State) :
    Latches (fun r => ShownFiguresChange s (s.replanned p) ∧ r = .pace) s.engine (s.replanned p).engine := by
  have latches := recompute_latches (commitDecided p s)
  have engine : (commitDecided p s).engine = s.engine := by simp [commitDecided]
  have figures : (commitDecided p s).pace.figures = s.pace.figures := by rw [commitDecided_pace]
  rw [engine] at latches
  exact latches.congr fun r => by simp only [ShownFiguresChange, figures, State.replanned]

/-- In PRODUCTION beyond L, and in OVERTIME, E and G are the base's (R85 to R87, R90). -/
theorem replanned_figures_late {p : Plan} {s : State}
    (late : s.decidedUnder p = .overtime ∨ s.decidedUnder p = .production ∧ p.length ≤ s.timer.clock) :
    (s.replanned p).pace.figures = figuresOf 0 s.rebased s.rebased s.pace.actual := by
  have current := (figuresCurrent_iff _).1 (replanned_current p s)
  rw [current]
  obtain overtime | ⟨production, beyond⟩ := late
  · rw [computeFigures_overtime (by rw [replanned_timer, overtime]), replanned_pace, if_pos overtime]
  · have state : (s.replanned p).timer.state ≠ .overtime := by simp [replanned_timer, production]
    have none : s.timer.wc - s.timer.wc = 0 := Nat.sub_self _
    rw [computeFigures_late state (by rw [replanned_timer]; exact beyond), replanned_pace, replanned_timer]
    simp only [none, Nat.zero_mul, Nat.zero_div, Nat.add_zero]

/-! ### The end tests and the change -/

/-- The state that the end tests of a COMMIT NOW leave open, or close. -/
def State.recommitted (p : Plan) (s : State) : State :=
  if (s.replanned p).beyondEnd ∧ (s.replanned p).entersOvertime then (s.replanned p).overtimeEntered else s.replanned p

/-- The state that a COMMIT NOW hands on, but for a request of its lost cars. -/
def State.commitTested (p : Plan) (s : State) : State := closedBy (commitReason (s.replanned p)) (s.recommitted p)

theorem commitNow_tested (p : Plan) (s : State) : commitNow p s = handOn s (raiseLostCars s (s.commitTested p)) := by
  rw [commitNow_eq, ← State.replanned, commitTests_eq (replanned_current p s), State.commitTested, State.recommitted]

theorem recommitted_timer (p : Plan) (s : State) :
    (s.recommitted p).timer =
      { s.timer with
        active := some p, staged := none
        state := if (s.replanned p).beyondEnd ∧ (s.replanned p).entersOvertime then .overtime else s.decidedUnder p } := by
  unfold State.recommitted
  split
  · rw [State.overtimeEntered, replanned_timer]
  · rw [replanned_timer]

theorem recommitted_pace (p : Plan) (s : State) :
    (s.recommitted p).pace =
      { (s.replanned p).pace with
        held := if (s.replanned p).beyondEnd ∧ (s.replanned p).entersOvertime then (s.replanned p).pace.figures.gm
          else (s.replanned p).pace.held } := by
  unfold State.recommitted
  generalize s.replanned p = x
  split
  · rfl
  · rfl

theorem recommitted_basis (p : Plan) (s : State) :
    (s.recommitted p).pace.base = s.rebased ∧ (s.recommitted p).pace.rebaseMark = s.timer.wc ∧
      (s.recommitted p).pace.actual = s.pace.actual := by
  have base : (s.replanned p).pace.base = s.rebased := by rw [replanned_pace]
  have mark : (s.replanned p).pace.rebaseMark = s.timer.wc := by rw [replanned_pace]
  have actual : (s.replanned p).pace.actual = s.pace.actual := by rw [replanned_pace]
  rw [recommitted_pace]
  exact ⟨base, mark, actual⟩

@[simp] theorem recommitted_keeps (p : Plan) (s : State) :
    (s.recommitted p).conditions = s.conditions ∧ (s.recommitted p).straps = s.straps ∧
      (s.recommitted p).pitch = s.pitch ∧ (s.recommitted p).layout = s.layout ∧
      (s.recommitted p).stations = s.stations ∧ (s.recommitted p).tracker = s.tracker ∧
      (s.recommitted p).callList = s.callList ∧ (s.recommitted p).loss = s.loss ∧
      (s.recommitted p).archive = s.archive ∧ (s.recommitted p).history = s.history ∧
      (s.recommitted p).line = s.line ∧ (s.recommitted p).plant = s.plant ∧ (s.recommitted p).frame = s.frame ∧
      (s.recommitted p).tiles = s.tiles ∧ (s.recommitted p).alert = s.alert ∧ (s.recommitted p).pending = s.pending := by
  have replanned : (s.replanned p).conditions = s.conditions ∧ (s.replanned p).straps = s.straps ∧
      (s.replanned p).pitch = s.pitch ∧ (s.replanned p).layout = s.layout ∧
      (s.replanned p).stations = s.stations ∧ (s.replanned p).tracker = s.tracker ∧
      (s.replanned p).callList = s.callList ∧ (s.replanned p).loss = s.loss ∧
      (s.replanned p).archive = s.archive ∧ (s.replanned p).history = s.history ∧
      (s.replanned p).line = s.line ∧ (s.replanned p).plant = s.plant ∧ (s.replanned p).frame = s.frame ∧
      (s.replanned p).tiles = s.tiles ∧ (s.replanned p).alert = s.alert ∧ (s.replanned p).pending = s.pending := by
    simp [State.replanned, commitDecided]
  unfold State.recommitted
  split
  · exact replanned
  · exact replanned

theorem recommitted_engine (p : Plan) (s : State) : (s.recommitted p).engine = (s.replanned p).engine := by
  unfold State.recommitted
  generalize s.replanned p = x
  split
  · rfl
  · rfl

theorem commitNow_change (p : Plan) (s : State) : ShiftChange [] s (commitNow p s) := by
  have figures : (s.commitTested p).pace.figures = (s.replanned p).pace.figures := by
    simp [State.commitTested, recommitted_pace]
  have clock : (s.commitTested p).timer.clock = s.timer.clock := by
    simp [State.commitTested, closedBy_timer, recommitted_timer]
  have engine : (s.replanned p).engine = (s.commitTested p).engine := by simp [State.commitTested, recommitted_engine]
  have cars : (raiseLostCars s (s.commitTested p)).lineLostCars = (s.commitTested p).lineLostCars :=
    lineLostCars_congr (by simp) (by simp)
  have figured := replanned_latches p s
  rw [engine] at figured
  rw [commitNow_tested]
  refine handOn_shiftChange (by simp [State.commitTested])
    ((figured.trans (raiseLostCars_latches s (s.commitTested p))).congr fun r => ?_) (by simp [State.commitTested])
    (by simp [State.commitTested])
  simp [mem_figureRoles, ShownFiguresChange, figures, clock, cars, or_and_right]

/-- The plant command in an open shift with plan `p` staged. -/
theorem commitPlan_shiftEvent {p : Plan} {s : State} (running : s.inReset = false) (quiet : s.Quiet)
    (h : s.plant.transaction = .arguments .commitPlan) (open_ : s.timer.state.isOpen = true)
    (staged : s.timer.staged = some p) :
    ∃ t, exec (.commitPlan 1) s = .next t ∧
      ShiftEvent [] s { commitNow p s with plant := (commitNow p s).plant.answered .ok } t := by
  have applied : applyCommit 1 s = (commitNow p s, .ok) := by
    simp [applyCommit, staged, open_, (isOpen_ne open_).2]
  exact command_shiftEvent running quiet h applied (commitNow_change p s)

/-! ### What the end tests give (R67 step 4, R78, R79) -/

/-- The state decided again is PRODUCTION at or beyond the new plan's end. -/
def State.endedUnder (p : Plan) (s : State) : Prop := s.decidedUnder p = .production ∧ p.length ≤ s.timer.clock

theorem replanned_beyondEnd (p : Plan) (s : State) : (s.replanned p).beyondEnd ↔ s.endedUnder p := by
  rw [State.beyondEnd, replanned_timer]
  rfl

theorem replanned_plan (p : Plan) (s : State) : (s.replanned p).timer.plan = p := by
  rw [replanned_timer]
  rfl

theorem overLimit_replanned (p : Plan) (s : State) :
    overLimit (s.replanned p) = decide (p.length + p.overtime ≤ s.timer.clock) := by
  rw [overLimit, replanned_timer]
  rfl

theorem replanned_targetReached {p : Plan} {s : State} (late : s.decidedUnder p = .overtime ∨ s.endedUnder p) :
    (s.replanned p).targetReached ↔ s.rebased / 1000 ≤ s.pace.actual := by
  rw [State.targetReached, replanned_figures_late late, replanned_pace]
  rfl

theorem commitReason_ended {p : Plan} {s : State} (ended : s.endedUnder p) :
    commitReason (s.replanned p) =
      if s.rebased / 1000 ≤ s.pace.actual then some .targetMet
      else if p.overtime = 0 then some .lengthEnd
      else if p.length + p.overtime ≤ s.timer.clock then some .overtimeLimit
      else none := by
  rw [commitReason, if_pos ((replanned_beyondEnd p s).2 ended)]
  simp only [replanned_targetReached (.inr ended), replanned_plan, overLimit_replanned, decide_eq_true_eq]

theorem commitReason_overtime {p : Plan} {s : State} (overtime : s.decidedUnder p = .overtime) :
    commitReason (s.replanned p) =
      if p.length + p.overtime ≤ s.timer.clock then some .overtimeLimit
      else if s.rebased / 1000 ≤ s.pace.actual then some .targetMet
      else none := by
  have early : ¬(s.replanned p).beyondEnd := by simp [replanned_beyondEnd, State.endedUnder, overtime]
  have state : (s.replanned p).timer.state = .overtime := by rw [replanned_timer, overtime]
  rw [commitReason, if_neg early, if_pos state]
  simp only [replanned_targetReached (.inl overtime), overLimit_replanned, decide_eq_true_eq]

theorem commitReason_other {p : Plan} {s : State} (other : s.decidedUnder p ≠ .overtime) (early : ¬s.endedUnder p) :
    commitReason (s.replanned p) = none := by
  have state : (s.replanned p).timer.state ≠ .overtime := by rwa [replanned_timer]
  rw [commitReason, if_neg (mt (replanned_beyondEnd p s).1 early), if_neg state]

/-- Only where the new plan has ended is OVERTIME entered. -/
theorem recommitted_early {p : Plan} {s : State} (early : ¬s.endedUnder p) : s.recommitted p = s.replanned p :=
  if_neg fun both => early ((replanned_beyondEnd p s).1 both.1)

theorem enters_iff {p : Plan} {s : State} (ended : s.endedUnder p) :
    ((s.replanned p).beyondEnd ∧ (s.replanned p).entersOvertime) ↔
      ¬(s.rebased / 1000 ≤ s.pace.actual ∨ p.overtime = 0) := by
  rw [State.entersOvertime, replanned_targetReached (.inr ended), replanned_plan, not_or]
  exact and_iff_right ((replanned_beyondEnd p s).2 ended)

theorem recommitted_state_ended {p : Plan} {s : State} (ended : s.endedUnder p) :
    (s.recommitted p).timer.state =
      if s.rebased / 1000 ≤ s.pace.actual ∨ p.overtime = 0 then .production else .overtime := by
  rw [recommitted_timer, ite_congr (propext (enters_iff ended)) (fun _ => rfl) (fun _ => rfl), ended.1]
  exact ite_not ..

theorem recommitted_held_ended {p : Plan} {s : State} (ended : s.endedUnder p) :
    (s.recommitted p).pace.held =
      if s.rebased / 1000 ≤ s.pace.actual ∨ p.overtime = 0 then s.pace.held else s.rebased := by
  have running : s.decidedUnder p ≠ .overtime := by simp [ended.1]
  have held : (s.replanned p).pace.held = s.pace.held := by rw [replanned_pace, if_neg running]
  have target : (s.replanned p).pace.figures.gm = s.rebased := by rw [replanned_figures_late (.inr ended)]; rfl
  rw [recommitted_pace, ite_congr (propext (enters_iff ended)) (fun _ => rfl) (fun _ => rfl), held, target]
  exact ite_not ..

/-! ### What the event leaves -/

theorem commitTested_timer (p : Plan) (s : State) :
    (s.commitTested p).timer =
      { s.timer with active := some p, staged := none, state := (s.commitTested p).timer.state } := by
  rw [State.commitTested, closedBy_timer, recommitted_timer]

theorem commitTested_state (p : Plan) (s : State) :
    (s.commitTested p).timer.state =
      if (commitReason (s.replanned p)).isSome then .closing else (s.recommitted p).timer.state := by
  rw [State.commitTested, closedBy_timer]

theorem commitTested_pace (p : Plan) (s : State) : (s.commitTested p).pace = (s.recommitted p).pace := by
  simp [State.commitTested]

/-- The answer ends whatever the Plant Port was serving. -/
theorem commitNow_answered (p : Plan) (s : State) (r : PlantResult) :
    (commitNow p s).plant.answered r = s.plant.answered r := by
  have closed (reason : Option CloseReason) (w : State) : (closedBy reason w).plant.answered r = w.plant.answered r := by
    cases reason <;> rfl
  have handed : (commitNow p s).plant = (s.commitTested p).plant := by simp [commitNow_tested]
  rw [handed, State.commitTested, closed]
  simp

theorem commitTested_state_ended {p : Plan} {s : State} (ended : s.endedUnder p) :
    (s.commitTested p).timer.state =
      if s.rebased / 1000 ≤ s.pace.actual ∨ p.overtime = 0 ∨ p.length + p.overtime ≤ s.timer.clock then .closing
      else .overtime := by
  rw [commitTested_state, commitReason_ended ended, recommitted_state_ended ended]
  by_cases met : s.rebased / 1000 ≤ s.pace.actual
  · simp [met]
  · by_cases short : p.overtime = 0
    · simp [met, short]
    · by_cases limit : p.length + p.overtime ≤ s.timer.clock
      · simp [met, short, limit]
      · simp [met, short, limit]

theorem commitTested_state_overtime {p : Plan} {s : State} (overtime : s.decidedUnder p = .overtime) :
    (s.commitTested p).timer.state =
      if p.length + p.overtime ≤ s.timer.clock ∨ s.rebased / 1000 ≤ s.pace.actual then .closing else .overtime := by
  have early : ¬s.endedUnder p := by simp [State.endedUnder, overtime]
  rw [commitTested_state, commitReason_overtime overtime, recommitted_early early, replanned_timer, overtime]
  by_cases limit : p.length + p.overtime ≤ s.timer.clock
  · simp [limit]
  · by_cases met : s.rebased / 1000 ≤ s.pace.actual
    · simp [limit, met]
    · simp [limit, met]

theorem recommitted_held_overtime {p : Plan} {s : State} (overtime : s.decidedUnder p = .overtime) :
    (s.recommitted p).pace.held = s.rebased := by
  have early : ¬s.endedUnder p := by simp [State.endedUnder, overtime]
  rw [recommitted_early early, replanned_pace, if_pos overtime]

theorem decidedUnder_open (p : Plan) (s : State) : (s.decidedUnder p).isOpen = true := redecided_open _

theorem recommitted_open (p : Plan) (s : State) : (s.recommitted p).timer.state ≠ .closing := by
  rw [recommitted_timer]
  dsimp only
  split
  · decide
  · exact (isOpen_ne (decidedUnder_open p s)).2

/-- The blocks that the event leaves. -/
theorem commitNow_blocks (p : Plan) (s : State) : SameBlocks (s.commitTested p) (commitNow p s) := by
  have requested : SameBlocks (s.commitTested p) (raiseLostCars s (s.commitTested p)) := by constructor <;> simp
  rw [commitNow_tested]
  exact requested.trans (handOn_sameBlocks _ _)

/-- The reason for a close by a COMMIT NOW, as R67 orders the tests. -/
theorem commitReason_eq {p : Plan} {s : State} {r : CloseReason} (h : commitReason (s.replanned p) = some r)
    [Decidable (s.endedUnder p)] :
    r = if s.endedUnder p ∧ s.rebased / 1000 ≤ s.pace.actual then .targetMet
      else if s.endedUnder p ∧ p.overtime = 0 then .lengthEnd
      else if p.length + p.overtime ≤ s.timer.clock then .overtimeLimit
      else .targetMet := by
  by_cases ended : s.endedUnder p
  · rw [commitReason_ended ended] at h
    by_cases met : s.rebased / 1000 ≤ s.pace.actual
    · simp_all
    · by_cases short : p.overtime = 0 <;> simp_all
  · by_cases overtime : s.decidedUnder p = .overtime
    · rw [commitReason_overtime overtime] at h
      by_cases limit : p.length + p.overtime ≤ s.timer.clock <;> simp_all
    · rw [commitReason_other overtime ended] at h
      cases h

/-- The state decided again, written out. -/
theorem decidedUnder_eq (p : Plan) (s : State) :
    s.decidedUnder p =
      if s.timer.state = .overtime ∧ p.length ≤ s.timer.clock then .overtime
      else if p.breaks.any (fun b => decide (b.start ≤ s.timer.clock ∧ s.timer.clock < b.start + b.length)) then .inBreak
      else .production := by
  simp only [Bool.decide_and]
  rfl

/-- Settles O31: the commit is `commitNow_tested`, its end tests `commitReason` and `recommitted`, and its event
`commitPlan_shiftEvent`. -/
theorem commitPlanNowRebasesAndDecidesAgain : Obligations.CommitPlanNowRebasesAndDecidesAgain := by
  intro p s running quiet h open_ staged c late decided base ended
  obtain ⟨t, next, ev⟩ := commitPlan_shiftEvent running quiet h open_ staged
  have blocks : SameBlocks (s.commitTested p) t := (commitNow_blocks p s).trans (ev.blocks.of_ports rfl)
  have under : s.decidedUnder p = decided := decidedUnder_eq p s
  have isEnded : s.endedUnder p = ended := by rw [State.endedUnder, under]
  have timer : t.timer = { s.timer with active := some p, staged := none, state := t.timer.state } := by
    rw [blocks.timer]
    exact commitTested_timer p s
  have pace : t.pace = (s.recommitted p).pace := blocks.pace.trans (commitTested_pace p s)
  obtain ⟨rebased, mark, actual⟩ := recommitted_basis p s
  have figures : t.pace.figures = (s.replanned p).pace.figures := by rw [pace, recommitted_pace]
  have state := (congrArg ShiftTimer.state blocks.timer).trans (commitTested_state p s)
  obtain ⟨closed, kept⟩ := archive_of_closedBy (s := s) blocks (recommitted_open p s) (by simp)
  have lineKept : (commitNow p s).line = s.line := by simp
  have plant : t.plant = s.plant.answered .ok := ev.plant.trans (commitNow_answered p s .ok)
  have line : t.line = s.line := ev.line.trans lineKept
  refine ⟨t, next, timer, ?base, ?mark, ?actual, ?other, ?follow, ?endedState, ?endedHeld, ?overtime, ?closing, kept,
    ev.tracker, ev.requested_changes, plant, ?frame, ev.echoes⟩
  case base => exact (congrArg PaceUnit.base pace).trans rebased
  case mark => exact (congrArg PaceUnit.rebaseMark pace).trans mark
  case actual => exact (congrArg PaceUnit.actual pace).trans actual
  case other =>
    intro notOvertime early
    rw [← under] at notOvertime ⊢
    rw [← isEnded] at early
    rw [commitReason_other notOvertime early, recommitted_early early, replanned_timer] at state
    rw [recommitted_early early] at pace
    have whole : t.timer = (s.replanned p).timer := by rw [timer, state, replanned_timer]; rfl
    refine ⟨state, (replanned_current p s).congr whole pace, ?_⟩
    rw [pace, replanned_pace, if_neg notOvertime]
  case follow =>
    intro whenLate
    rw [← under, ← isEnded] at whenLate
    rw [follow_iff, figures, replanned_figures_late whenLate]
    rfl
  case endedState =>
    intro whenEnded
    rw [← isEnded] at whenEnded
    rw [blocks.timer, commitTested_state_ended whenEnded]
    rfl
  case endedHeld =>
    intro whenEnded
    rw [← isEnded] at whenEnded
    rw [pace, recommitted_held_ended whenEnded]
    rfl
  case overtime =>
    intro whenOvertime
    rw [← under] at whenOvertime
    refine ⟨?_, ?_⟩
    · rw [pace, recommitted_held_overtime whenOvertime]
      rfl
    · rw [blocks.timer, commitTested_state_overtime whenOvertime]
      rfl
  case closing =>
    intro closing
    obtain ⟨r, reason, newest, slots⟩ := closed closing
    classical
    rw [commitReason_eq reason] at slots
    have from_base : s.rebased = base := rfl
    simp only [isEnded, from_base] at slots
    refine ⟨newest, ?_⟩
    convert slots
  case frame =>
    apply State.ext <;> simp [blocks.conditions, blocks.straps, blocks.pitch, blocks.layout, blocks.stations, line,
      blocks.callList, blocks.loss, blocks.history, blocks.frame, blocks.pending, State.commitTested]

end Sys2Proof.Machine
end

section
/-! The advance of the shift clock (R75, R76). -/

namespace Sys2Proof.Machine

/-! ### Its steps (R76) -/

/-- The advance enters a break. -/
abbrev State.entersBreak (s : State) : Prop :=
  s.timer.state = .production ∧ s.timer.plan.startsBreak (s.timer.clock + 1) = true

theorem stateAt_enters {s : State} (h : s.entersBreak) : s.timer.stateAt (s.timer.clock + 1) = .inBreak := if_pos h

/-- Outside a break, an advance that enters none keeps the shift state. -/
theorem stateAt_productive {s : State} (productive : s.timer.state.isProductive = true) (h : ¬s.entersBreak) :
    s.timer.stateAt (s.timer.clock + 1) = s.timer.state := by
  have outside : s.timer.state ≠ .inBreak := by
    rintro inside
    simp [inside, ShiftState.isProductive] at productive
  rw [ShiftTimer.stateAt, if_neg h, if_neg fun both => outside both.1]

/-- The charge of a productive second. -/
def State.charged (s : State) : State := chargeSecond (s.onTimer fun t => { t with wc := t.wc + 1 })

theorem productiveSecond_eq (s : State) : productiveSecond s = raiseLostCars s (recompute s.charged) := rfl

theorem productiveSecond_timer (s : State) : (productiveSecond s).timer = { s.timer with wc := s.timer.wc + 1 } := by
  simp [productiveSecond]

theorem productiveSecond_pace (s : State) :
    (productiveSecond s).pace = { s.pace with figures := (productiveSecond s).pace.figures } := by
  simp [productiveSecond, recompute_pace]

theorem productiveSecond_current (s : State) : (productiveSecond s).FiguresCurrent :=
  (recompute_figuresCurrent (chargeSecond (s.onTimer fun t => { t with wc := t.wc + 1 }))).congr
    (by simp [productiveSecond]) (by simp [productiveSecond])

theorem advanceClock_latches (s : State) :
    Latches (fun r => (s.timer.clock + 1) / 60 ≠ s.timer.clock / 60 ∧ r = .clock) s.engine (advanceClock s).engine :=
  (raiseIf_latches (role := .clock) rfl (decide ((s.timer.clock + 1) / 60 ≠ s.timer.clock / 60))
    (s.onTimer fun t => { t with clock := s.timer.clock + 1, state := t.stateAt (s.timer.clock + 1) })).congr
    fun r => by rw [decide_eq_true_iff]

/-- A productive second requests PACE where a shown figure or the line's lost cars change (R88, R161). -/
theorem productiveSecond_latches (s : State) :
    Latches (fun r => (ShownFiguresChange s (productiveSecond s) ∨
      (productiveSecond s).lineLostCars ≠ s.lineLostCars) ∧ r = .pace) s.engine (productiveSecond s).engine := by
  have cars : (raiseLostCars s (recompute s.charged)).lineLostCars = (recompute s.charged).lineLostCars :=
    lineLostCars_congr (by simp) (by simp)
  have figures : ShownFiguresChange s (raiseLostCars s (recompute s.charged)) ↔
      ShownFiguresChange s.charged (recompute s.charged) := by
    simp [ShownFiguresChange, State.charged]
  have latches := (recompute_latches s.charged).trans (raiseLostCars_latches s (recompute s.charged))
  have engine : s.charged.engine = s.engine := by simp [State.charged]
  rw [engine] at latches
  rw [productiveSecond_eq, figures, cars]
  exact latches.congr fun r => or_and_right.symm

/-- What an advance that enters no break hands on, before its end test. -/
def State.ticked (s : State) : State :=
  if s.timer.state.isProductive then productiveSecond (advanceClock s) else advanceClock s

/-- An advance into a break charges with the sets of the break, and comes to no end test. -/
theorem advance_enters {s : State} (h : s.entersBreak) :
    advance s = productiveSecond (handOn s (advanceClock s)) := by
  have productive : s.timer.state.isProductive = true := by rw [h.1]; rfl
  have state : (productiveSecond (handOn s (advanceClock s))).timer.state = .inBreak := by
    simp [productiveSecond_timer, advanceClock_timer, stateAt_enters h]
  have untested : advanceEndTest (productiveSecond (handOn s (advanceClock s))) =
      productiveSecond (handOn s (advanceClock s)) := by
    simp [advanceEndTest, state]
  unfold advance
  rw [if_pos productive]
  dsimp only
  rw [untested]
  exact handOn_same rfl

/-- Any other is one change of the state it began in (R68). -/
theorem advance_stays {s : State} (h : ¬s.entersBreak) : advance s = handOn s (advanceEndTest s.ticked) := by
  unfold advance State.ticked
  by_cases productive : s.timer.state.isProductive = true
  · have state := stateAt_productive productive h
    have clocked : handOn s (advanceClock s) = advanceClock s := handOn_same (by rw [advanceClock_timer]; exact state)
    have same : (productiveSecond (advanceClock s)).timer.state = s.timer.state := by
      rw [productiveSecond_timer, advanceClock_timer]
      exact state
    rw [if_pos productive, if_pos productive, clocked]
    exact handOn_old_congr same (fun k => qualifies_congr k (by simp) (by simp) same) _
  · rw [if_neg productive, if_neg productive]

/-! ### Before the end test -/

@[simp] theorem ticked_keeps (s : State) :
    s.ticked.conditions = s.conditions ∧ s.ticked.straps = s.straps ∧ s.ticked.pitch = s.pitch ∧
      s.ticked.layout = s.layout ∧ s.ticked.tracker = s.tracker ∧ s.ticked.callList = s.callList ∧
      s.ticked.archive = s.archive ∧ s.ticked.history = s.history ∧ s.ticked.line = s.line ∧
      s.ticked.plant = s.plant ∧ s.ticked.frame = s.frame ∧ s.ticked.tiles = s.tiles ∧ s.ticked.alert = s.alert ∧
      s.ticked.pending = s.pending := by
  unfold State.ticked
  split <;> simp

/-- The Shift Timer after step 1 of an advance and, in a productive one, after its Wc second. -/
def ShiftTimer.ticked (t : ShiftTimer) : ShiftTimer :=
  { t with
    clock := t.clock + 1
    wc := if t.state.isProductive then t.wc + 1 else t.wc
    state := t.stateAt (t.clock + 1) }

theorem ticked_timer (s : State) : s.ticked.timer = s.timer.ticked := by
  unfold State.ticked ShiftTimer.ticked
  split
  · rw [productiveSecond_timer, advanceClock_timer]
  · rw [advanceClock_timer]

theorem ticked_productive {s : State} (productive : s.timer.state.isProductive = true) :
    s.ticked = productiveSecond (advanceClock s) := if_pos productive

theorem ticked_break {s : State} (resting : s.timer.state.isProductive = false) : s.ticked = advanceClock s :=
  if_neg (by simp [resting])

theorem ticked_current {s : State} (productive : s.timer.state.isProductive = true) : s.ticked.FiguresCurrent := by
  rw [ticked_productive productive]
  exact productiveSecond_current _

theorem ticked_pace (s : State) : s.ticked.pace = { s.pace with figures := s.ticked.pace.figures } := by
  unfold State.ticked
  split
  · have clock : (advanceClock s).pace = s.pace := by simp
    rw [productiveSecond_pace, clock]
  · simp

/-- A second of BREAK computes nothing and charges nothing (R76, R97). -/
theorem ticked_rests {s : State} (resting : s.timer.state.isProductive = false) :
    s.ticked.pace = s.pace ∧ s.ticked.loss = s.loss ∧ s.ticked.stations = s.stations := by
  rw [ticked_break resting]
  simp

theorem ticked_latches (s : State) : Latches (· ∈ figureRoles s s.ticked) s.engine s.ticked.engine := by
  have clock : s.ticked.timer.clock = s.timer.clock + 1 := by rw [ticked_timer]; rfl
  have before : (advanceClock s).lineLostCars = s.lineLostCars := lineLostCars_congr (by simp [advanceClock_timer]) (by simp)
  have figures : (advanceClock s).pace.figures = s.pace.figures := by simp
  by_cases productive : s.timer.state.isProductive = true
  · have latches := (advanceClock_latches s).trans (productiveSecond_latches (advanceClock s))
    rw [before, ← ticked_productive productive] at latches
    refine latches.congr fun r => ?_
    rw [mem_figureRoles, clock, ShownFiguresChange, ShownFiguresChange, figures]
  · have rests := ticked_break (Bool.eq_false_iff.2 productive)
    have latches := advanceClock_latches s
    rw [← rests] at latches
    have cars : s.ticked.lineLostCars = s.lineLostCars := by rw [rests, before]
    refine latches.congr fun r => ?_
    rw [mem_figureRoles, clock, cars, ShownFiguresChange, rests, figures]
    simp

/-! ### The end test (R78, R79) -/

/-- An advance of PRODUCTION has come to L. -/
abbrev State.reachedEnd (s : State) : Prop := s.timer.state = .production ∧ s.timer.clock = s.timer.plan.length

/-- The reason for which an advance closes the shift (R78, R79). -/
def advanceReason (s : State) : Option CloseReason :=
  if s.reachedEnd then
    if s.targetReached then some .targetMet
    else if s.timer.plan.overtime = 0 then some .lengthEnd
    else none
  else if s.timer.state = .overtime ∧ overLimit s then some .overtimeLimit
  else none

/-- The end test closes the shift for its reason, or enters OVERTIME. -/
theorem advanceEndTest_eq (s : State) :
    advanceEndTest s =
      closedBy (advanceReason s) (if s.reachedEnd ∧ s.entersOvertime then enterOvertime s else s) := by
  unfold advanceEndTest advanceReason
  by_cases reached : s.reachedEnd
  · rw [if_pos reached, if_pos reached]
    by_cases enters : s.entersOvertime
    · rw [endOfShiftTest_enters enters, if_pos (c := s.reachedEnd ∧ s.entersOvertime) ⟨reached, enters⟩,
        if_neg (c := s.targetReached) enters.1, if_neg (c := s.timer.plan.overtime = 0) enters.2]
      rfl
    · rw [endOfShiftTest_closes enters, if_neg (c := s.reachedEnd ∧ s.entersOvertime) fun both => enters both.2]
      by_cases met : s.targetReached
      · rw [if_pos met, if_pos met]
        rfl
      · have short : s.timer.plan.overtime = 0 := not_not.1 fun allowed => enters ⟨met, allowed⟩
        rw [if_neg met, if_neg met, if_pos short]
        rfl
  · rw [if_neg reached, if_neg reached, if_neg (c := s.reachedEnd ∧ s.entersOvertime) fun both => reached both.1]
    split
    · rfl
    · rfl

/-- What an advance that enters no break leaves open, or closes. -/
def State.tested (s : State) : State :=
  if s.ticked.reachedEnd ∧ s.ticked.entersOvertime then enterOvertime s.ticked else s.ticked

theorem advance_tested {s : State} (h : ¬s.entersBreak) :
    advance s = handOn s (closedBy (advanceReason s.ticked) s.tested) := by
  rw [advance_stays h, advanceEndTest_eq, State.tested]

@[simp] theorem tested_keeps (s : State) :
    s.tested.conditions = s.conditions ∧ s.tested.straps = s.straps ∧ s.tested.pitch = s.pitch ∧
      s.tested.layout = s.layout ∧ s.tested.stations = s.ticked.stations ∧ s.tested.tracker = s.tracker ∧
      s.tested.callList = s.callList ∧ s.tested.loss = s.ticked.loss ∧ s.tested.archive = s.archive ∧
      s.tested.history = s.history ∧ s.tested.line = s.line ∧ s.tested.plant = s.plant ∧ s.tested.frame = s.frame ∧
      s.tested.tiles = s.tiles ∧ s.tested.alert = s.alert ∧ s.tested.pending = s.pending := by
  unfold State.tested
  split <;> simp

theorem tested_timer (s : State) : s.tested.timer = { s.timer.ticked with state := s.tested.timer.state } := by
  unfold State.tested
  split
  · have entered : (enterOvertime s.ticked).timer = { s.ticked.timer with state := .overtime } := by simp [enterOvertime]
    rw [entered, ticked_timer]
  · rw [ticked_timer]

/-- Entering OVERTIME requests PACE where a shown figure changes (R88). -/
theorem enterOvertime_latches (s : State) :
    Latches (fun r => ShownFiguresChange s (enterOvertime s) ∧ r = .pace) s.engine (enterOvertime s).engine :=
  recompute_latches s.overtimeEntered

theorem tested_latches (s : State) : Latches (· ∈ figureRoles s s.tested) s.engine s.tested.engine := by
  unfold State.tested
  split
  · rename_i enters
    obtain ⟨reached, -⟩ := enters
    have clock : (enterOvertime s.ticked).timer.clock = s.ticked.timer.clock := by simp [enterOvertime]
    have cars : (enterOvertime s.ticked).lineLostCars = s.ticked.lineLostCars :=
      lineLostCars_congr (by simp [enterOvertime]) (by simp)
    by_cases productive : s.timer.state.isProductive = true
    · have entered := enterOvertime_late reached.1 reached.2.symm.le (ticked_current productive)
      rw [entered]
      exact ticked_latches s
    · obtain ⟨pace, loss, -⟩ := ticked_rests (Bool.eq_false_iff.2 productive)
      have before : s.ticked.lineLostCars = s.lineLostCars := lineLostCars_congr (by rw [ticked_timer]; rfl) loss
      refine ((ticked_latches s).trans (enterOvertime_latches s.ticked)).congr fun r => ?_
      simp only [mem_figureRoles, ShownFiguresChange, clock, cars, before, pace]
      simp
  · exact ticked_latches s

/-! ### The advance taken whole (R68, R75) -/

theorem closedBy_lineLostCars (reason : Option CloseReason) (s : State) :
    (closedBy reason s).lineLostCars = s.lineLostCars :=
  lineLostCars_congr (by rw [closedBy_timer]) (by simp)

/-- A productive second of a change that has reached neither the figures nor the lost cars yet. -/
theorem ShiftChange.second {s u : State} (h : ShiftChange [] s u) (figures : u.pace.figures = s.pace.figures)
    (cars : u.lineLostCars = s.lineLostCars) : ShiftChange [] s (productiveSecond u) := by
  have state : (productiveSecond u).timer.state = u.timer.state := by rw [productiveSecond_timer]
  have clock : (productiveSecond u).timer.clock = u.timer.clock := by rw [productiveSecond_timer]
  have tracker : (productiveSecond u).tracker = u.tracker := by simp
  refine ⟨h.tracker.congr (by simp) tracker (by simp) state, ?_, by simp [h.alert], by simp [h.tiles]⟩
  refine (h.latches.trans (productiveSecond_latches u)).congr fun r => ?_
  simp only [List.append_nil, mem_changeRoles, SetsChange, StallChanges, ShownFiguresChange, state, clock, tracker, cars,
    figures]
  simp only [ne_eq, not_true_eq_false, or_self, false_and, or_false, or_assoc]

theorem advance_shiftChange (s : State) : ShiftChange [] s (advance s) := by
  by_cases enters : s.entersBreak
  · rw [advance_enters enters]
    have clock : (advanceClock s).timer.clock = s.timer.clock + 1 := by rw [advanceClock_timer]
    have cars : (advanceClock s).lineLostCars = s.lineLostCars := lineLostCars_congr (by rw [advanceClock_timer]) (by simp)
    refine ShiftChange.second (handOn_shiftChange (by simp) ?_ (by simp) (by simp)) (by simp) ?_
    · refine (advanceClock_latches s).congr fun r => ?_
      simp [mem_figureRoles, ShownFiguresChange, cars, clock]
    · exact (lineLostCars_congr (by simp) (by simp)).trans cars
  · rw [advance_tested enters]
    refine handOn_shiftChange (by simp) ?_ (by simp) (by simp)
    have engine : (closedBy (advanceReason s.ticked) s.tested).engine = s.tested.engine := by simp
    rw [engine]
    refine (tested_latches s).congr fun r => ?_
    simp only [List.append_nil, mem_figureRoles, ShownFiguresChange, closedBy_lineLostCars, closedBy_timer, closedBy_keeps]

/-- A second without correction is one advance. -/
theorem shiftSecond_advance {s : State} (open_ : s.timer.state.isOpen = true) (none : s.timer.correction = 0) :
    shiftSecond s = advance s := by
  simp [shiftSecond, open_, none]

/-- Its event. -/
theorem shiftTimerSecond_shiftEvent {s : State} (running : s.inReset = false) (quiet : s.Quiet)
    (open_ : s.timer.state.isOpen = true) (none : s.timer.correction = 0) :
    ∃ t, exec .shiftTimerSecond s = .next t ∧ ShiftEvent [] s (advance s) t := by
  refine ⟨_, ?_, (advance_shiftChange s).taken quiet⟩
  rw [← shiftSecond_advance open_ none]
  exact centreEvent_next shiftSecond s running

/-! ### What an advance leaves of the shift -/

theorem advance_enters_blocks {s : State} (h : s.entersBreak) :
    (advance s).timer = s.timer.ticked ∧ (advance s).pace = { s.pace with figures := (advance s).pace.figures } ∧
      (advance s).FiguresCurrent ∧ (advance s).archive = s.archive ∧ (advance s).plant = s.plant := by
  have productive : s.timer.state.isProductive = true := by rw [h.1]; rfl
  rw [advance_enters h]
  refine ⟨?_, ?_, productiveSecond_current _, by simp, by simp⟩
  · rw [productiveSecond_timer, (handOn_sameBlocks s (advanceClock s)).timer, advanceClock_timer, ShiftTimer.ticked,
      if_pos productive]
  · have pace : (handOn s (advanceClock s)).pace = s.pace := by simp
    rw [productiveSecond_pace, pace]

theorem advance_timer (s : State) : (advance s).timer = { s.timer.ticked with state := (advance s).timer.state } := by
  by_cases enters : s.entersBreak
  · rw [(advance_enters_blocks enters).1]
  · rw [advance_tested enters, (handOn_sameBlocks s _).timer, closedBy_timer, tested_timer]

end Sys2Proof.Machine
end

section
/-! A Shift Timer second without correction (R75, R76, R78, R79). -/

namespace Sys2Proof.Machine

/-- The shift state after step 1 of an advance, written out (R76). -/
theorem stateAt_eq (t : ShiftTimer) (c : Nat) :
    t.stateAt c =
      if t.state = .production ∧ t.plan.breaks.any (fun b => decide (b.start = c)) = true then .inBreak
      else if t.state = .inBreak ∧ t.plan.breaks.any (fun b => decide (b.start + b.length = c)) = true ∧
          t.plan.breaks.any (fun b => decide (b.start = c)) = false then .production
      else t.state := by
  simp only [ShiftTimer.stateAt, Bool.not_eq_true]
  rfl

/-- The shift clock, Wc and the shift state of an advance that comes to no end test. -/
theorem timer_ticked_eq {s : State} {productive : Prop} [Decidable productive]
    (h : s.timer.state.isProductive = true ↔ productive) :
    s.timer.ticked =
      { s.timer with
        clock := s.timer.clock + 1
        wc := if productive then s.timer.wc + 1 else s.timer.wc
        state := s.timer.stateAt (s.timer.clock + 1) } := by
  by_cases running : productive
  · rw [ShiftTimer.ticked, if_pos (h.2 running), if_pos running]
  · rw [ShiftTimer.ticked, if_neg (mt h.1 running), if_neg running]

/-- The advance comes to no end test. -/
structure State.Untested (s : State) : Prop where
  unended : ¬(s.timer.stateAt (s.timer.clock + 1) = .production ∧ s.timer.clock + 1 = s.timer.plan.length)
  unlimited : ¬(s.timer.stateAt (s.timer.clock + 1) = .overtime ∧
    s.timer.plan.length + s.timer.plan.overtime ≤ s.timer.clock + 1)

theorem advance_untested {s : State} (enters : ¬s.entersBreak) (h : s.Untested) : advance s = handOn s s.ticked := by
  have unended : ¬s.ticked.reachedEnd := by rw [State.reachedEnd, ticked_timer]; exact h.unended
  have unlimited : ¬(s.ticked.timer.state = .overtime ∧ overLimit s.ticked = true) := by
    rw [overLimit, ticked_timer, decide_eq_true_iff]
    exact h.unlimited
  have reason : advanceReason s.ticked = none := by rw [advanceReason, if_neg unended, if_neg unlimited]
  have tested : s.tested = s.ticked := if_neg fun both => unended both.1
  rw [advance_tested enters, reason, tested]
  rfl

/-- What such an advance leaves. -/
theorem advance_untested_blocks {s : State} (h : s.Untested) :
    (advance s).timer = s.timer.ticked ∧
      (s.timer.state.isProductive = true →
        (advance s).pace = { s.pace with figures := (advance s).pace.figures } ∧ (advance s).FiguresCurrent) ∧
      (s.timer.state.isProductive = false →
        (advance s).pace = s.pace ∧ (advance s).loss = s.loss ∧ (advance s).stations = s.stations) ∧
      (advance s).archive = s.archive ∧ (advance s).plant = s.plant := by
  by_cases enters : s.entersBreak
  · obtain ⟨timer, pace, current, archive, plant⟩ := advance_enters_blocks enters
    have productive : s.timer.state.isProductive = true := by rw [enters.1]; rfl
    exact ⟨timer, fun _ => ⟨pace, current⟩, fun resting => by simp [productive] at resting, archive, plant⟩
  · have blocks := handOn_sameBlocks s s.ticked
    rw [advance_untested enters h, blocks.timer, blocks.pace, blocks.loss, blocks.stations, blocks.archive]
    exact ⟨ticked_timer s,
      fun productive => ⟨ticked_pace s, (ticked_current productive).congr blocks.timer blocks.pace⟩, ticked_rests,
      by simp, by simp⟩

/-- Settles O21: the event is `shiftTimerSecond_shiftEvent`, and what it leaves `advance_untested_blocks`. -/
theorem shiftSecondAdvancesClockBreaksAndFigures : Obligations.ShiftSecondAdvancesClockBreaksAndFigures := by
  intro s running quiet open_ uncorrected p c state productive unended unlimited
  have decided : s.timer.stateAt c = state := stateAt_eq s.timer c
  have isProductive : s.timer.state.isProductive = true ↔ productive := isProductive_iff _
  rw [← decided] at unended unlimited ⊢
  obtain ⟨timer, inProduction, resting, archive, plant⟩ := advance_untested_blocks ⟨unended, unlimited⟩
  obtain ⟨t, next, ev⟩ := shiftTimerSecond_shiftEvent running quiet open_ uncorrected
  have ticked : t.timer = s.timer.ticked := ev.blocks.timer.trans timer
  have tracker := ev.tracker
  rw [TrackerFollows, ticked] at tracker
  refine ⟨t, next, ticked.trans (timer_ticked_eq isProductive), ?pace, tracker, ev.requested_changes,
    ev.blocks.archive.trans archive, ev.plant.trans plant, ?rest⟩
  case pace =>
    split
    · rename_i inShift
      obtain ⟨pace, current⟩ := inProduction (isProductive.2 inShift)
      refine ⟨?_, current.congr ev.blocks.timer ev.blocks.pace⟩
      rw [ev.blocks.pace]
      exact pace
    · rename_i inBreak
      exact ev.blocks.pace.trans (resting (Bool.eq_false_iff.2 (mt isProductive.1 inBreak))).1
  case rest =>
    have loss (inBreak : ¬productive) : t.loss = s.loss ∧ t.stations = s.stations := by
      obtain ⟨-, loss, stations⟩ := resting (Bool.eq_false_iff.2 (mt isProductive.1 inBreak))
      exact ⟨ev.blocks.loss.trans loss, ev.blocks.stations.trans stations⟩
    exact ⟨ev.blocks.conditions.trans (by simp), ev.blocks.straps.trans (by simp), ev.blocks.pitch.trans (by simp),
      ev.blocks.layout.trans (by simp), ev.blocks.callList.trans (by simp), ev.blocks.history.trans (by simp),
      ev.line.trans (by simp), ev.blocks.frame.trans (by simp), ev.blocks.pending.trans (by simp), loss, ev.causes,
      ev.echoes⟩

end Sys2Proof.Machine
end

section
/-! A Shift Timer second that comes to an end test (R76, R78, R79, R80, R87). -/

namespace Sys2Proof.Machine

/-! ### The figures at the end test -/

theorem ticked_timerForm {s : State} (form : s.TimerForm) : s.ticked.TimerForm := by
  unfold State.ticked
  split
  · exact productiveSecond_timerForm (advanceClock_timerForm form)
  · exact advanceClock_timerForm form

theorem enterOvertime_pace (s : State) :
    (enterOvertime s).pace =
      { s.pace with
        held := s.pace.figures.gm
        figures := figuresOf 0 s.pace.figures.gm s.pace.figures.gm s.pace.actual } := by
  have entered : enterOvertime s = recompute s.overtimeEntered := rfl
  rw [entered, recompute_pace, computeFigures_overtime rfl]
  rfl

theorem enterOvertime_current (s : State) : (enterOvertime s).FiguresCurrent := recompute_figuresCurrent s.overtimeEntered

theorem enterOvertime_timer (s : State) : (enterOvertime s).timer = { s.timer with state := .overtime } := by
  simp [enterOvertime]

theorem tested_entered {s : State} (reached : s.ticked.reachedEnd) (enters : s.ticked.entersOvertime) :
    s.tested = enterOvertime s.ticked := if_pos ⟨reached, enters⟩

/-- Entering OVERTIME leaves G as it was (R86, R87). -/
theorem tested_target {s : State} (form : s.TimerForm) : s.tested.pace.figures.g = s.ticked.pace.figures.g := by
  have target := ((timerForm_iff _).1 (ticked_timerForm form)).2.target
  unfold State.tested
  split
  · rw [enterOvertime_pace, target]
    rfl
  · rfl

/-- A close leaves the state before the test, with what it computed. -/
theorem tested_closed {s : State} {r : CloseReason} (reason : advanceReason s.ticked = some r) : s.tested = s.ticked := by
  refine if_neg fun ⟨reached, unmet, allowed⟩ => ?_
  rw [advanceReason, if_pos reached, if_neg unmet, if_neg allowed] at reason
  cases reason

theorem ticked_actual (s : State) : s.ticked.pace.actual = s.pace.actual := by rw [ticked_pace]

/-- At L the figures of a productive second are those up to now (R85, R86). -/
theorem ticked_figures_end {s : State} (production : s.timer.state = .production) (reached : s.ticked.reachedEnd) :
    s.ticked.pace.figures =
      (let m := s.pace.base + (s.timer.wc + 1 - s.pace.rebaseMark) * 10000 / s.timer.plan.takt
       figuresOf 0 m m s.pace.actual) := by
  have productive : s.timer.state.isProductive = true := by rw [production]; rfl
  have wc : s.ticked.timer.wc = s.timer.wc + 1 := by rw [ticked_timer, ShiftTimer.ticked, if_pos productive]
  have plan : s.ticked.timer.plan = s.timer.plan := by rw [ticked_timer]; rfl
  have base : s.ticked.pace.base = s.pace.base := by rw [ticked_pace]
  have mark : s.ticked.pace.rebaseMark = s.pace.rebaseMark := by rw [ticked_pace]
  rw [(figuresCurrent_iff _).1 (ticked_current productive), computeFigures_late (by simp [reached.1]) reached.2.symm.le, wc,
    plan, base, mark, ticked_actual]

theorem ticked_figures_overtime {s : State} (overtime : s.timer.state = .overtime) :
    s.ticked.pace.figures = figuresOf 0 s.pace.held s.pace.held s.pace.actual := by
  have productive : s.timer.state.isProductive = true := by rw [overtime]; rfl
  have held : s.ticked.pace.held = s.pace.held := by rw [ticked_pace]
  have state : s.ticked.timer.state = .overtime := by
    rw [ticked_timer]
    exact (stateAt_productive productive (by simp [overtime])).trans overtime
  rw [(figuresCurrent_iff _).1 (ticked_current productive), computeFigures_overtime state, held, ticked_actual]

/-! ### The reasons -/

theorem advanceReason_met {s : State} (reached : s.reachedEnd) (met : s.targetReached) :
    advanceReason s = some .targetMet := by
  rw [advanceReason, if_pos reached, if_pos met]

theorem advanceReason_short {s : State} (reached : s.reachedEnd) (unmet : ¬s.targetReached)
    (short : s.timer.plan.overtime = 0) : advanceReason s = some .lengthEnd := by
  rw [advanceReason, if_pos reached, if_neg unmet, if_pos short]

theorem advanceReason_enters {s : State} (reached : s.reachedEnd) (enters : s.entersOvertime) :
    advanceReason s = none := by
  rw [advanceReason, if_pos reached, if_neg enters.1, if_neg enters.2]

theorem advanceReason_limit {s : State} (overtime : s.timer.state = .overtime) (limit : overLimit s = true) :
    advanceReason s = some .overtimeLimit := by
  have running : ¬s.reachedEnd := by simp [State.reachedEnd, overtime]
  rw [advanceReason, if_neg running, if_pos ⟨overtime, limit⟩]

/-- An advance in PRODUCTION closes at L alone. -/
theorem reachedEnd_of_reason {s : State} {r : CloseReason} (reason : advanceReason s = some r)
    (state : s.timer.state ≠ .overtime) : s.reachedEnd := by
  by_contra early
  rw [advanceReason, if_neg early, if_neg fun both => state both.1] at reason
  cases reason

/-! ### The close -/

/-- The advance that closes, and its event. -/
theorem advance_closes {s t : State} {r : CloseReason} (ev : ShiftEvent [] s (advance s) t) (enters : ¬s.entersBreak)
    (reason : advanceReason s.ticked = some r) :
    CloseBegun r s t ∧ t.plant.lastResult = s.plant.lastResult ∧ t.plant.link = s.plant.link ∧
      ∀ i, i ≠ s.archive.following → t.archive.slots.at_ i = s.archive.slots.at_ i := by
  have closed : advance s = handOn s (startClose r s.ticked) := by
    rw [advance_tested enters, reason, tested_closed reason]
    rfl
  rw [closed] at ev
  exact closeBegun_of_blocks ((handOn_sameBlocks _ _).trans ev.blocks) (ev.plant.trans (by simp)) (by simp) (by simp)

/-- What a closing advance leaves of the figures (R85 to R88). -/
structure ClosedFigures (s t : State) : Prop where
  kept : t.pace = { s.pace with figures := t.pace.figures }
  rested : s.timer.state = .inBreak → t.pace = s.pace
  produced : s.timer.state = .production →
    let m := s.pace.base + (s.timer.wc + 1 - s.pace.rebaseMark) * 10000 / s.timer.plan.takt
    t.pace.figures.Follow 0 m m s.pace.actual
  overran : s.timer.state = .overtime → t.pace.figures.Follow 0 s.pace.held s.pace.held s.pace.actual

theorem closedFigures_of_reason {s t : State} {r : CloseReason} (pace : t.pace = s.ticked.pace)
    (enters : ¬s.entersBreak) (reason : advanceReason s.ticked = some r) : ClosedFigures s t := by
  refine ⟨?_, fun inBreak => ?_, fun production => ?_, fun overtime => ?_⟩
  · rw [pace]
    exact ticked_pace s
  · exact pace.trans (ticked_rests (by rw [inBreak]; rfl)).1
  · have productive : s.timer.state.isProductive = true := by rw [production]; rfl
    have state : s.ticked.timer.state = .production := by
      rw [ticked_timer]
      exact (stateAt_productive productive enters).trans production
    intro m
    rw [follow_iff, pace]
    exact ticked_figures_end production (reachedEnd_of_reason reason (by simp [state]))
  · rw [follow_iff, pace]
    exact ticked_figures_overtime overtime

theorem stateAt_ne_closing {t : ShiftTimer} (open_ : t.state.isOpen = true) (c : Nat) : t.stateAt c ≠ .closing := by
  obtain same | ⟨-, inBreak⟩ | ⟨-, production⟩ := stateAt_cases t c
  · rw [same]
    exact (isOpen_ne open_).2
  · simp [inBreak]
  · simp [production]

theorem tested_open {s : State} (open_ : s.timer.state.isOpen = true) : s.tested.timer.state ≠ .closing := by
  unfold State.tested
  split
  · simp [enterOvertime_timer]
  · rw [ticked_timer]
    exact stateAt_ne_closing open_ _

/-- An advance that ends in CLOSING has come to an end test that closes. -/
theorem advance_closing {s : State} (open_ : s.timer.state.isOpen = true)
    (closing : (advance s).timer.state = .closing) :
    ¬s.entersBreak ∧ ∃ r, advanceReason s.ticked = some r := by
  have enters : ¬s.entersBreak := by
    intro enters
    rw [(advance_enters_blocks enters).1] at closing
    exact stateAt_ne_closing open_ _ closing
  refine ⟨enters, ?_⟩
  cases reason : advanceReason s.ticked with
  | some r => exact ⟨r, rfl⟩
  | none =>
    rw [advance_tested enters, reason, (handOn_sameBlocks s _).timer] at closing
    exact absurd closing (tested_open open_)

/-- PRODUCTION at L after step 1, a break that ends there left in the same advance (R76). -/
theorem reachedEnd_of_breaks {s : State} (length : s.timer.clock + 1 = s.timer.plan.length)
    (start : s.timer.plan.breaks.any (fun b => decide (b.start = s.timer.clock + 1)) = false)
    (running : s.timer.state = .production ∨ s.timer.state = .inBreak ∧
      s.timer.plan.breaks.any (fun b => decide (b.start + b.length = s.timer.clock + 1)) = true) :
    ¬s.entersBreak ∧ s.ticked.reachedEnd := by
  have starts : s.timer.plan.startsBreak (s.timer.clock + 1) = false := start
  refine ⟨fun enters => absurd enters.2 (by simp [starts]), ?_⟩
  rw [State.reachedEnd, ticked_timer]
  refine ⟨?_, length⟩
  have state : s.timer.ticked.state = s.timer.stateAt (s.timer.clock + 1) := rfl
  rw [state, stateAt_eq, start]
  obtain production | ⟨inBreak, ends⟩ := running
  · simp [production]
  · simp [inBreak, ends]

theorem ticked_plan (s : State) : s.ticked.timer.plan = s.timer.plan := by
  rw [ticked_timer]
  rfl

/-- The advance that enters OVERTIME, and its event (R78, R87). -/
theorem advance_entersOvertime {s t : State} (ev : ShiftEvent [] s (advance s) t) (enters : ¬s.entersBreak)
    (reached : s.ticked.reachedEnd) (overtime : s.ticked.entersOvertime) :
    t.timer.state = .overtime ∧ t.archive = s.archive ∧ t.plant = s.plant ∧
      t.pace = { s.pace with held := t.pace.held, figures := t.pace.figures } ∧ t.FiguresCurrent ∧
      t.pace.held = s.ticked.pace.figures.gm := by
  have entered : advance s = handOn s (enterOvertime s.ticked) := by
    rw [advance_tested enters, advanceReason_enters reached overtime, tested_entered reached overtime]
    rfl
  rw [entered] at ev
  have blocks : SameBlocks (enterOvertime s.ticked) t := (handOn_sameBlocks _ _).trans ev.blocks
  refine ⟨?_, blocks.archive.trans (by simp), ev.plant.trans (by simp), ?_,
    (enterOvertime_current s.ticked).congr blocks.timer blocks.pace, ?_⟩
  · rw [blocks.timer, enterOvertime_timer]
  · rw [blocks.pace, enterOvertime_pace, ticked_pace]
  · rw [blocks.pace, enterOvertime_pace]

/-- In an open shift the seconds that are not productive are those of BREAK. -/
theorem isProductive_iff_ne_inBreak {x : ShiftState} (open_ : x.isOpen = true) : x.isProductive = true ↔ x ≠ .inBreak := by
  cases x
  case production => simp [ShiftState.isProductive]
  case inBreak => simp [ShiftState.isProductive]
  case overtime => simp [ShiftState.isProductive]
  case noShift => simp [ShiftState.isOpen] at open_
  case closing => simp [ShiftState.isOpen] at open_

/-- Settles O24: the event is `shiftTimerSecond_shiftEvent`; where the advance comes to an end test, `advance_tested`
gives the close (`advance_closes`, `closedFigures_of_reason`) or the entry into OVERTIME. -/
theorem endTestsCloseShiftOrEnterOvertime : Obligations.EndTestsCloseShiftOrEnterOvertime := by
  intro s running quiet form open_ uncorrected p c atEnd atLimit
  obtain ⟨t, next, ev⟩ := shiftTimerSecond_shiftEvent running quiet open_ uncorrected
  have productive := isProductive_iff_ne_inBreak open_
  have timer : t.timer =
      { s.timer with
        clock := c
        wc := if s.timer.state = .inBreak then s.timer.wc else s.timer.wc + 1
        state := t.timer.state } := by
    have ticked := ev.blocks.timer.trans (advance_timer s)
    rw [← ev.blocks.timer, timer_ticked_eq productive] at ticked
    rw [← ite_not]
    exact ticked
  have pace (enters : ¬s.entersBreak) : t.pace = s.tested.pace :=
    ev.blocks.pace.trans (by rw [advance_tested enters]; simp)
  have target (enters : ¬s.entersBreak) : t.pace.figures.g = s.ticked.pace.figures.g := by
    rw [pace enters, tested_target form]
  have reached (h : atEnd) := reachedEnd_of_breaks (s := s) h.1 h.2.1 h.2.2
  refine ⟨t, next, timer, fun h met => ?met, fun h unmet short => ?short, fun h unmet allowed => ?enters, fun h => ?limit,
    fun closing => ?figures, fun inBreak => ?rested, ev.requested_changes, fun closing => ?ports, ev.tracker, ?rest⟩
  case met =>
    obtain ⟨enters, reached⟩ := reached h
    rw [target enters, ← ticked_actual] at met
    exact (advance_closes ev enters (advanceReason_met reached met)).1
  case short =>
    obtain ⟨enters, reached⟩ := reached h
    rw [target enters, ← ticked_actual] at unmet
    exact (advance_closes ev enters (advanceReason_short reached (Nat.not_le.2 unmet) ((ticked_plan s).symm ▸ short))).1
  case enters =>
    obtain ⟨enters, reached⟩ := reached h
    rw [target enters, ← ticked_actual] at unmet
    obtain ⟨state, archive, plant, kept, current, held⟩ := advance_entersOvertime ev enters reached
      ⟨Nat.not_le.2 unmet, by rw [ticked_plan]; exact allowed.ne'⟩
    refine ⟨state, archive, plant, kept, current, held.trans ?_⟩
    split
    · rename_i inBreak
      rw [(ticked_rests (by rw [inBreak]; rfl)).1]
    · rename_i running
      have production : s.timer.state = .production := h.2.2.resolve_right fun both => running both.1
      have wc : t.timer.wc = s.timer.wc + 1 := (congrArg ShiftTimer.wc timer).trans (if_neg running)
      rw [ticked_figures_end production reached, wc]
      rfl
  case limit =>
    obtain ⟨overtime, limit⟩ := h
    have enters : ¬s.entersBreak := by simp [overtime]
    have productive : s.timer.state.isProductive = true := by rw [overtime]; rfl
    refine (advance_closes ev enters (advanceReason_limit ?_ ?_)).1
    · rw [ticked_timer]
      exact (stateAt_productive productive enters).trans overtime
    · rw [overLimit, ticked_timer, decide_eq_true_iff]
      exact limit
  case figures =>
    obtain ⟨enters, r, reason⟩ := advance_closing open_ (ev.blocks.timer ▸ closing)
    have figures := closedFigures_of_reason ((pace enters).trans (by rw [tested_closed reason])) enters reason
    refine ⟨figures.kept, figures.rested, fun production => ?_, figures.overran⟩
    have wc : t.timer.wc = s.timer.wc + 1 := (congrArg ShiftTimer.wc timer).trans (if_neg (by simp [production]))
    rw [wc]
    exact figures.produced production
  case rested =>
    have enters : ¬s.entersBreak := by simp [inBreak]
    obtain ⟨-, loss, stations⟩ := ticked_rests (s := s) (by rw [inBreak]; rfl)
    refine ⟨ev.blocks.loss.trans ?_, ev.blocks.stations.trans ?_⟩
    · rw [advance_tested enters]
      simpa using loss
    · rw [advance_tested enters]
      simpa using stations
  case ports =>
    obtain ⟨enters, r, reason⟩ := advance_closing open_ (ev.blocks.timer ▸ closing)
    exact (advance_closes ev enters reason).2
  case rest =>
    exact ⟨ev.blocks.conditions.trans (by simp), ev.blocks.straps.trans (by simp), ev.blocks.pitch.trans (by simp),
      ev.blocks.pending.trans (by simp), ev.blocks.layout.trans (by simp), ev.blocks.callList.trans (by simp),
      ev.blocks.history.trans (by simp), ev.line.trans (by simp), ev.blocks.frame.trans (by simp), ev.echoes⟩

end Sys2Proof.Machine
end

section
/-! The time correction's paces of the Shift Timer's second (R75). -/

namespace Sys2Proof.Machine

/-! ### What an advance does not look at -/

/-- The state with another engine, Alert Logic, Tile Driver and time correction. -/
def State.apart (e : Engine) (a : AlertLogic) (l : TileDriver) (k : Int) (s : State) : State :=
  { s with engine := e, alert := a, tiles := l, timer := { s.timer with correction := k } }

/-- Two states differ in these at most. -/
def Apart (s t : State) : Prop := ∃ e a l k, t = s.apart e a l k

theorem Apart.refl (s : State) : Apart s s := ⟨s.engine, s.alert, s.tiles, s.timer.correction, rfl⟩

theorem Apart.symm {s t : State} (h : Apart s t) : Apart t s := by
  obtain ⟨e, a, l, k, rfl⟩ := h
  exact ⟨s.engine, s.alert, s.tiles, s.timer.correction, rfl⟩

theorem Apart.trans {s t u : State} (h : Apart s t) (g : Apart t u) : Apart s u := by
  obtain ⟨e, a, l, k, rfl⟩ := h
  obtain ⟨e', a', l', k', rfl⟩ := g
  exact ⟨e', a', l', k', rfl⟩

theorem Apart.timer {s t : State} (h : Apart s t) :
    t.timer = { s.timer with correction := t.timer.correction } := by
  obtain ⟨e, a, l, k, rfl⟩ := h
  rfl

theorem Apart.rest {s t : State} (h : Apart s t) :
    { t with timer := s.timer, engine := s.engine, alert := s.alert, tiles := s.tiles } = s := by
  obtain ⟨e, a, l, k, rfl⟩ := h
  rfl

/-- Two states, each apart from one of two that are apart. -/
theorem Apart.square {s t s' t' : State} (h : Apart s t) (left : Apart s s') (right : Apart t t') : Apart s' t' :=
  left.symm.trans (h.trans right)

theorem apart_raise (r : Role) (s : State) : Apart s (s.raise r) := ⟨_, _, _, _, rfl⟩

theorem apart_raiseIf (b : Bool) (r : Role) (s : State) : Apart s (s.raiseIf b r) := by
  cases b with
  | false => exact .refl s
  | true => exact apart_raise r s

theorem apart_setCorrection (k : Int) (s : State) : Apart s (setCorrection k s) := ⟨_, _, _, _, rfl⟩

theorem apart_decideAlert (old s : State) : Apart s (decideAlert old s) := by
  unfold decideAlert
  dsimp only
  split
  · exact ⟨_, _, _, _, rfl⟩
  · exact ⟨_, _, _, _, rfl⟩

theorem apart_serve (s : State) : Apart s (serve s) := ⟨_, _, _, _, rfl⟩

/-! ### Its steps keep two such states apart in these alone -/

theorem Apart.rederive {s t : State} (h : Apart s t) : Apart (rederive s) (rederive t) := by
  obtain ⟨e, a, l, k, rfl⟩ := h
  have same : (s.apart e a l k).setsDerived = s.setsDerived := rfl
  unfold Machine.rederive
  rw [same]
  split
  · exact ⟨e, a, l, k, rfl⟩
  · exact ⟨_, _, _, _, rfl⟩

theorem Apart.requalify {s t s' t' : State} (old : Apart s s') (h : Apart t t') :
    Apart (requalify s t) (requalify s' t') := by
  obtain ⟨e, a, l, k, rfl⟩ := old
  obtain ⟨e', a', l', k', rfl⟩ := h
  exact Apart.square ⟨e', a', l', k', rfl⟩ (apart_raiseIf _ _ _) (apart_raiseIf _ _ _)

theorem Apart.handOn {s t s' t' : State} (old : Apart s s') (h : Apart t t') : Apart (handOn s t) (handOn s' t') := by
  have settled := Apart.requalify old (h.square ((apart_raise .banner t).trans (apart_raise .clock _))
    ((apart_raise .banner t').trans (apart_raise .clock _))).rederive
  have before : s'.timer.state = s.timer.state := by
    obtain ⟨e, a, l, k, rfl⟩ := old
    rfl
  have after : t'.timer.state = t.timer.state := by
    obtain ⟨e, a, l, k, rfl⟩ := h
    rfl
  unfold Machine.handOn
  rw [before, after]
  split
  · exact h
  · exact settled

theorem Apart.recompute {s t : State} (h : Apart s t) : Apart (recompute s) (recompute t) := by
  obtain ⟨e, a, l, k, rfl⟩ := h
  exact Apart.square ⟨e, a, l, k, rfl⟩ (apart_raiseIf _ _ _) (apart_raiseIf _ _ _)

theorem Apart.advanceClock {s t : State} (h : Apart s t) : Apart (advanceClock s) (advanceClock t) := by
  obtain ⟨e, a, l, k, rfl⟩ := h
  exact Apart.square ⟨e, a, l, k, rfl⟩ (apart_raiseIf _ _ _) (apart_raiseIf _ _ _)

theorem Apart.charged {s t : State} (h : Apart s t) : Apart s.charged t.charged := by
  obtain ⟨e, a, l, k, rfl⟩ := h
  exact ⟨e, a, l, k, rfl⟩

theorem Apart.productiveSecond {s t : State} (h : Apart s t) : Apart (productiveSecond s) (productiveSecond t) :=
  h.charged.recompute.square (apart_raiseIf _ _ _) (apart_raiseIf _ _ _)

theorem Apart.startClose {s t : State} (r : CloseReason) (h : Apart s t) : Apart (startClose r s) (startClose r t) := by
  obtain ⟨e, a, l, k, rfl⟩ := h
  exact ⟨e, a, l, k, rfl⟩

theorem Apart.overtimeEntered {s t : State} (h : Apart s t) : Apart s.overtimeEntered t.overtimeEntered := by
  obtain ⟨e, a, l, k, rfl⟩ := h
  exact ⟨e, a, l, k, rfl⟩

theorem Apart.closedBy {s t : State} (reason : Option CloseReason) (h : Apart s t) :
    Apart (closedBy reason s) (closedBy reason t) := by
  cases reason with
  | none => exact h
  | some r => exact h.startClose r

theorem Apart.advanceEndTest {s t : State} (h : Apart s t) : Apart (advanceEndTest s) (advanceEndTest t) := by
  have entered : Apart (enterOvertime s) (enterOvertime t) := h.overtimeEntered.recompute
  obtain ⟨e, a, l, k, rfl⟩ := id h
  have reason : advanceReason (s.apart e a l k) = advanceReason s := rfl
  have tested : Apart (if s.reachedEnd ∧ s.entersOvertime then enterOvertime s else s)
      (if s.reachedEnd ∧ s.entersOvertime then enterOvertime (s.apart e a l k) else s.apart e a l k) := by
    split
    · exact entered
    · exact h
  rw [advanceEndTest_eq, advanceEndTest_eq, reason]
  exact tested.closedBy _

theorem Apart.advance {s t : State} (h : Apart s t) : Apart (advance s) (advance t) := by
  have productive : t.timer.state.isProductive = s.timer.state.isProductive := by
    obtain ⟨e, a, l, k, rfl⟩ := h
    rfl
  have two := (h.handOn h.advanceClock).productiveSecond
  unfold Machine.advance
  rw [productive]
  split
  · exact two.handOn two.advanceEndTest
  · exact h.handOn h.advanceClock.advanceEndTest

theorem Apart.advanceIfOpen {s t : State} (h : Apart s t) : Apart (advanceIfOpen s) (advanceIfOpen t) := by
  have open_ : t.timer.state.isOpen = s.timer.state.isOpen := by
    obtain ⟨e, a, l, k, rfl⟩ := h
    rfl
  unfold Machine.advanceIfOpen
  rw [open_]
  split
  · exact h.advance
  · exact h

/-- The roles of a change look at none of these. -/
theorem Apart.changeRoles {s s' t t' : State} (old : Apart s s') (h : Apart t t') (r : Role) :
    r ∈ changeRoles s' t' ↔ r ∈ changeRoles s t := by
  obtain ⟨e, a, l, k, rfl⟩ := old
  obtain ⟨e', a', l', k', rfl⟩ := h
  exact Iff.rfl

/-! ### The second by its correction (R75) -/

theorem shiftSecond_closed {s : State} (closed : s.timer.state.isOpen = false) : shiftSecond s = s :=
  if_neg (by simp [closed])

theorem shiftSecond_behind {s : State} (open_ : s.timer.state.isOpen = true) (behind : s.timer.correction < 0) :
    shiftSecond s = setCorrection (s.timer.correction + 1) s := by
  rw [shiftSecond, if_pos open_, if_neg (by omega), if_pos behind]

theorem shiftSecond_ahead {s : State} (open_ : s.timer.state.isOpen = true) (ahead : 0 < s.timer.correction) :
    shiftSecond s = setCorrection (s.timer.correction - 1) (advanceIfOpen (advance s)) := by
  rw [shiftSecond, if_pos open_, if_pos ahead]

theorem shiftSecond_uncorrected {s : State} (none : s.timer.correction = 0) : shiftSecond s = advanceIfOpen s := by
  simp [shiftSecond, advanceIfOpen, none]

/-- A second advance, where the shift is open. -/
theorem advanceIfOpen_shiftChange (s : State) : ShiftChange [] s (advanceIfOpen s) := by
  unfold advanceIfOpen
  split
  · exact advance_shiftChange s
  · have unmoved : TrackerFollows s s := by rw [TrackerFollows, if_pos rfl]
    refine ⟨unmoved, (Latches.refl s.engine).congr fun r => ?_, rfl, rfl⟩
    simp [mem_changeRoles, SetsChange, StallChanges, ShownFiguresChange]

/-- Both advances of a double advance request for what each of them changes (R75). -/
theorem doubleAdvance_latches (s : State) :
    Latches (· ∈ changeRoles s (advance s) ++ changeRoles (advance s) (advanceIfOpen (advance s))) s.engine
      (advanceIfOpen (advance s)).engine :=
  ((advance_shiftChange s).latches.trans (advanceIfOpen_shiftChange (advance s)).latches).congr fun r => by
    simp only [List.append_nil, List.mem_append]

theorem shiftTimerSecond_next {s : State} (running : s.inReset = false) :
    exec .shiftTimerSecond s = .next (serve (decideAlert s (shiftSecond s))) := centreEvent_next shiftSecond s running

/-- The event that a second leaves is apart from the second alone. -/
theorem apart_taken (old s : State) : Apart s (serve (decideAlert old s)) :=
  (apart_decideAlert old s).trans (apart_serve _)

/-- The second after one without correction has none either. -/
theorem advance_correction (s : State) : (advance s).timer.correction = s.timer.correction := by
  rw [advance_timer]
  rfl

/-- A second above 0, in one event: the two advances' requests are served together (R75). -/
theorem doubleAdvance_taken {s : State} (quiet : s.Quiet) {roles : List Role}
    (same : ∀ r, r ∈ changeRoles s (advance s) ++ changeRoles (advance s) (advanceIfOpen (advance s)) ↔ r ∈ roles)
    (k : Int) :
    RequestedOnly roles s (serve (decideAlert s (setCorrection k (advanceIfOpen (advance s))))) ∧
      OnlyEchoes s (serve (decideAlert s (setCorrection k (advanceIfOpen (advance s))))) := by
  have decided := (decideAlert_echoes s (setCorrection k (advanceIfOpen (advance s)))).2.2
  have latched : Latches (· ∈ roles) s.engine (decideAlert s (setCorrection k (advanceIfOpen (advance s)))).engine := by
    rw [decided]
    exact (doubleAdvance_latches s).congr same
  have requested := latched.served quiet
  have second := advanceIfOpen_shiftChange (advance s)
  have first := advance_shiftChange s
  exact ⟨requested, onlyEchoes_of_requestedOnly (u := setCorrection k (advanceIfOpen (advance s)))
    (second.alert.trans first.alert) (second.tiles.trans first.tiles) requested⟩

/-- The second of the same state without its correction is apart from one advance of it. -/
theorem uncorrected_next {s : State} (running : s.inReset = false) (open_ : s.timer.state.isOpen = true) :
    ∃ u, (Apart (advance s) u ∧ u.timer.correction = 0 ∧ u.inReset = false) ∧
      exec .shiftTimerSecond { s with timer := { s.timer with correction := 0 } } = .next u := by
  have start : Apart s (setCorrection 0 s) := apart_setCorrection 0 s
  have next := shiftTimerSecond_next (s := setCorrection 0 s) running
  rw [shiftSecond_advance (s := setCorrection 0 s) open_ rfl] at next
  refine ⟨_, ⟨start.advance.trans (apart_taken (setCorrection 0 s) _), ?_, ?_⟩, next⟩
  · have kept : (serve (decideAlert (setCorrection 0 s) (advance (setCorrection 0 s)))).timer =
        (advance (setCorrection 0 s)).timer := by simp
    rw [kept, advance_correction]
    rfl
  · exact (inReset_congr (by simp)).trans running

/-- Settles O22: above 0 the one event and the two seconds without correction go through states that are `Apart`. -/
theorem timeCorrectionPacesShiftSeconds : Obligations.TimeCorrectionPacesShiftSeconds := by
  intro s running quiet causes
  refine ⟨fun closed => ?closed, fun open_ behind => ?behind, fun open_ ahead => ?ahead⟩
  case closed =>
    rw [shiftTimerSecond_next running, shiftSecond_closed closed, decideAlert_self s causes, serve_quiet s quiet]
  case behind =>
    rw [shiftTimerSecond_next running, shiftSecond_behind open_ behind]
    exact congrArg _ ((congrArg serve (decideAlert_current (old := s) (s := setCorrection (s.timer.correction + 1) s)
      causes rfl rfl)).trans (serve_quiet _ quiet))
  case ahead =>
    obtain ⟨u, ⟨first, correction, running_u⟩, next_u⟩ := uncorrected_next running open_
    obtain ⟨v, second, next_v⟩ : ∃ v, Apart (advanceIfOpen (advance s)) v ∧ exec .shiftTimerSecond u = .next v := by
      refine ⟨_, first.advanceIfOpen.trans (apart_taken u (advanceIfOpen u)), ?_⟩
      rw [shiftTimerSecond_next running_u, shiftSecond_uncorrected correction]
    have next_t := shiftTimerSecond_next running
    rw [shiftSecond_ahead open_ ahead] at next_t
    have roles (r : Role) :
        r ∈ changeRoles s (advance s) ++ changeRoles (advance s) (advanceIfOpen (advance s)) ↔
          r ∈ changeRoles s u ++ changeRoles u v := by
      rw [List.mem_append, List.mem_append, Apart.changeRoles (.refl s) first, Apart.changeRoles first second]
    obtain ⟨requested, echoes⟩ := doubleAdvance_taken quiet roles (s.timer.correction - 1)
    have last := second.symm.trans
      ((apart_setCorrection (s.timer.correction - 1) _).trans (apart_taken s (setCorrection (s.timer.correction - 1) _)))
    refine ⟨u, next_u, v, next_v, _, next_t, ?_, last.rest, requested,
      serve_causesCurrent (decideAlert_causesCurrent s _), echoes⟩
    rw [last.timer]
    simp [setCorrection]

end Sys2Proof.Machine
end

section
/-! The charge of a productive second (R97 to R101). -/

namespace Sys2Proof.Machine

/-! ### The tables after a charge (R96, R98, R100) -/

/-- A count of lost seconds after an advance that may have lost one, saturating (R96). -/
def secondIf (b : Prop) [Decidable b] (n : Nat) : Nat := if b ∧ n < 65535 then n + 1 else n

theorem secondIf_of {p : Prop} [Decidable p] (h : p) (n : Nat) : secondIf p n = addSecond n := by
  simp only [secondIf, h, true_and]
  rfl

theorem secondIf_of_not {p : Prop} [Decidable p] (h : ¬p) (n : Nat) : secondIf p n = n := by simp [secondIf, h]

/-- A test of the model's and the condition it decides. -/
theorem ite_addSecond {b : Bool} {p : Prop} [Decidable p] (h : b = true ↔ p) (n : Nat) :
    (if b then addSecond n else n) = secondIf p n := by
  by_cases charged : p
  · rw [if_pos (h.2 charged), secondIf_of charged]
  · rw [if_neg (mt h.1 charged), secondIf_of_not charged]

/-- A zone's reason seconds after an advance that charged this cause, or none. -/
def ReasonSeconds.after (r : ReasonSeconds) (c : Option Cause) : ReasonSeconds :=
  { xstop := secondIf (c = some .xstop) r.xstop
    hold := secondIf (c = some .hold) r.hold
    stall := secondIf (c = some .stall) r.stall
    blocked := secondIf (c = some .blocked) r.blocked
    starved := secondIf (c = some .starved) r.starved }

theorem ReasonSeconds.after_none (r : ReasonSeconds) : r.after none = r := by
  simp [ReasonSeconds.after, secondIf_of_not]

theorem ReasonSeconds.after_some (r : ReasonSeconds) (c : Cause) : r.after (some c) = r.charge c := by
  cases c <;> simp [ReasonSeconds.after, ReasonSeconds.charge, secondIf_of, secondIf_of_not]

/-- A zone's kind seconds after an advance that charged this kind, or none. -/
def KindSeconds.after (r : KindSeconds) (kind : Option Kind) : KindSeconds :=
  { quality := secondIf (kind = some .quality) r.quality
    parts := secondIf (kind = some .parts) r.parts
    equipment := secondIf (kind = some .equipment) r.equipment
    safety := secondIf (kind = some .safety) r.safety
    help := secondIf (kind = some .help) r.help }

theorem KindSeconds.after_none (r : KindSeconds) : r.after none = r := by
  simp [KindSeconds.after, secondIf_of_not]

theorem KindSeconds.after_some (r : KindSeconds) (kind : Kind) : r.after (some kind) = r.charge kind := by
  cases kind <;> simp [KindSeconds.after, KindSeconds.charge, secondIf_of, secondIf_of_not]

/-! ### What is charged (R97 to R101) -/

/-- An unused zone is not examined (R97). -/
theorem lossCause_eq (s : State) (k : Fin 6) :
    s.lossCause k = if s.layout.used ≤ k.val then none else (s.tracker.zones.at_ k).lossCause := by
  by_cases beyond : s.layout.used ≤ k.val
  · simp [State.lossCause, Layout.zoneUsed, beyond]
  · simp [State.lossCause, Layout.zoneUsed, beyond, Nat.lt_of_not_le beyond]

/-- The kind that a zone's second is charged to: the first of its oldest HOLD call (R100). -/
def State.chargedKind (s : State) (k : Fin 6) : Option Kind :=
  if s.lossCause k = some .hold then (s.oldestHold k).bind fun c => c.kinds.head? else none

theorem chargedZone_eq (s : State) (k : Fin 6) :
    s.chargedZone k =
      { reasons := (s.loss.zones.at_ k).reasons.after (s.lossCause k)
        kinds := (s.loss.zones.at_ k).kinds.after (s.chargedKind k) } := by
  unfold State.chargedZone State.chargedKind State.chargedCall
  cases cause : s.lossCause k with
  | none => simp [ReasonSeconds.after_none, KindSeconds.after_none]
  | some c =>
    rw [ReasonSeconds.after_some]
    by_cases held : c = .hold
    · subst held
      cases oldest : s.oldestHold k with
      | none => simp [KindSeconds.after_none]
      | some call =>
        cases kinds : call.kinds with
        | nil => simp [kinds, KindSeconds.after_none]
        | cons first rest => simp [kinds, KindSeconds.after_some]
    · simp [held, KindSeconds.after_none]

/-- The line loses the second that its last used zone loses (R101). -/
theorem endOfLineLost_iff (s : State) :
    s.endOfLineLost = true ↔ ∃ k : Fin 6, k.val + 1 = s.layout.used ∧ (s.lossCause k).isSome = true := by
  simp [State.endOfLineLost]

/-- A station's second is that of a zone charged to its call (R12). -/
theorem stationCharged_iff (s : State) (st : Fin 48) :
    s.stationCharged st = true ↔
      ∃ k : Fin 6, s.lossCause k = some .hold ∧ (s.oldestHold k).map Call.station = some st := by
  simp only [State.stationCharged, List.any_eq_true, List.mem_finRange, true_and]
  refine exists_congr fun k => ?_
  unfold State.chargedCall
  by_cases held : s.lossCause k = some .hold
  · cases oldest : s.oldestHold k <;> simp [held]
  · simp [held]

theorem chargeSecond_zone (s : State) (k : Fin 6) : (chargeSecond s).loss.zones.at_ k = s.chargedZone k :=
  Tab.at_tab s.chargedZone k

/-- The line's lost seconds after a charge (R101). -/
theorem chargeSecond_lineLost (s : State) {p : Prop} [Decidable p] (h : s.endOfLineLost = true ↔ p) :
    (chargeSecond s).loss.lineLost = secondIf p s.loss.lineLost := ite_addSecond h s.loss.lineLost

/-- The station record after a charge (R12). -/
theorem chargeSecond_station (s : State) (st : Fin 48) {p : Prop} [Decidable p] (h : s.stationCharged st = true ↔ p) :
    (chargeSecond s).stations.at_ st =
      { s.stations.at_ st with chargedLoss := secondIf p (s.stations.at_ st).chargedLoss } := by
  rw [← ite_addSecond h]
  simp only [chargeSecond, Tab.at_tab]
  split <;> rfl

/-! ### The charge of an advance (R76, R97) -/

/-- The state whose sets, STALL and calls a productive advance charges with: step 1 taken, and a break it enters handed
on (R76). -/
def State.charging (s : State) : State := if s.entersBreak then handOn s (advanceClock s) else advanceClock s

@[simp] theorem charging_keeps (s : State) :
    s.charging.layout = s.layout ∧ s.charging.stations = s.stations ∧ s.charging.callList = s.callList ∧
      s.charging.loss = s.loss := by
  unfold State.charging
  split <;> simp

theorem productiveSecond_charges (s : State) :
    (productiveSecond s).loss = (chargeSecond s).loss ∧ (productiveSecond s).stations = (chargeSecond s).stations := by
  rw [productiveSecond_eq]
  simp only [raiseLostCars_keeps, recompute_keeps]
  exact ⟨rfl, rfl⟩

/-- What a productive advance charges stands whatever its end test gives. -/
theorem advance_charges {s : State} (productive : s.timer.state.isProductive = true) :
    (advance s).loss = (chargeSecond s.charging).loss ∧ (advance s).stations = (chargeSecond s.charging).stations := by
  unfold State.charging
  by_cases enters : s.entersBreak
  · rw [advance_enters enters, if_pos enters]
    exact productiveSecond_charges _
  · have blocks := handOn_sameBlocks s (closedBy (advanceReason s.ticked) s.tested)
    have ticked := productiveSecond_charges (advanceClock s)
    rw [← ticked_productive productive] at ticked
    rw [advance_tested enters, if_neg enters, blocks.loss, blocks.stations]
    simpa using ticked

/-- A productive advance is in BREAK after it where it entered one. -/
theorem advance_inBreak_iff {s : State} (productive : s.timer.state.isProductive = true) :
    (advance s).timer.state = .inBreak ↔ s.entersBreak := by
  by_cases enters : s.entersBreak
  · rw [(advance_enters_blocks enters).1]
    exact iff_of_true (stateAt_enters enters) enters
  · refine iff_of_false ?_ enters
    have ticked : s.ticked.timer.state ≠ .inBreak := by
      rw [ticked_timer]
      have kept : s.timer.ticked.state = s.timer.state := stateAt_productive productive enters
      rintro inside
      rw [← kept, inside] at productive
      exact absurd productive (by decide)
    have tested : s.tested.timer.state ≠ .inBreak := by
      unfold State.tested
      split
      · simp [enterOvertime]
      · exact ticked
    rw [advance_tested enters, (handOn_sameBlocks s _).timer, closedBy_timer]
    dsimp only
    split
    · decide
    · exact tested

/-- The zones charged: as they were, or as an entered break leaves them. -/
theorem charging_zone {s t : State} (productive : s.timer.state.isProductive = true) (timer : t.timer = (advance s).timer)
    (tracker : t.tracker = (advance s).tracker) (k : Fin 6) :
    s.charging.tracker.zones.at_ k =
      if t.timer.state = .inBreak then t.tracker.zones.at_ k else s.tracker.zones.at_ k := by
  have inBreak := advance_inBreak_iff productive
  rw [timer, tracker, State.charging]
  by_cases enters : s.entersBreak
  · rw [if_pos enters, if_pos (inBreak.2 enters), advance_enters enters]
    simp
  · rw [if_neg enters, if_neg (mt inBreak.1 enters)]
    simp

/-- The event of a Shift Timer second without correction leaves the charge, the Tracker and the shift of its advance. -/
theorem uncorrectedSecond_leaves {s : State} (running : s.inReset = false) (open_ : s.timer.state.isOpen = true)
    (uncorrected : s.timer.correction = 0) :
    ∃ t, exec .shiftTimerSecond s = .next t ∧ SameBlocks (advance s) t ∧ t.tracker = (advance s).tracker := by
  have next := shiftTimerSecond_next running
  rw [shiftSecond_advance open_ uncorrected] at next
  exact ⟨_, next, by constructor <;> simp, by simp⟩

/-- Settles O23: the charge is `chargeSecond` in the state whose zones `charging_zone` gives, and its tables are read off
zone by zone, for the line and station by station. -/
theorem productiveAdvanceChargesLostSeconds : Obligations.ProductiveAdvanceChargesLostSeconds := by
  intro s running inShift uncorrected
  have productive : s.timer.state.isProductive = true := (isProductive_iff _).2 inShift
  have open_ : s.timer.state.isOpen = true := by obtain h | h := inShift <;> rw [h] <;> rfl
  obtain ⟨t, next, blocks, tracker⟩ := uncorrectedSecond_leaves running open_ uncorrected
  obtain ⟨charged, rows⟩ := advance_charges productive
  have loss : t.loss = (chargeSecond s.charging).loss := blocks.loss.trans charged
  have stations : t.stations = (chargeSecond s.charging).stations := blocks.stations.trans rows
  obtain ⟨layout, oldStations, calls, oldLoss⟩ := charging_keeps s
  refine ⟨t, next, ?charge, ?rest⟩
  case charge =>
    intro zone cause oldest more
    have caused (k : Fin 6) : s.charging.lossCause k = cause k := by
      rw [lossCause_eq, charging_zone productive blocks.timer tracker k, layout]
      rfl
    have held (k : Fin 6) : s.charging.oldestHold k = oldest k := by
      rw [State.oldestHold, calls]
    refine ⟨fun k => ?zone, ?line, fun st => ?station⟩
    case zone =>
      rw [loss, chargeSecond_zone, chargedZone_eq, State.chargedKind, caused, held, oldLoss]
      rfl
    case line =>
      have lost := endOfLineLost_iff s.charging
      simp only [caused, layout] at lost
      rw [loss, chargeSecond_lineLost _ lost, oldLoss]
      rfl
    case station =>
      have lost := stationCharged_iff s.charging st
      simp only [caused, held] at lost
      rw [stations, chargeSecond_station _ st lost, oldStations]
      rfl
  case rest =>
    obtain ⟨opened, closed, longestHold⟩ : t.loss.opened = s.loss.opened ∧ t.loss.closed = s.loss.closed ∧
        t.loss.longestHold = s.loss.longestHold := by
      rw [loss, ← oldLoss]
      exact ⟨rfl, rfl, rfl⟩
    have wc : t.timer.wc = s.timer.wc + 1 := by
      rw [blocks.timer, advance_timer]
      exact if_pos productive
    exact ⟨opened, closed, longestHold, wc, blocks.callList.trans (by simp)⟩

end Sys2Proof.Machine
end

section
/-! The plant reads as they are taken (R133, R135, R139, R141), and the slot that READ SUMMARY selects (R109). -/

namespace Sys2Proof.Machine

/-- A read without arguments restarts the plant link within its own event. -/
theorem takeRead_ready {c : PlantCommand} {s : State} (ready : s.plant.transaction = .ready) (bare : c.argBytes = 0)
    (reply : State → Transaction) :
    takeRead c reply s = setTransaction (reply (restartPlantLink s)) (restartPlantLink s) := by
  simp [takeRead, State.decoded, ready, commandByteTaken, bare]

/-- A read whose command byte has been taken is taken in the state as it is. -/
theorem takeRead_arguments {c : PlantCommand} {s : State} (h : s.plant.transaction = .arguments c)
    (reply : State → Transaction) : takeRead c reply s = setTransaction (reply s) s := by
  simp [takeRead, State.decoded, h]

/-- The event of a read without arguments: its reply made ready, and the link restarted. -/
theorem read_next {c : PlantCommand} {s : State} (running : s.inReset = false) (quiet : s.Quiet)
    (ready : s.plant.transaction = .ready) (bare : c.argBytes = 0) (reply : State → Transaction) :
    ∃ t, event (takeRead c reply) s = .next t ∧
      t.plant = { s.plant.linked with transaction := reply (restartPlantLink s) } ∧
      { t with plant := s.plant, engine := s.engine } = s ∧ RequestedOnly s.plantLinkRoles s t := by
  have next := event_next (takeRead c reply) s running
  rw [takeRead_ready ready bare] at next
  refine ⟨_, next, ?plant, by apply State.ext <;> simp, Latches.served (restartPlantLink_latches s) quiet⟩
  case plant => simp [setTransaction, restartPlantLink_plant]

/-- An age above 3 names no slot, and neither does one where no close has been made (R104). -/
theorem aged_eq_none {a : Archive} {age : Nat} (h : 3 < age ∨ a.newest = none) : a.aged age = none := by
  obtain beyond | unused := h
  · have outside : index 4 age = none := index_of_ge beyond
    simp [Archive.aged, outside]
  · simp [Archive.aged, unused]

/-- An age within the four slots counts back from the newest (R104). -/
theorem aged_eq_some {a : Archive} {j d : Fin 4} (newest : a.newest = some j) : a.aged d.val = some (j - d) := by
  simp [Archive.aged, newest, index_of_lt rfl]

/-- Settles O44: the reads without arguments are `read_next`, and the two with one `takeRead_arguments`. -/
theorem readsAreTakenWithoutResult : Obligations.ReadsAreTakenWithoutResult := by
  intro s running quiet
  refine ⟨fun ready => ?bare, fun n station => ?station, fun n summary => ?summary⟩
  case bare =>
    have calls : (restartPlantLink s).callList = s.callList := by simp
    have noted := read_next running quiet ready (c := .readCalls) rfl
      fun t => .calls (t.callList.calls.map Call.number) []
    rw [calls] at noted
    exact ⟨read_next running quiet ready (c := .readStatus) rfl fun _ => .status none, noted,
      read_next running quiet ready (c := .readPace) rfl fun _ => .pace none,
      read_next running quiet ready (c := .readLoss) rfl fun _ => .loss 0 [],
      read_next running quiet ready (c := .readHistory) rfl fun _ => .history none⟩
  case station => exact event_setTransaction running quiet (takeRead_arguments station _)
  case summary =>
    refine ⟨s.archive.aged n.toNat, event_setTransaction running quiet (takeRead_arguments summary _), aged_eq_none,
      fun j d newest age => ?_⟩
    rw [← age]
    exact aged_eq_some newest

end Sys2Proof.Machine
end

section
/-! The reply of READ SUMMARY (R109, R181). -/

namespace Sys2Proof.Machine

/-- READ SUMMARY's reply from a slot as its first byte captures it. -/
def Slot.reply (x : Slot) : SummaryReply := { header := x.header, body := x.body, cut := false }

theorem readSummary_captures {s : State} {slot : Option (Fin 4)} (running : s.inReset = false) (quiet : s.Quiet)
    (h : s.plant.transaction = .summary slot none) :
    exec (.readSummary .firstByte) s =
      .next { s with plant := { s.plant with
        transaction := .summary slot (some (s.archive.selected slot).reply) } } :=
  event_setTransaction (f := captureSummary) running quiet (by simp only [captureSummary, h]; rfl)

/-- The body of a COMPLETE slot holds its marker at least. -/
theorem summary_body_ne_nil (r : Summary) : r.body ≠ [] := by simp [Summary.body]

/-- A slot has a body where it is COMPLETE alone. -/
theorem slot_body_eq_nil {x : Slot} (h : ∀ r, x ≠ .complete r) : x.body = [] := by
  cases x with
  | empty => rfl
  | writing r => rfl
  | complete r => exact absurd rfl (h r)

/-- The reply as captured is served byte by byte, and 0xFF past its end. -/
theorem served_reply (slot : Option (Fin 4)) (x : Slot) (i : Nat) :
    (Transaction.summary slot (some x.reply)).served i = some ((x.header ++ x.body).getD i 0xFF) := by
  simp [Transaction.served, Transaction.reply, Slot.reply]

/-- A close that takes another slot, or one that is not COMPLETE, leaves the reply as it was taken. -/
theorem slotTaken_reply {a : Archive} {slot : Option (Fin 4)} {k : Fin 4}
    (h : slot = some k → ∀ r, a.slots.at_ k ≠ .complete r) :
    (Transaction.summary slot (some (a.selected slot).reply)).slotTaken k =
      .summary slot (some (a.selected slot).reply) := by
  cases slot with
  | none => exact slotTaken_no_slot _ k
  | some j =>
    by_cases same : j = k
    · subst same
      have empty : (a.selected (some j)).body = [] := slot_body_eq_nil (h rfl)
      rw [Slot.reply, empty]
      exact slotTaken_no_body _ _ _ j
    · exact slotTaken_other_slot same _

/-- The reason seconds of six zones, byte by byte. -/
theorem reasonFields_flatten (zones : Tab ZoneLoss 6) :
    (reasonFields zones).flatten =
      (List.finRange 6).flatMap fun k =>
        let x := (zones.at_ k).reasons
        be16 x.xstop ++ be16 x.hold ++ be16 x.stall ++ be16 x.blocked ++ be16 x.starved := by
  rw [← List.flatMap_id, reasonFields, List.flatMap_assoc]
  rfl

/-- The kind seconds of six zones, byte by byte. -/
theorem kindFields_flatten (zones : Tab ZoneLoss 6) :
    (kindFields zones).flatten =
      (List.finRange 6).flatMap fun k =>
        let x := (zones.at_ k).kinds
        be16 x.quality ++ be16 x.parts ++ be16 x.equipment ++ be16 x.safety ++ be16 x.help := by
  rw [← List.flatMap_id, kindFields, List.flatMap_assoc]
  rfl

/-- The bytes that equal parts make together. -/
theorem length_flatMap_finRange {β : Type} {n m : Nat} {f : Fin n → List β} (parts : ∀ k, (f k).length = m) :
    ((List.finRange n).flatMap f).length = n * m := by
  simp [List.length_flatMap, parts]

theorem summary_header_length (r : Summary) (state : Nat) : (r.header state).length = 8 := rfl

theorem summary_body_length (r : Summary) : r.body.length = 291 := by
  have reasons : (reasonFields r.zones).flatten.length = 6 * 10 := by
    rw [reasonFields_flatten]
    exact length_flatMap_finRange fun _ => rfl
  have kinds : (kindFields r.zones).flatten.length = 6 * 10 := by
    rw [kindFields_flatten]
    exact length_flatMap_finRange fun _ => rfl
  have rows : ((List.finRange 48).flatMap fun st =>
      [byteOf (r.rows.at_ st).calls] ++ be16 (r.rows.at_ st).loss).length = 48 * 3 :=
    length_flatMap_finRange fun _ => rfl
  simp only [Summary.body, List.length_append, be16_length, be32_length, List.length_singleton, reasons, kinds, rows]

/-- Settles O47: the reply is the selected slot's, by the slot's state, and a close cuts it by `served_slotTaken`. -/
theorem readSummaryServesSelectedSlot : Obligations.ReadSummaryServesSelectedSlot := by
  intro slot s running quiet selected
  refine ⟨_, readSummary_captures running quiet selected, rfl, (s.archive.selected slot).reply, rfl, rfl, ?bytes,
    served_reply slot _, ?cut, fun k => slotTaken_reply⟩
  case bytes =>
    intro head content
    refine ⟨?none, ?empty, ?writing, ?complete⟩
    case none =>
      rintro rfl
      exact ⟨rfl, rfl⟩
    case empty =>
      rintro k rfl (holds : s.archive.selected (some k) = .empty)
      rw [holds]
      exact ⟨rfl, rfl⟩
    case writing =>
      rintro k rfl r (holds : s.archive.selected (some k) = .writing r)
      rw [holds]
      exact ⟨rfl, rfl⟩
    case complete =>
      rintro k rfl r (holds : s.archive.selected (some k) = .complete r)
      rw [holds]
      refine ⟨rfl, ?_, ?_⟩
      · rw [← reasonFields_flatten, ← kindFields_flatten]
        rfl
      · rw [List.length_append]
        exact congrArg₂ _ (summary_header_length r 2) (summary_body_length r)
  case cut =>
    rintro k rfl r (holds : s.archive.selected (some k) = .complete r) i
    rw [holds]
    exact served_slotTaken (r := (Slot.complete r).reply) (summary_body_ne_nil r) k i

end Sys2Proof.Machine
end

section
/-! READ HISTORY's slots, the cursor past a record clocked out, and REWIND HISTORY (R115, R116, R119, R120, R182). -/

namespace Sys2Proof.Machine

/-! ### A slot begins (R116) -/

theorem historySlot_begins {s : State} {slot : Option HistorySlot} (running : s.inReset = false) (quiet : s.Quiet)
    (h : s.plant.transaction = .history slot) :
    exec (.historySlot .begins) s =
      .next { s with plant := { s.plant with transaction := .history (some ⟨s.designated, true⟩) } } :=
  event_setTransaction (f := beginHistorySlot) running quiet (by simp only [beginHistorySlot, h])

theorem designated_end {s : State} (h : s.plant.historyCursor = none) : s.designated = none := by
  simp [State.designated, h]

theorem designated_at {s : State} {n : Nat} (h : s.plant.historyCursor = some n) : s.designated = s.history[n]? := by
  simp [State.designated, h]

/-- An end slot reads 0 (R116). -/
theorem miso_endSlot {s : State} (running : s.inReset = false) (live : Bool) (i : Nat) :
    (setTransaction (.history (some ⟨none, live⟩)) s).miso i = some 0 :=
  miso_running (s := setTransaction (.history (some ⟨none, live⟩)) s) running i

/-- A slot with a record serves its bytes, and 0xFF past them. -/
theorem miso_recordSlot {s : State} (running : s.inReset = false) (r : HistoryRecord) (live : Bool) (i : Nat) :
    (setTransaction (.history (some ⟨some r, live⟩)) s).miso i = some (r.bytes.getD i 0xFF) :=
  miso_running (s := setTransaction (.history (some ⟨some r, live⟩)) s) running i

/-! ### A slot ends (R115, R116, R120) -/

/-- The cursor after a slot's last byte: past a record it still designates (R115, R120). -/
def HistorySlot.cursorAfter (sl : HistorySlot) (log : List HistoryRecord) (cursor : Option Nat) : Option Nat :=
  if sl.record.isSome && sl.live then cursor.bind (cursorPast log) else cursor

theorem endHistorySlot_ends {s : State} {sl : HistorySlot} (h : s.plant.transaction = .history (some sl)) :
    endHistorySlot s =
      s.onPlant fun p =>
        { p with transaction := .history none, historyCursor := sl.cursorAfter s.history p.historyCursor } := by
  obtain ⟨record, live⟩ := sl
  simp only [endHistorySlot, h, State.onPlant, HistorySlot.cursorAfter]
  cases record with
  | none => simp
  | some r =>
    cases cursor : s.plant.historyCursor with
    | none => simp
    | some n => simp

theorem endHistorySlot_none {s : State} (h : s.plant.transaction = .history none) : endHistorySlot s = s := by
  simp [endHistorySlot, h]

theorem historySlot_ends {s : State} {sl : HistorySlot} (running : s.inReset = false) (quiet : s.Quiet)
    (h : s.plant.transaction = .history (some sl)) :
    exec (.historySlot .ends) s =
      .next { s with plant := { s.plant with
        transaction := .history none
        historyCursor := sl.cursorAfter s.history s.plant.historyCursor } } := by
  have next : exec (.historySlot .ends) s = .next (serve (endHistorySlot s)) := event_next _ s running
  rw [endHistorySlot_ends h] at next
  exact next.trans (congrArg _ (serve_quiet _ quiet))

theorem historySlot_ends_none {s : State} (running : s.inReset = false) (quiet : s.Quiet)
    (h : s.plant.transaction = .history none) : exec (.historySlot .ends) s = .next s := by
  have next : exec (.historySlot .ends) s = .next (serve (endHistorySlot s)) := event_next _ s running
  rwa [endHistorySlot_none h, serve_quiet s quiet] at next

/-! ### REWIND HISTORY (R119) -/

theorem rewound_eq (log : List HistoryRecord) : rewound log = if log = [] then none else some 0 := by
  cases log <;> rfl

theorem rewindHistory_next {s : State} (running : s.inReset = false) (quiet : s.Quiet)
    (ready : s.plant.transaction = .ready) :
    ∃ t, exec .rewindHistory s = .next t ∧
      t.plant = { s.plant.linked.answered .ok with historyCursor := rewound s.history } ∧
      { t with plant := s.plant, engine := s.engine } = s ∧ RequestedOnly s.plantLinkRoles s t := by
  have next : exec .rewindHistory s = .next (serve (takeCommand .rewindHistory applyRewind s)) := event_next _ s running
  rw [takeCommand_ready ready rfl] at next
  refine ⟨_, next, ?plant, ?rest, ?roles⟩
  case plant => simp [applyRewind, restartPlantLink_plant, PlantPort.answered]
  case rest => apply State.ext <;> simp [applyRewind]
  case roles =>
    refine Latches.served ?_ quiet
    simpa [applyRewind] using restartPlantLink_latches s

/-- Settles O48: a slot begins by `historySlot_begins` and ends by `historySlot_ends`, and the rewind is
`rewindHistory_next`. -/
theorem historySlotsFollowCursorAndRewind : Obligations.HistorySlotsFollowCursorAndRewind := by
  intro s running quiet _
  refine ⟨fun slot reading => ⟨fun atEnd => ?endSlot, fun n cursor r designated => ?recordSlot⟩,
    fun record live reading => ?ends, historySlot_ends_none running quiet, fun ready => ?rewind⟩
  case endSlot =>
    have begins := historySlot_begins running quiet reading
    rw [designated_end atEnd] at begins
    exact ⟨_, begins, rfl, miso_endSlot running true⟩
  case recordSlot =>
    have begins := historySlot_begins running quiet reading
    rw [designated_at cursor, designated] at begins
    refine ⟨_, begins, rfl, ?_⟩
    intro ack closer rest i
    have record : r.bytes = BitVec.ofNat 8 (rest.length + 1) :: rest := by
      have acked : ackBytes r.ack = ack := by cases h : r.ack <;> simp [ackBytes, byteOf, ack, h]
      have closed : r.closedBy.bytes = closer := by cases h : r.closedBy <;> simp [ClosedBy.bytes, byteOf, closer, h]
      simp [HistoryRecord.bytes, withLength, kindBytes, byteOf, bitAt_eq, rest, acked, closed]
    rw [← record]
    exact miso_recordSlot running r true i
  case ends =>
    intro after
    have ends := historySlot_ends running quiet reading
    have moved : s.plant.historyCursor.bind (cursorPast s.history) = after := by
      cases cursor : s.plant.historyCursor <;> simp [after, cursor, cursorPast]
    simp only [HistorySlot.cursorAfter, moved] at ends
    exact ends
  case rewind =>
    rw [← rewound_eq]
    exact rewindHistory_next running quiet ready

end Sys2Proof.Machine
end

section
/-! The bounds of the queue, the log and the counts, part by part: what an event does to each (R27, R69, R91, R111,
R115, R126, R130, R141, R172 to R175). -/

namespace Sys2Proof.Machine

/-! ### The bounds, part by part -/

/-- The part of CountsInRange that is about the Tile Driver. -/
structure TileDriver.InRange (d : TileDriver) : Prop where
  tiles : ∀ t, (d.tiles.at_ t).InRange
  startCount : d.startCount ≤ 10
  target : d.target ≤ 63
  actual : d.actual ≤ 63
  decreaseCount : d.decreaseCount ≤ 3
  rampCode : d.rampCode ≤ 5

/-- The Line Port's part: the queue's bound, a frame received only with a slot free, and the link's count. -/
structure LinePort.KeepsBounds (l m : LinePort) : Prop where
  queue : l.queue.length ≤ 16 ∧ (l.phase = .receiving → l.queue.length < 16) →
    m.queue.length ≤ 16 ∧ (m.phase = .receiving → m.queue.length < 16)
  link : l.link.count ≤ 60 → m.link.count ≤ 60

/-- An event keeps each bound of the queue, the log and the counts by itself. -/
structure KeepsBounds (s t : State) : Prop where
  line : s.line.KeepsBounds t.line
  history : s.HistoryForm → t.HistoryForm
  actual : s.pace.actual ≤ 9999 → t.pace.actual ≤ 9999
  runClock : s.timer.runClock ≤ 4294967295 → t.timer.runClock ≤ 4294967295
  plantLink : s.plant.link.count ≤ 60 → t.plant.link.count ≤ 60
  coast : (∀ k, (s.tracker.zones.at_ k).coast ≤ 255) → ∀ k, (t.tracker.zones.at_ k).coast ≤ 255
  tiles : s.tiles.InRange → t.tiles.InRange

theorem KeepsBounds.queue {s t : State} (h : KeepsBounds s t) : s.QueueForm → t.QueueForm := h.line.queue

theorem KeepsBounds.counts {s t : State} (h : KeepsBounds s t) : s.CountsInRange → t.CountsInRange := by
  rintro ⟨actual, runClock, line, plant, coast, tiles, startCount, target, level, decreaseCount, rampCode⟩
  obtain ⟨tiles', startCount', target', level', decreaseCount', rampCode'⟩ :=
    h.tiles ⟨tiles, startCount, target, level, decreaseCount, rampCode⟩
  exact ⟨h.actual actual, h.runClock runClock, h.line.link line, h.plantLink plant, h.coast coast, tiles', startCount',
    target', level', decreaseCount', rampCode'⟩

theorem LinePort.KeepsBounds.refl (l : LinePort) : l.KeepsBounds l := ⟨id, id⟩

theorem LinePort.KeepsBounds.trans {l m n : LinePort} (h : l.KeepsBounds m) (g : m.KeepsBounds n) : l.KeepsBounds n :=
  ⟨g.queue ∘ h.queue, g.link ∘ h.link⟩

theorem KeepsBounds.refl (s : State) : KeepsBounds s s := ⟨.refl _, id, id, id, id, id, id⟩

theorem KeepsBounds.trans {s t u : State} (h : KeepsBounds s t) (g : KeepsBounds t u) : KeepsBounds s u where
  line := h.line.trans g.line
  history := g.history ∘ h.history
  actual := g.actual ∘ h.actual
  runClock := g.runClock ∘ h.runClock
  plantLink := g.plantLink ∘ h.plantLink
  coast := g.coast ∘ h.coast
  tiles := g.tiles ∘ h.tiles

/-! ### Events that reach none of them -/

/-- All that the bounds look at. -/
def State.boundsView (s : State) :
    LinePort × List HistoryRecord × Nat × Nat × Link × Option Nat × Tab ZoneState 6 × TileDriver :=
  (s.line, s.history, s.pace.actual, s.timer.runClock, s.plant.link, s.plant.historyCursor, s.tracker.zones, s.tiles)

theorem KeepsBounds.of_view {s t : State} (h : t.boundsView = s.boundsView) : KeepsBounds s t := by
  simp only [State.boundsView, Prod.mk.injEq] at h
  obtain ⟨line, history, actual, runClock, link, cursor, zones, tiles⟩ := h
  exact {
    line := line ▸ .refl _
    history := by simp only [State.HistoryForm, history, cursor, imp_self]
    actual := by simp only [actual, imp_self]
    runClock := by simp only [runClock, imp_self]
    plantLink := by simp only [link, imp_self]
    coast := by simp only [zones, imp_self]
    tiles := by simp only [tiles, imp_self] }

/-! ### Shared operations -/

theorem raise_keepsBounds (r : Role) (s : State) : KeepsBounds s (s.raise r) := .of_view rfl

theorem raiseIf_keepsBounds (b : Bool) (r : Role) (s : State) : KeepsBounds s (s.raiseIf b r) :=
  .of_view (by simp [State.boundsView])

theorem serve_keepsBounds (s : State) : KeepsBounds s (serve s) := .of_view rfl

theorem effectiveTarget_le {s : State} (h : s.tiles.target ≤ 63) : s.effectiveTarget ≤ 63 := by
  unfold State.effectiveTarget
  split
  · exact le_rfl
  · exact h

/-- With ramp code 0 the intensity takes an effective target, which lies in its range (R174, R175). -/
theorem decideAlert_keepsBounds (old s : State) : KeepsBounds s (decideAlert old s) := by
  unfold decideAlert
  dsimp only
  split
  · exact { KeepsBounds.refl s with tiles := fun h => { h with actual := effectiveTarget_le h.target } }
  · exact .of_view rfl

theorem withReasons_coast_le (z : ZoneState) (r : ReasonSet) : (z.withReasons r).coast ≤ z.coast := by
  unfold ZoneState.withReasons
  split
  · exact Nat.zero_le _
  · exact le_rfl

/-- Settling lowers coasts at most (R24). -/
theorem settleTracker_keepsBounds (old s : State) : KeepsBounds s (settleTracker old s) where
  line := by simpa using .refl s.line
  history := by simp [State.HistoryForm]
  actual := by simp
  runClock := by simp
  plantLink := by simp
  coast h k := by
    rw [settleTracker_zone, (requalified_coastFields _ _ _).1]
    exact (withReasons_coast_le _ _).trans (h k)
  tiles := by simp

theorem KeepsBounds.settled {s u : State} (h : KeepsBounds s u) (old : State) : KeepsBounds s (settleTracker old u) :=
  h.trans (settleTracker_keepsBounds old u)

theorem settled_of_view {s u : State} (h : u.boundsView = s.boundsView) : KeepsBounds s (settleTracker s u) :=
  (KeepsBounds.of_view h).settled s

theorem KeepsBounds.handedOn {s u : State} (h : KeepsBounds s u) (old : State) : KeepsBounds s (handOn old u) := by
  unfold handOn
  split
  · exact h
  · exact ((h.trans (raise_keepsBounds .banner u)).trans (raise_keepsBounds .clock _)).settled old

/-! ### Events -/

theorem event_keepsBounds {f : State → State} (hf : ∀ s, KeepsBounds s (f s)) {s t : State}
    (e : event f s = .next t) : KeepsBounds s t :=
  event_keeps (I := KeepsBounds s) (fun x h => h.trans (hf x)) (fun x h => h.trans (serve_keepsBounds x)) (.refl s) e

theorem centreEvent_keepsBounds {f : State → State} (hf : ∀ s, KeepsBounds s (f s)) {s t : State}
    (e : centreEvent f s = .next t) : KeepsBounds s t :=
  centreEvent_keeps (I := KeepsBounds s) (fun x h => h.trans (hf x))
    (fun old x h => h.trans (decideAlert_keepsBounds old x)) (fun x h => h.trans (serve_keepsBounds x)) (.refl s) e

end Sys2Proof.Machine
end

section
/-! The Stoppage History Log's bound and its cursor's (R111 to R115, R119), and the calls that close into it. -/

namespace Sys2Proof.Machine

/-! ### A record stored, and the cursor moved -/

theorem historyAfterRemoval_length (log : List HistoryRecord) (cursor : Option Nat) :
    (historyAfterRemoval log cursor).length = log.length - 1 := by
  have flagged (l : List HistoryRecord) : (flagHead l).length = l.length := by cases l <;> rfl
  unfold historyAfterRemoval
  split <;> simp [flagged]

theorem cursorAfterRemoval_lt {cursor : Option Nat} {m : Nat} (room : 1 < m) (h : ∀ n, cursor = some n → n < m)
    (n : Nat) (after : cursorAfterRemoval cursor = some n) : n < m - 1 := by
  cases cursor with
  | none => cases after
  | some c =>
    have bound := h c rfl
    cases c <;> cases after <;> omega

theorem appendRecord_historyForm (r : HistoryRecord) {s : State} (h : s.HistoryForm) (room : s.history.length < 128) :
    (appendRecord r s).HistoryForm := by
  obtain ⟨-, cursor⟩ := h
  unfold State.HistoryForm appendRecord
  dsimp only
  rw [List.length_append, List.length_singleton]
  refine ⟨room, fun n hn => ?_⟩
  cases place : s.plant.historyCursor with
  | none =>
    rw [place] at hn
    cases hn
    exact Nat.lt_succ_self _
  | some c =>
    rw [place] at hn
    cases hn
    exact (cursor _ place).trans (Nat.lt_succ_self _)

theorem removeOldest_historyForm {s : State} (h : s.HistoryForm) (full : ¬s.history.length < 128) :
    (removeOldest s).HistoryForm := by
  obtain ⟨bound, cursor⟩ := h
  unfold State.HistoryForm removeOldest
  dsimp only
  rw [historyAfterRemoval_length]
  exact ⟨by omega, cursorAfterRemoval_lt (by omega) cursor⟩

theorem removeOldest_length (s : State) : (removeOldest s).history.length = s.history.length - 1 :=
  historyAfterRemoval_length _ _

/-- A full log loses its oldest record before it takes one (R113). -/
theorem storeRecord_historyForm (r : HistoryRecord) {s : State} (h : s.HistoryForm) :
    (storeRecord r s).HistoryForm := by
  by_cases room : s.history.length < 128
  · rw [storeRecord_within room]
    exact appendRecord_historyForm r h room
  · rw [storeRecord_full room]
    refine appendRecord_historyForm r (removeOldest_historyForm h room) ?_
    have bound := h.1
    rw [removeOldest_length]
    omega

theorem storeRecord_keepsBounds (r : HistoryRecord) (s : State) : KeepsBounds s (storeRecord r s) where
  line := by simpa using .refl s.line
  history := storeRecord_historyForm r
  actual := by simp
  runClock := by simp
  plantLink h := by rwa [storeRecord_plant]
  coast := by simp
  tiles := by simp

/-- A closing stores its record, and settles the Tracker (R51, R61). -/
theorem closeCall_keepsBounds (c : Call) (by_ : ClosedBy) (s : State) : KeepsBounds s (closeCall c by_ s) := by
  have left : KeepsBounds s (s.withoutCall c) := .of_view rfl
  have stored := left.trans (storeRecord_keepsBounds (s.historyRecord c by_) _)
  have announced (u : State) : KeepsBounds u (raiseCallChange (fitScroll u)) := .of_view (by simp [State.boundsView])
  exact (stored.trans (announced _)).settled s

theorem rewound_lt (log : List HistoryRecord) (n : Nat) (h : rewound log = some n) : n < log.length := by
  cases log <;> cases h
  exact Nat.succ_pos _

theorem cursorPast_lt {log : List HistoryRecord} {c n : Nat} (h : cursorPast log c = some n) : n < log.length := by
  unfold cursorPast at h
  split at h <;> cases h
  assumption

/-- The Plant Port with another cursor on the log keeps the bounds. -/
theorem cursor_keepsBounds {s : State} {f : PlantPort → PlantPort} (link : (f s.plant).link = s.plant.link)
    (cursor : s.HistoryForm → ∀ n, (f s.plant).historyCursor = some n → n < s.history.length) :
    KeepsBounds s (s.onPlant f) :=
  { KeepsBounds.refl s with
    history := fun h => ⟨h.1, cursor h⟩
    plantLink := fun h => link.symm ▸ h }

theorem applyRewind_keepsBounds (s : State) : KeepsBounds s (applyRewind s).1 :=
  cursor_keepsBounds (f := fun p => { p with historyCursor := rewound s.history }) rfl fun _ => rewound_lt s.history

end Sys2Proof.Machine
end

section
/-! The bounds under the events of the line's centre: the shift, the actual count, steps, calls and layout writes. -/

namespace Sys2Proof.Machine

/-! ### The figures and the end tests (R78, R79, R88) -/

theorem recompute_keepsBounds (s : State) : KeepsBounds s (recompute s) :=
  .of_view (by simp [State.boundsView, recompute])

theorem raiseLostCars_keepsBounds (old s : State) : KeepsBounds s (raiseLostCars old s) := raiseIf_keepsBounds _ _ s

theorem startClose_keepsBounds (r : CloseReason) (s : State) : KeepsBounds s (startClose r s) := .of_view rfl

theorem endOfShiftTest_keepsBounds (s : State) : KeepsBounds s (endOfShiftTest s) := by
  unfold endOfShiftTest
  split
  · exact startClose_keepsBounds _ s
  · split
    · exact startClose_keepsBounds _ s
    · have entered : KeepsBounds s s.overtimeEntered := .of_view rfl
      exact entered.trans (recompute_keepsBounds _)

theorem advanceEndTest_keepsBounds (s : State) : KeepsBounds s (advanceEndTest s) := by
  unfold advanceEndTest
  split
  · exact endOfShiftTest_keepsBounds s
  · split
    · exact startClose_keepsBounds _ s
    · exact .refl s

theorem targetTest_keepsBounds (s : State) : KeepsBounds s (targetTest s) := by
  unfold targetTest
  split
  · exact startClose_keepsBounds _ s
  · exact .refl s

/-! ### The actual count (R91, R92) -/

theorem actual_keepsBounds {s : State} {a : Nat} (h : s.pace.actual ≤ 9999 → a ≤ 9999) :
    KeepsBounds s (s.onPace fun u => { u with actual := a }) :=
  { KeepsBounds.refl s with actual := h }

theorem changeActual_keepsBounds {s : State} {a : Nat} (h : s.pace.actual ≤ 9999 → a ≤ 9999) :
    KeepsBounds s (changeActual a s) := by
  unfold changeActual
  split
  · exact .refl s
  · exact (((actual_keepsBounds h).trans (recompute_keepsBounds _)).trans (targetTest_keepsBounds _)).handedOn s

theorem endOfLineCar_keepsBounds (s : State) : KeepsBounds s (endOfLineCar s) := by
  unfold endOfLineCar
  split
  · exact changeActual_keepsBounds satSucc_le
  · exact .refl s

theorem applyCountAdjust_keepsBounds (delta : Int) (s : State) : KeepsBounds s (applyCountAdjust delta s).1 := by
  unfold applyCountAdjust
  split
  · exact changeActual_keepsBounds fun _ => Nat.min_le_left _ _
  · exact .refl s

/-! ### Advances and the run clock (R69, R75, R76) -/

theorem advanceClock_keepsBounds (s : State) : KeepsBounds s (advanceClock s) :=
  .of_view (by simp [State.boundsView, advanceClock])

theorem productiveSecond_keepsBounds (s : State) : KeepsBounds s (productiveSecond s) := by
  have charged : KeepsBounds s (chargeSecond (s.onTimer fun t => { t with wc := t.wc + 1 })) :=
    .of_view (by simp [State.boundsView])
  exact (charged.trans (recompute_keepsBounds _)).trans (raiseLostCars_keepsBounds s _)

theorem advance_keepsBounds (s : State) : KeepsBounds s (advance s) := by
  have clock := advanceClock_keepsBounds s
  unfold advance
  split
  · have two := (clock.handedOn s).trans (productiveSecond_keepsBounds _)
    exact (two.trans (advanceEndTest_keepsBounds _)).handedOn _
  · exact (clock.trans (advanceEndTest_keepsBounds _)).handedOn s

theorem advanceIfOpen_keepsBounds (s : State) : KeepsBounds s (advanceIfOpen s) := by
  unfold advanceIfOpen
  split
  · exact advance_keepsBounds s
  · exact .refl s

theorem setCorrection_keepsBounds (c : Int) (s : State) : KeepsBounds s (setCorrection c s) := .of_view rfl

theorem shiftSecond_keepsBounds (s : State) : KeepsBounds s (shiftSecond s) := by
  unfold shiftSecond
  split
  · split
    · exact ((advance_keepsBounds s).trans (advanceIfOpen_keepsBounds _)).trans (setCorrection_keepsBounds _ _)
    · split
      · exact setCorrection_keepsBounds _ s
      · exact advance_keepsBounds s
  · exact .refl s

theorem runClock_keepsBounds (s : State) :
    KeepsBounds s ((s.onTimer fun t => { t with runClock := nextRunClock t.runClock }).raiseIf
      (minutesChange s.callList.calls s.timer.runClock (nextRunClock s.timer.runClock)) .ticker) := by
  have counted : KeepsBounds s (s.onTimer fun t => { t with runClock := nextRunClock t.runClock }) :=
    { KeepsBounds.refl s with runClock := satSucc_le }
  exact counted.trans (raiseIf_keepsBounds _ _ _)

/-! ### Shift starts, time marks and the completion of a close (R70 to R73, R77, R107) -/

/-- A shift opens with the count at 0 (R83). -/
theorem openShift_keepsBounds (p : Plan) (number offset : Nat) (s : State) :
    KeepsBounds s (openShift p number offset s) := by
  have zero : KeepsBounds s (s.onPace fun u => { u with actual := 0 }) := actual_keepsBounds fun _ => Nat.zero_le _
  have opened : KeepsBounds (s.onPace fun u => { u with actual := 0 })
      { s with
        timer := s.timer.opened p number offset
        stations := .tab fun st => (s.stations.at_ st).opened
        loss := .zero
        pace := s.pace.opened (s.timer.opened p number offset).wc } :=
    .of_view (by simp [State.boundsView, ShiftTimer.opened, PaceUnit.opened])
  have computed := (zero.trans opened).trans (recompute_keepsBounds _)
  exact (computed.trans (raise_keepsBounds .pace _)).trans (raise_keepsBounds .clock _)

theorem applyTimeMark_keepsBounds (number seconds : Nat) (s : State) :
    KeepsBounds s (applyTimeMark number seconds s).1 := by
  unfold applyTimeMark
  split
  · exact .refl s
  · split
    · exact .refl s
    · exact setCorrection_keepsBounds _ s

theorem applyShiftStart_keepsBounds (number offset : Nat) (s : State) :
    KeepsBounds s (applyShiftStart number offset s).1 := by
  have held : KeepsBounds s (holdStart number offset s) := .of_view rfl
  unfold applyShiftStart
  split
  · exact .refl s
  · split
    · split
      · exact .refl s
      · exact (openShift_keepsBounds _ _ _ s).handedOn s
    · exact held
    all_goals
      split
      · exact applyTimeMark_keepsBounds number offset s
      · exact (held.trans (startClose_keepsBounds _ _)).handedOn s

theorem takePending_keepsBounds (s : State) : KeepsBounds s (takePending s) := by
  unfold takePending
  split
  · have taken : KeepsBounds s (s.onTimer fun t => { t with pendingStart := none }) := .of_view rfl
    exact taken.trans (openShift_keepsBounds _ _ _ _)
  · exact .refl s

theorem completeClose_keepsBounds (s : State) : KeepsBounds s (completeClose s) := by
  by_cases closing : s.timer.state = .closing
  · rw [completeClose_closing closing]
    have completed : KeepsBounds s s.closeCompleted := .of_view rfl
    exact (completed.trans (takePending_keepsBounds _)).handedOn s
  · rw [completeClose_idle closing]
    exact .refl s

theorem applyShiftClose_keepsBounds (s : State) : KeepsBounds s (applyShiftClose s).1 := by
  unfold applyShiftClose
  split
  · exact (startClose_keepsBounds _ s).handedOn s
  · exact .refl s

/-! ### Plans (R64 to R67) -/

theorem commitDecided_keepsBounds (p : Plan) (s : State) : KeepsBounds s (commitDecided p s) := by
  have rebased : KeepsBounds s
      (((rebase s).onTimer fun t => { t with active := some p, staged := none }).onTimer fun t =>
        { t with state := t.redecided }) := .of_view rfl
  refine rebased.trans ?_
  unfold commitDecided holdAtCommit
  split <;> exact .of_view rfl

theorem commitEndTest_keepsBounds (s : State) : KeepsBounds s (commitEndTest s) := by
  unfold commitEndTest
  split
  · exact endOfShiftTest_keepsBounds s
  · exact .refl s

theorem commitOvertimeTests_keepsBounds (s : State) : KeepsBounds s (commitOvertimeTests s) := by
  unfold commitOvertimeTests
  split
  · split
    · exact startClose_keepsBounds _ s
    · exact targetTest_keepsBounds s
  · exact .refl s

theorem commitNow_keepsBounds (p : Plan) (s : State) : KeepsBounds s (commitNow p s) := by
  have computed := (commitDecided_keepsBounds p s).trans (recompute_keepsBounds _)
  have tested := (computed.trans (commitEndTest_keepsBounds _)).trans (commitOvertimeTests_keepsBounds _)
  rw [commitNow_eq]
  exact (tested.trans (raiseLostCars_keepsBounds s _)).handedOn s

theorem applyCommit_keepsBounds (mode : Nat) (s : State) : KeepsBounds s (applyCommit mode s).1 := by
  unfold applyCommit
  split
  · exact .refl s
  · split
    · exact .refl s
    · split
      · exact .refl s
      · split
        · dsimp only
          exact commitNow_keepsBounds _ s
        · exact .of_view rfl

theorem applyStagePlan_keepsBounds (length takt overtime : Half) (count : Byte) (breaks : Vector BreakArg 6)
    (s : State) : KeepsBounds s (applyStagePlan length takt overtime count breaks s).1 := by
  unfold applyStagePlan
  split <;> exact .of_view rfl

/-! ### Zones, buffers and inputs (R14 to R19, R26 to R30) -/

/-- One zone changed, its coast at most to its bound. -/
theorem onZone_keepsBounds {s : State} {k : Fin 6} {f : ZoneState → ZoneState}
    (h : (s.tracker.zones.at_ k).coast ≤ 255 → (f (s.tracker.zones.at_ k)).coast ≤ 255) :
    KeepsBounds s (s.onZone k f) :=
  { KeepsBounds.refl s with
    coast := fun bound j => by
      by_cases same : j = k
      · subst same
        simpa [State.onZone] using h (bound j)
      · simpa [State.onZone, same] using bound j }

theorem afterStep_coast_le (r : ZoneRecord) (stopped : Bool) {z : ZoneState} (h : z.coast ≤ 255) :
    (z.afterStep r stopped).coast ≤ 255 := by
  cases stopped
  · exact h
  · exact satSucc_le h

theorem deliverFrom_keepsBounds (k : Fin 6) (s : State) : KeepsBounds s (deliverFrom k s) := by
  unfold deliverFrom
  split
  · split <;> exact .of_view rfl
  · exact .refl s

theorem drawInto_keepsBounds (k : Fin 6) (s : State) : KeepsBounds s (drawInto k s) := by
  unfold drawInto
  split
  · exact .refl s
  · split
    · split <;> exact .of_view rfl
    · exact .refl s

theorem completeCar_keepsBounds (k : Fin 6) (s : State) : KeepsBounds s (completeCar k s) := by
  have moved := (deliverFrom_keepsBounds k s).trans (drawInto_keepsBounds k _)
  unfold completeCar
  dsimp only
  split
  · exact moved.trans (endOfLineCar_keepsBounds _)
  · exact moved

theorem stepCalls_keepsBounds (k : Fin 6) (s : State) : KeepsBounds s (stepCalls k s) := by
  unfold stepCalls
  dsimp only
  split <;> exact .of_view rfl

theorem stepZone_keepsBounds (k : Fin 6) (s : State) : KeepsBounds s (stepZone k s) := by
  have zone : KeepsBounds s (s.onZone k fun z => z.afterStep (s.layout.zones.at_ k) (s.zstop k)) :=
    onZone_keepsBounds (afterStep_coast_le _ _)
  have called := (zone.trans (raiseIf_keepsBounds (s.tracker.zones.at_ k).stall .stations _)).trans
    (stepCalls_keepsBounds k _)
  unfold stepZone
  refine KeepsBounds.settled ?_ s
  split
  · exact called.trans (completeCar_keepsBounds k _)
  · exact called

theorem givePitch_keepsBounds (k : Fin 6) (m : PitchMoment) (s : State) : KeepsBounds s (givePitch k m s) := by
  have filtered : KeepsBounds s (s.onPitch k (PinFilter.afterPitch m)) := .of_view rfl
  unfold givePitch
  dsimp only
  split
  · exact filtered.trans (stepZone_keepsBounds k _)
  · exact filtered

theorem giveXstop_keepsBounds (m : LevelMoment) (s : State) : KeepsBounds s (giveXstop m s) := by
  have filtered : KeepsBounds s { s with tracker := { s.tracker with xstop := s.tracker.xstop.afterLevel true m } } :=
    .of_view rfl
  unfold giveXstop
  dsimp only
  split
  · exact filtered
  · exact (filtered.trans (raise_keepsBounds _ _)).settled s

theorem monitorSecond_coast (z : ZoneState) (qualifies : Bool) (q : Nat) :
    (z.monitorSecond qualifies q).coast = z.coast := by
  unfold ZoneState.monitorSecond
  (repeat' split) <;> rfl

theorem monitorSecond_keepsBounds (k : Fin 6) (s : State) : KeepsBounds s (monitorSecond k s) := by
  refine (onZone_keepsBounds fun h => ?_).trans (raiseIf_keepsBounds _ _ _)
  rwa [monitorSecond_coast]

theorem applyBufferSet_keepsBounds (buffer count : Nat) (s : State) :
    KeepsBounds s (applyBufferSet buffer count s).1 := by
  unfold applyBufferSet
  split
  · exact .refl s
  · split
    · exact settled_of_view rfl
    · exact .refl s

/-! ### Calls (c03) -/

theorem raiseCallChange_keepsBounds (s : State) : KeepsBounds s (raiseCallChange s) := .of_view rfl

theorem openCall_keepsBounds (st : Fin 48) (zone : Fin 6) (k : Kind) (progress : Nat) (s : State) :
    KeepsBounds s (openCall st zone k progress s) :=
  settled_of_view (by simp [State.boundsView])

theorem growCall_keepsBounds (c : Call) (k : Kind) (s : State) : KeepsBounds s (growCall c k s) :=
  settled_of_view rfl

theorem callSeconds_keepsBounds (only : Option Nat) (s : State) : KeepsBounds s (callSeconds only s) :=
  .of_view (by simp [State.boundsView, callSeconds])

theorem applyPull_keepsBounds (station kind progress : Nat) (s : State) :
    KeepsBounds s (applyPull station kind progress s).1 := by
  unfold applyPull
  split
  · exact .refl s
  · split
    · split
      · split
        · split
          · exact .refl s
          · exact growCall_keepsBounds _ _ s
        · exact openCall_keepsBounds _ _ _ _ s
      · exact .refl s
    · exact .refl s

theorem applyRelease_keepsBounds (station : Nat) (s : State) : KeepsBounds s (applyRelease station s).1 := by
  unfold applyRelease
  split
  · exact .refl s
  · exact closeCall_keepsBounds _ _ s

theorem applyLeaderReset_keepsBounds (station leader : Nat) (s : State) :
    KeepsBounds s (applyLeaderReset station leader s).1 := by
  unfold applyLeaderReset
  split
  · exact .refl s
  · split
    · exact .refl s
    · exact closeCall_keepsBounds _ _ s

theorem applyClearCall_keepsBounds (number responder : Nat) (s : State) :
    KeepsBounds s (applyClearCall number responder s).1 := by
  unfold applyClearCall
  split
  · exact .refl s
  · split
    · exact .refl s
    · exact closeCall_keepsBounds _ _ s

theorem applyLeaderAck_keepsBounds (station leader : Nat) (s : State) :
    KeepsBounds s (applyLeaderAck station leader s).1 := .of_view (by simp [State.boundsView])

theorem applyAckCall_keepsBounds (number responder : Nat) (s : State) :
    KeepsBounds s (applyAckCall number responder s).1 := .of_view (by simp [State.boundsView])

/-! ### Layout writes (R8, R9) -/

theorem afterWrite_coast_le (z : ZoneState) (j k : Fin 6) (old new : Layout) :
    (z.afterWrite j k old new).coast ≤ z.coast := by
  unfold ZoneState.afterWrite
  by_cases service : old.zoneUsed j = new.zoneUsed j
  · simp only [service, if_true]
    split <;> exact le_rfl
  · simp only [service, if_false]
    split <;> exact Nat.zero_le _

theorem storeZone_keepsBounds (k : Fin 6) (new : Layout) (s : State) : KeepsBounds s (storeZone k new s) := by
  refine KeepsBounds.settled (.trans ?written ((raise_keepsBounds .stations _).trans (raise_keepsBounds .ticker _))) s
  case written =>
    exact { KeepsBounds.refl s with
      coast := fun bound j => by
        simpa using (afterWrite_coast_le (s.tracker.zones.at_ j) j k s.layout new).trans (bound j) }

theorem applyLayoutZone_keepsBounds (zone used first last pitch coast stall capacity : Nat) (s : State) :
    KeepsBounds s (applyLayoutZone zone used first last pitch coast stall capacity s).1 := by
  unfold applyLayoutZone
  split
  · exact .refl s
  · split
    · exact .refl s
    · dsimp only
      split
      · exact .refl s
      · split
        · exact .refl s
        · exact storeZone_keepsBounds _ _ s

theorem applyLayoutStation_keepsBounds (station : Nat) (flag : Bool) (length : Nat) (s : State) :
    KeepsBounds s (applyLayoutStation station flag length s).1 := by
  unfold applyLayoutStation
  split
  · exact .refl s
  · split
    · exact .refl s
    · dsimp only
      split
      · exact .refl s
      · exact settled_of_view rfl

end Sys2Proof.Machine
end

section
/-! The bounds under the events of the two ports (R115, R123 to R126, R130, R141). -/

namespace Sys2Proof.Machine

/-! ### The links (R130, R141) -/

theorem Link.second_count_le {l : Link} (h : l.count ≤ 60) : l.second.count ≤ 60 := satSucc_le h

theorem setPlantLink_keepsBounds {s : State} {l : Link} (h : s.plant.link.count ≤ 60 → l.count ≤ 60) :
    KeepsBounds s (setPlantLink l s) := by
  have linked : KeepsBounds s (s.onPlant fun p => { p with link := l }) := { KeepsBounds.refl s with plantLink := h }
  exact linked.trans (raiseIf_keepsBounds _ _ _)

theorem restartPlantLink_keepsBounds (s : State) : KeepsBounds s (restartPlantLink s) :=
  setPlantLink_keepsBounds fun _ => Nat.zero_le _

theorem plantLinkSecond_keepsBounds (s : State) : KeepsBounds s (plantLinkSecond s) :=
  setPlantLink_keepsBounds Link.second_count_le

/-- The Line Port changed within its bounds. -/
theorem onLine_keepsBounds {s : State} {f : LinePort → LinePort} (h : s.line.KeepsBounds (f s.line)) :
    KeepsBounds s (s.onLine f) :=
  { KeepsBounds.refl s with line := h }

/-- The Line Port's link changed, and the requests of a change of its state. -/
theorem lineLink_keepsBounds {s : State} {f : Link → Link} (h : s.line.link.count ≤ 60 → (f s.line.link).count ≤ 60) :
    KeepsBounds s (raiseLineLink s (s.onLine fun l => { l with link := f l.link })) := by
  have linked : KeepsBounds s (s.onLine fun l => { l with link := f l.link }) := onLine_keepsBounds ⟨id, h⟩
  unfold raiseLineLink
  split
  · exact linked
  · exact linked.trans (.of_view rfl)

theorem restartLineLink_keepsBounds (s : State) : KeepsBounds s (restartLineLink s) :=
  lineLink_keepsBounds (f := Link.restarted) fun _ => Nat.zero_le _

theorem lineLinkSecond_keepsBounds (s : State) : KeepsBounds s (lineLinkSecond s) :=
  lineLink_keepsBounds Link.second_count_le

/-! ### Address bytes and frames (R123 to R126, R129) -/

/-- A port whose queue and link are as they were receives no frame that it did not receive before. -/
theorem LinePort.KeepsBounds.of_phase {l m : LinePort} (queue : m.queue = l.queue) (link : m.link = l.link)
    (phase : m.phase = .receiving → l.phase = .receiving) : l.KeepsBounds m where
  queue h := queue ▸ ⟨h.1, fun receiving => h.2 (phase receiving)⟩
  link h := link ▸ h

/-- A frame begins with a slot free alone (R123). -/
theorem LinePort.KeepsBounds.received {l m : LinePort} (slot : l.hasSlot = true) (queue : m.queue = l.queue)
    (link : m.link = l.link) : l.KeepsBounds m where
  queue h := queue ▸ ⟨h.1, fun _ => of_decide_eq_true slot⟩
  link h := link ▸ h

theorem LinePort.ownWrite_keepsBounds (l : LinePort) : l.KeepsBounds l.ownWrite := by
  unfold LinePort.ownWrite
  split
  · rename_i slot
    exact .received slot rfl rfl
  · exact .of_phase rfl rfl nofun

theorem LinePort.broadcastWrite_keepsBounds (l : LinePort) : l.KeepsBounds l.broadcastWrite := by
  unfold LinePort.broadcastWrite
  split
  · split
    · rename_i slot
      exact .received slot rfl rfl
    · exact .of_phase rfl rfl nofun
  · exact .of_phase rfl rfl nofun

theorem statusRead_keepsBounds (s : State) : KeepsBounds s (statusRead s) := by
  have serving : KeepsBounds s (s.onLine fun l =>
      { l.addressed .ack (.serving s.lineBlock) with broadcastMissed := false }) :=
    onLine_keepsBounds (.of_phase rfl rfl nofun)
  exact serving.trans (restartLineLink_keepsBounds _)

theorem takeAddress_keepsBounds (b : Byte) (s : State) : KeepsBounds s (takeAddress b s) := by
  unfold takeAddress
  split
  · split
    · exact statusRead_keepsBounds s
    · exact onLine_keepsBounds s.line.ownWrite_keepsBounds
  · split
    · exact onLine_keepsBounds s.line.broadcastWrite_keepsBounds
    · exact onLine_keepsBounds (.of_phase rfl rfl nofun)

/-- A good frame joins the queue in the slot that was free for it (R125, R126). -/
theorem judged_keepsBounds (bytes : List Byte) {s : State} (receiving : s.line.phase = .receiving) :
    KeepsBounds s (judged bytes s) := by
  have ended : KeepsBounds s (s.onLine fun l =>
      { l with phase := .idle, byteAnswers := frameAnswers bytes, clock := .stopped }) :=
    onLine_keepsBounds (.of_phase rfl rfl nofun)
  have discarded (r : LineResult) (u : State) : KeepsBounds u (u.onLine fun l => { l with lastResult := r }) :=
    onLine_keepsBounds (.of_phase rfl rfl id)
  unfold judged
  dsimp only
  split
  · exact ended.trans (discarded _ _)
  · rename_i f _
    have joined : KeepsBounds s (s.onLine fun l =>
        { l with
          phase := .idle, byteAnswers := frameAnswers bytes, clock := .stopped, queue := l.queue ++ [f] }) := by
      refine onLine_keepsBounds ⟨fun h => ⟨?_, nofun⟩, id⟩
      rw [List.length_append, List.length_singleton]
      exact h.2 receiving
    exact joined.trans (restartLineLink_keepsBounds _)

theorem endTransaction_keepsBounds (bytes : List Byte) (s : State) : KeepsBounds s (endTransaction bytes s) := by
  unfold endTransaction
  split
  · rename_i receiving
    exact judged_keepsBounds bytes receiving
  · exact onLine_keepsBounds (.of_phase rfl rfl nofun)

/-! ### Edges of the two wires (R122) -/

theorem LinePort.dataByte_keepsBounds (l : LinePort) (sda : Bool) : l.KeepsBounds (l.dataByte sda) := by
  unfold LinePort.dataByte
  dsimp only
  split <;> exact .of_phase rfl rfl id

theorem LinePort.acknowledged_keepsBounds (l : LinePort) (sda : Bool) : l.KeepsBounds (l.acknowledged sda) := by
  unfold LinePort.acknowledged
  dsimp only
  split
  · refine .of_phase rfl rfl fun (receiving : (if sda then _ else l.phase) = _) => ?_
    cases sda
    · exact receiving
    · cases receiving
  all_goals exact .of_phase rfl rfl id

theorem sclRises_keepsBounds (sda : Bool) (s : State) : KeepsBounds s (sclRises sda s) := by
  have clocked (c : LineClock) (u : State) : KeepsBounds u (u.onLine fun l => { l with clock := c }) :=
    onLine_keepsBounds (.of_phase rfl rfl id)
  unfold sclRises
  dsimp only
  split
  · exact .refl s
  · split
    · exact clocked _ s
    · split
      · exact onLine_keepsBounds (s.line.acknowledged_keepsBounds sda)
      · split
        · exact (takeAddress_keepsBounds _ s).trans (clocked _ _)
        · exact onLine_keepsBounds (s.line.dataByte_keepsBounds sda)

theorem lineEdge_keepsBounds (e : LineEdge) (s : State) : KeepsBounds s (lineEdge e s) := by
  have stop : KeepsBounds s (stopTaken s) := endTransaction_keepsBounds _ s
  have start : KeepsBounds s (startTaken s) := stop.trans (onLine_keepsBounds (.of_phase rfl rfl id))
  cases e with
  | sclRises sda => exact sclRises_keepsBounds sda s
  | sclFalls => exact onLine_keepsBounds (.of_phase rfl rfl id)
  | sdaFalls scl =>
    cases scl
    · exact .refl s
    · exact start
  | sdaRises scl =>
    cases scl
    · exact .refl s
    · exact stop

/-! ### Frames out of the queue (R126) -/

/-- The oldest frame leaves the queue, and its rule and result follow. -/
theorem takeFrame_keepsBounds {rule : FrameRule}
    (hr : ∀ fr apply, rule fr = some apply → ∀ s : State, KeepsBounds s (apply s).1) (s : State) :
    KeepsBounds s (takeFrame rule s) := by
  unfold takeFrame
  split
  · exact .refl s
  · rename_i f rest queued
    split
    · exact .refl s
    · rename_i apply ruled
      have left : KeepsBounds s (s.onLine fun l => { l with queue := rest }) := by
        refine onLine_keepsBounds ⟨fun h => ?_, id⟩
        rw [queued, List.length_cons] at h
        exact ⟨by dsimp only; omega, fun receiving => (Nat.lt_succ_self _).trans (h.2 receiving)⟩
      exact (left.trans (hr f apply ruled _)).trans (onLine_keepsBounds (.of_phase rfl rfl id))

theorem pullRule_keepsBounds (fr : Frame) (apply : State → State × LineResult) (e : pullRule fr = some apply)
    (s : State) : KeepsBounds s (apply s).1 := by
  unfold pullRule at e
  split at e <;> cases e
  exact applyPull_keepsBounds _ _ _ s

theorem releaseRule_keepsBounds (fr : Frame) (apply : State → State × LineResult) (e : releaseRule fr = some apply)
    (s : State) : KeepsBounds s (apply s).1 := by
  unfold releaseRule at e
  split at e <;> cases e
  exact applyRelease_keepsBounds _ s

theorem leaderAckRule_keepsBounds (fr : Frame) (apply : State → State × LineResult) (e : leaderAckRule fr = some apply)
    (s : State) : KeepsBounds s (apply s).1 := by
  unfold leaderAckRule at e
  split at e <;> cases e
  exact applyLeaderAck_keepsBounds _ _ s

theorem leaderResetRule_keepsBounds (fr : Frame) (apply : State → State × LineResult)
    (e : leaderResetRule fr = some apply) (s : State) : KeepsBounds s (apply s).1 := by
  unfold leaderResetRule at e
  split at e <;> cases e
  exact applyLeaderReset_keepsBounds _ _ s

theorem bufferSetRule_keepsBounds (fr : Frame) (apply : State → State × LineResult) (e : bufferSetRule fr = some apply)
    (s : State) : KeepsBounds s (apply s).1 := by
  unfold bufferSetRule at e
  split at e <;> cases e
  exact applyBufferSet_keepsBounds _ _ s

theorem countAdjustRule_keepsBounds (fr : Frame) (apply : State → State × LineResult)
    (e : countAdjustRule fr = some apply) (s : State) : KeepsBounds s (apply s).1 := by
  unfold countAdjustRule at e
  split at e <;> cases e
  exact applyCountAdjust_keepsBounds _ s

theorem shiftStartRule_keepsBounds (fr : Frame) (apply : State → State × LineResult)
    (e : shiftStartRule fr = some apply) (s : State) : KeepsBounds s (apply s).1 := by
  unfold shiftStartRule at e
  split at e <;> cases e
  exact applyShiftStart_keepsBounds _ _ s

theorem timeMarkRule_keepsBounds (fr : Frame) (apply : State → State × LineResult) (e : timeMarkRule fr = some apply)
    (s : State) : KeepsBounds s (apply s).1 := by
  unfold timeMarkRule at e
  split at e <;> cases e
  exact applyTimeMark_keepsBounds _ _ s

theorem keepaliveRule_keepsBounds (fr : Frame) (apply : State → State × LineResult) (e : keepaliveRule fr = some apply)
    (s : State) : KeepsBounds s (apply s).1 := by
  unfold keepaliveRule at e
  split at e <;> cases e
  exact .refl s

/-! ### Plant commands and reads (R132, R133) -/

theorem setTransaction_keepsBounds (t : Transaction) (s : State) : KeepsBounds s (setTransaction t s) := .of_view rfl

theorem setPlantResult_keepsBounds (r : PlantResult) (s : State) : KeepsBounds s (setPlantResult r s) := .of_view rfl

theorem decoded_keepsBounds {s t : State} {c : PlantCommand} (e : s.decoded c = some t) : KeepsBounds s t := by
  unfold State.decoded at e
  split at e
  · cases e
    unfold commandByteTaken
    split
    · exact restartPlantLink_keepsBounds s
    · exact (restartPlantLink_keepsBounds s).trans (serve_keepsBounds _)
  · split at e <;> cases e
    exact .refl s
  all_goals cases e

theorem takeCommand_keepsBounds {c : PlantCommand} {rule : CommandRule} (hr : ∀ s, KeepsBounds s (rule s).1)
    (s : State) : KeepsBounds s (takeCommand c rule s) := by
  unfold takeCommand
  split
  · exact .refl s
  · rename_i decoded
    have ruled := (decoded_keepsBounds decoded).trans (hr _)
    exact (ruled.trans (setPlantResult_keepsBounds _ _)).trans (setTransaction_keepsBounds _ _)

theorem takeRead_keepsBounds {c : PlantCommand} {reply : State → Transaction} (s : State) :
    KeepsBounds s (takeRead c reply s) := by
  unfold takeRead
  split
  · exact .refl s
  · rename_i decoded
    exact (decoded_keepsBounds decoded).trans (setTransaction_keepsBounds _ _)

theorem takeOrigin_keepsBounds (origin : Nat) (s : State) : KeepsBounds s (takeOrigin origin s) := by
  have clamped (u : State) : KeepsBounds u (clampCursor u) := .of_view rfl
  have corner (u : State) : KeepsBounds u (cornerCursor u) := .of_view rfl
  unfold takeOrigin
  split
  · exact .refl s
  · rename_i decoded
    have begun := decoded_keepsBounds decoded
    split
    · exact (begun.trans (setPlantResult_keepsBounds _ _)).trans (setTransaction_keepsBounds _ _)
    · split
      · exact (begun.trans (clamped _)).trans (setTransaction_keepsBounds _ _)
      · exact (begun.trans (corner _)).trans (setTransaction_keepsBounds _ _)

theorem takeReadPixels_keepsBounds (s : State) : KeepsBounds s (takeReadPixels s) := by
  have clamped (u : State) : KeepsBounds u (clampCursor u) := .of_view rfl
  unfold takeReadPixels
  split
  · exact .refl s
  · rename_i decoded
    exact ((decoded_keepsBounds decoded).trans (clamped _)).trans (setTransaction_keepsBounds _ _)

theorem argumentsFollow_keepsBounds (code : Byte) (s : State) : KeepsBounds s (argumentsFollow code s) := by
  unfold argumentsFollow
  split
  · exact .refl s
  · split
    · exact (restartPlantLink_keepsBounds s).trans (setTransaction_keepsBounds _ _)
    · exact .refl s

theorem applyLinkSettings_keepsBounds (lineCode plantCode settings : Byte) (s : State) :
    KeepsBounds s (applyLinkSettings lineCode plantCode settings s).1 := by
  unfold applyLinkSettings
  split
  · exact .refl s
  · exact { KeepsBounds.refl s with line := ⟨id, id⟩ }

/-- The cursor moves past the record of the slot where it has one (R115). -/
theorem endHistorySlot_keepsBounds (s : State) : KeepsBounds s (endHistorySlot s) := by
  unfold endHistorySlot
  split
  · refine cursor_keepsBounds rfl fun h n moved => ?_
    dsimp only at moved
    split at moved
    · rename_i c _ at_
      split at moved
      · exact cursorPast_lt moved
      · exact h.2 n (at_.trans moved)
    · exact h.2 n moved
  · exact .refl s

/-! ### Framing, and replies captured (R116, R132, R135 to R140, R153) -/

theorem csFalls_keepsBounds (s : State) : KeepsBounds s (csFalls s) := by
  unfold csFalls
  split <;> exact .of_view rfl

theorem csRises_keepsBounds (partialBytes : Nat) (s : State) : KeepsBounds s (csRises partialBytes s) := .of_view rfl

theorem unknownCode_keepsBounds (code : Byte) (s : State) : KeepsBounds s (unknownCode code s) := by
  unfold unknownCode
  split <;> exact .of_view rfl

theorem captureStatus_keepsBounds (s : State) : KeepsBounds s (captureStatus s) := by
  unfold captureStatus
  split <;> exact .of_view rfl

theorem flagByteSent_keepsBounds (s : State) : KeepsBounds s (flagByteSent s) := by
  unfold flagByteSent
  (repeat' split) <;> exact .of_view rfl

theorem capturePresence_keepsBounds (s : State) : KeepsBounds s (capturePresence s) := by
  unfold capturePresence
  (repeat' split) <;> exact .of_view rfl

theorem captureStation_keepsBounds (s : State) : KeepsBounds s (captureStation s) := by
  unfold captureStation
  split <;> exact .of_view rfl

theorem beginCallSlot_keepsBounds (s : State) : KeepsBounds s (beginCallSlot s) := by
  unfold beginCallSlot
  (repeat' split) <;> exact .of_view rfl

theorem capturePace_keepsBounds (s : State) : KeepsBounds s (capturePace s) := by
  unfold capturePace
  split <;> exact .of_view rfl

theorem captureLossEntry_keepsBounds (s : State) : KeepsBounds s (captureLossEntry s) := by
  unfold captureLossEntry
  (repeat' split) <;> exact .of_view rfl

theorem captureSummary_keepsBounds (s : State) : KeepsBounds s (captureSummary s) := by
  unfold captureSummary
  split <;> exact .of_view rfl

theorem beginHistorySlot_keepsBounds (s : State) : KeepsBounds s (beginHistorySlot s) := by
  unfold beginHistorySlot
  split <;> exact .of_view rfl

theorem beginPixel_keepsBounds (s : State) : KeepsBounds s (beginPixel s) := by
  unfold beginPixel
  split <;> exact .of_view rfl

theorem endPixel_keepsBounds (s : State) : KeepsBounds s (endPixel s) := by
  unfold endPixel
  split <;> exact .of_view rfl

/-! ### Pixels (R151) -/

theorem writePixel_view (s : State) (p : Pixel) : (writePixel s p).boundsView = s.boundsView := by
  unfold writePixel
  split <;> rfl

theorem applyGroup_keepsBounds (bytes : List Byte) (s : State) : KeepsBounds s (applyGroup bytes s) :=
  .of_view (applyGroup_proj State.boundsView writePixel_view s)

end Sys2Proof.Machine
end

section
/-! The bounds under the Composition Engine's and the tile chain's events, hard reset and the tick of the board. -/

namespace Sys2Proof.Machine

/-! ### The Composition Engine's events (R159, R162, R167) and XALERT (R177) -/

theorem scrollSecond_keepsBounds (s : State) : KeepsBounds s (scrollSecond s) := .of_view (by simp [State.boundsView])

theorem scrollStep_keepsBounds (s : State) : KeepsBounds s (scrollStep s) := .of_view (by simp [State.boundsView])

theorem toggleFlash_keepsBounds (s : State) : KeepsBounds s (toggleFlash s) := .of_view (by simp [State.boundsView])

theorem completePass_keepsBounds (i : Fin 8) (s : State) : KeepsBounds s (completePass i s) :=
  .of_view (by simp [State.boundsView])

theorem giveXalert_keepsBounds (m : LevelMoment) (s : State) : KeepsBounds s (giveXalert m s) :=
  .of_view (by simp [State.boundsView])

/-! ### The tile chain (R171 to R175) -/

/-- The Tile Driver changed within its bounds. -/
theorem onTiles_keepsBounds {s : State} {f : TileDriver → TileDriver} (h : s.tiles.InRange → (f s.tiles).InRange) :
    KeepsBounds s (s.onTiles f) :=
  { KeepsBounds.refl s with tiles := h }

theorem returned_inRange {p : TilePresence} (h : p.InRange) (present : Bool) : (p.returned present).InRange := by
  obtain ⟨-, absent⟩ := h
  unfold TilePresence.returned
  split
  · exact ⟨Nat.zero_le _, nofun⟩
  · split
    · exact ⟨by dsimp only; omega, fun gone => by have := absent gone; omega⟩
    · exact ⟨le_rfl, fun _ => rfl⟩

theorem portionEnds_inRange {d : TileDriver} (h : d.InRange) (m : Memory) (t : Fin 30) (present : Bool) :
    (d.portionEnds m t present).InRange := by
  unfold TileDriver.portionEnds
  dsimp only
  split
  · refine { h with tiles := fun j => ?_ }
    by_cases same : j = t
    · subst same
      simpa using returned_inRange (h.tiles j) present
    · simpa [same] using h.tiles j
  · exact { h with }

theorem portionEnds_keepsBounds (tile : Fin 30) (present : Bool) (s : State) :
    KeepsBounds s (s.onTiles fun t => t.portionEnds s.frame.pixels tile present) :=
  onTiles_keepsBounds fun h => portionEnds_inRange h _ _ _

theorem sendNext_inRange {d : TileDriver} (h : d.InRange) : d.sendNext.InRange := by
  unfold TileDriver.sendNext
  dsimp only
  split
  · exact { h with }
  · exact h

theorem startedCount_le (tst : BitVec 2) : startedCount tst ≤ 10 := by
  unfold startedCount
  split <;> omega

theorem applyRestart_keepsBounds (s : State) : KeepsBounds s (applyRestart s).1 :=
  onTiles_keepsBounds (f := fun t => t.restarted (startedCount s.straps.tst)) fun h =>
    { h with startCount := startedCount_le _ }

theorem startTimer_keepsBounds (s : State) :
    KeepsBounds s (s.onTiles fun t => { t with startCount := satSucc 10 t.startCount }) :=
  onTiles_keepsBounds fun h => { h with startCount := satSucc_le h.startCount }

theorem applyIntensity_keepsBounds (target ramp flags : Nat) (s : State) :
    KeepsBounds s (applyIntensity target ramp flags s).1 := by
  unfold applyIntensity
  split
  · exact .refl s
  · rename_i coded
    have set : KeepsBounds s (s.onTiles fun t =>
        { t with
          target := min 63 target, rampCode := ramp, asymmetric := flags.testBit 0, override := flags.testBit 1
          decreaseCount := 0 }) :=
      onTiles_keepsBounds fun h =>
        { h with target := Nat.min_le_left _ _, rampCode := Nat.le_of_not_lt coded, decreaseCount := Nat.zero_le _ }
    dsimp only
    split
    · exact set.trans (onTiles_keepsBounds fun h => { h with actual := effectiveTarget_le h.target })
    · exact set

/-- The intensity moves one step toward a target in its range (R175). -/
theorem ramped_inRange {d : TileDriver} (h : d.InRange) {target : Nat} (bound : target ≤ 63) :
    (d.ramped target).InRange := by
  have down : d.actual - 1 ≤ 63 := (Nat.sub_le _ _).trans h.actual
  unfold TileDriver.ramped
  split
  · rename_i below
    exact { h with actual := Nat.le_trans below bound, decreaseCount := Nat.zero_le _ }
  · split
    · exact { h with decreaseCount := Nat.zero_le _ }
    · split
      · split
        · exact { h with actual := down, decreaseCount := Nat.zero_le _ }
        · exact { h with decreaseCount := by dsimp only; omega }
      · exact { h with actual := down, decreaseCount := Nat.zero_le _ }

theorem rampExpires_keepsBounds (s : State) : KeepsBounds s (rampExpires s) := by
  unfold rampExpires
  split
  · exact .refl s
  · exact onTiles_keepsBounds fun h => ramped_inRange h (effectiveTarget_le h.target)

/-! ### Hard reset and the tick (R178) -/

/-- Every item at its hard-reset value lies within its bounds. -/
theorem held_keepsBounds (c : ResetConditions) (straps : Straps) (queue : List Instr) (s : State) :
    KeepsBounds s (.held c straps queue) := by
  obtain ⟨actual, runClock, line, plant, coast, tiles, -, target, level, decreaseCount, rampCode⟩ := reset_countsInRange
  exact {
    line := ⟨fun _ => reset_queueForm, fun _ => line⟩
    history := fun _ => reset_historyForm
    actual := fun _ => actual
    runClock := fun _ => runClock
    plantLink := fun _ => plant
    coast := fun _ => coast
    tiles := fun _ => ⟨tiles, Nat.zero_le _, target, Nat.zero_le _, decreaseCount, rampCode⟩ }

theorem endReset_keepsBounds (adr : BitVec 3) (tst : BitVec 2) (xtal : Bool) (s : State) :
    KeepsBounds s (endReset adr tst xtal s) :=
  { KeepsBounds.refl s with tiles := fun h => { h with startCount := startedCount_le _ } }

theorem tick_keepsBounds (s : State) : KeepsBounds s (tick s) := by
  have drawn (l : List (Fin 8)) (u : State) : KeepsBounds u (l.foldl drawNext u) := by
    induction l generalizing u with
    | nil => exact .refl u
    | cons i l ih => exact (KeepsBounds.of_view (by simp [State.boundsView])).trans (ih (drawNext u i))
  unfold tick
  split
  · exact .refl s
  · exact (drawn _ s).trans (onTiles_keepsBounds sendNext_inRange)

end Sys2Proof.Machine
end

section
/-! Every step keeps the bounds of the queue, the log and the counts, and leaves no request latched. -/

namespace Sys2Proof.Machine

/-! ### The bounds, command by command -/

/-- Every command but an edge of SCK keeps each bound. -/
theorem exec_keepsBounds {c : Instr} {s t : State} (hc : ∀ e, c ≠ .commandByte (.edge e)) (e : exec c s = .next t) :
    KeepsBounds s t := by
  cases c
  -- hard reset and its end
  case hardReset input =>
    have next := (execHardReset_next input s).symm.trans e
    dsimp only at next
    split at next <;> cases next
    · exact held_keepsBounds _ _ _ s
    · exact .of_view rfl
  case endOfHardReset adr tst xtal gone =>
    have next := (execEndOfHardReset_next adr tst xtal gone s).symm.trans e
    have lifted : KeepsBounds s { s with conditions := s.conditions.without gone } := .of_view rfl
    dsimp only at next
    split at next <;> cases next
    · exact lifted.trans (endReset_keepsBounds _ _ _ _)
    · exact lifted
  -- inputs and clocks
  case step p => exact centreEvent_keepsBounds (givePitch_keepsBounds p.zone p.moment) e
  case xstopChange m => exact centreEvent_keepsBounds (giveXstop_keepsBounds m) e
  case xalertChange m => exact event_keepsBounds (giveXalert_keepsBounds m) e
  case stallMonitorSecond k =>
    have second (s : State) : KeepsBounds s (if s.layout.zoneUsed k then monitorSecond k s else s) := by
      split
      · exact monitorSecond_keepsBounds k s
      · exact .refl s
    exact centreEvent_keepsBounds second e
  case runClockSecond => exact event_keepsBounds runClock_keepsBounds e
  case shiftTimerSecond => exact centreEvent_keepsBounds shiftSecond_keepsBounds e
  case closeCompletion => exact centreEvent_keepsBounds completeClose_keepsBounds e
  case callSecond only => exact centreEvent_keepsBounds (callSeconds_keepsBounds only) e
  case lineLinkSecond => exact event_keepsBounds lineLinkSecond_keepsBounds e
  case plantLinkSecond => exact event_keepsBounds plantLinkSecond_keepsBounds e
  -- the Composition Engine and the tile chain
  case scrollSecond => exact event_keepsBounds scrollSecond_keepsBounds e
  case scrollStep => exact event_keepsBounds scrollStep_keepsBounds e
  case flashToggle => exact event_keepsBounds toggleFlash_keepsBounds e
  case renderPassComplete entry => exact event_keepsBounds (completePass_keepsBounds entry) e
  case startTimerExpiry => exact event_keepsBounds startTimer_keepsBounds e
  case rampExpiry => exact event_keepsBounds rampExpires_keepsBounds e
  case presenceReturn tile present => exact event_keepsBounds (portionEnds_keepsBounds tile present) e
  -- the Line Port
  case addressByte input =>
    cases input with
    | byte b => exact event_keepsBounds (takeAddress_keepsBounds b) e
    | edge x => exact event_keepsBounds (lineEdge_keepsBounds x) e
  case lineStatusRead => exact event_keepsBounds statusRead_keepsBounds e
  case lineFrame bytes bits => exact event_keepsBounds (endTransaction_keepsBounds bytes) e
  case pull => exact centreEvent_keepsBounds (takeFrame_keepsBounds pullRule_keepsBounds) e
  case release => exact centreEvent_keepsBounds (takeFrame_keepsBounds releaseRule_keepsBounds) e
  case leaderAck => exact event_keepsBounds (takeFrame_keepsBounds leaderAckRule_keepsBounds) e
  case leaderReset => exact centreEvent_keepsBounds (takeFrame_keepsBounds leaderResetRule_keepsBounds) e
  case bufferSet => exact centreEvent_keepsBounds (takeFrame_keepsBounds bufferSetRule_keepsBounds) e
  case countAdjust => exact centreEvent_keepsBounds (takeFrame_keepsBounds countAdjustRule_keepsBounds) e
  case lineShiftStart => exact centreEvent_keepsBounds (takeFrame_keepsBounds shiftStartRule_keepsBounds) e
  case timeMark => exact event_keepsBounds (takeFrame_keepsBounds timeMarkRule_keepsBounds) e
  case keepalive => exact event_keepsBounds (takeFrame_keepsBounds keepaliveRule_keepsBounds) e
  -- framing and reads of the Plant Port
  case csFalling => exact event_keepsBounds csFalls_keepsBounds e
  case csRising bytes bits => exact event_keepsBounds (csRises_keepsBounds bytes) e
  case unknownCommand code => exact event_keepsBounds (unknownCode_keepsBounds code) e
  case commandByte input =>
    cases input with
    | byte code => exact event_keepsBounds (argumentsFollow_keepsBounds code) e
    | edge x => exact absurd rfl (hc x)
  case readStatus m =>
    cases m with
    | taken => exact event_keepsBounds takeRead_keepsBounds e
    | firstByte => exact event_keepsBounds captureStatus_keepsBounds e
  case statusFlagByteSent => exact event_keepsBounds flagByteSent_keepsBounds e
  case presenceExtension => exact event_keepsBounds capturePresence_keepsBounds e
  case readStation m =>
    cases m with
    | taken => exact event_keepsBounds takeRead_keepsBounds e
    | firstByte => exact event_keepsBounds captureStation_keepsBounds e
  case readCalls => exact event_keepsBounds takeRead_keepsBounds e
  case callRecordSlot => exact event_keepsBounds beginCallSlot_keepsBounds e
  case readPace m =>
    cases m with
    | taken => exact event_keepsBounds takeRead_keepsBounds e
    | firstByte => exact event_keepsBounds capturePace_keepsBounds e
  case readLoss m =>
    cases m with
    | taken => exact event_keepsBounds takeRead_keepsBounds e
    | firstByte => exact event_keepsBounds captureLossEntry_keepsBounds e
  case readSummary m =>
    cases m with
    | taken => exact event_keepsBounds takeRead_keepsBounds e
    | firstByte => exact event_keepsBounds captureSummary_keepsBounds e
  case readHistory => exact event_keepsBounds takeRead_keepsBounds e
  case historySlot m =>
    cases m with
    | begins => exact event_keepsBounds beginHistorySlot_keepsBounds e
    | ends => exact event_keepsBounds endHistorySlot_keepsBounds e
  -- commands of the Plant Port to the centre
  case rewindHistory => exact event_keepsBounds (takeCommand_keepsBounds applyRewind_keepsBounds) e
  case stagePlan l k o n b =>
    exact event_keepsBounds (takeCommand_keepsBounds (applyStagePlan_keepsBounds l k o n b)) e
  case commitPlan mode => exact centreEvent_keepsBounds (takeCommand_keepsBounds (applyCommit_keepsBounds _)) e
  case plantShiftStart number offset =>
    exact centreEvent_keepsBounds (takeCommand_keepsBounds (applyShiftStart_keepsBounds _ _)) e
  case shiftClose => exact centreEvent_keepsBounds (takeCommand_keepsBounds applyShiftClose_keepsBounds) e
  case ackCall number responder => exact event_keepsBounds (takeCommand_keepsBounds (applyAckCall_keepsBounds _ _)) e
  case clearCall number responder =>
    exact centreEvent_keepsBounds (takeCommand_keepsBounds (applyClearCall_keepsBounds _ _)) e
  case writeLayoutZone =>
    exact centreEvent_keepsBounds (takeCommand_keepsBounds (applyLayoutZone_keepsBounds _ _ _ _ _ _ _ _)) e
  case writeLayoutStation =>
    exact centreEvent_keepsBounds (takeCommand_keepsBounds (applyLayoutStation_keepsBounds _ _ _)) e
  case writeLinkSettings a b c =>
    exact centreEvent_keepsBounds (takeCommand_keepsBounds (applyLinkSettings_keepsBounds a b c)) e
  case discardPlan | writePolicy => exact event_keepsBounds (takeCommand_keepsBounds fun _ => .of_view rfl) e
  -- the Frame Store, the Layout Table and the tiles
  case setWindow | setCursor | setAddressControl | setColourMode | setMask | setMark | returnToMark | writeRegion =>
    refine event_keepsBounds (takeCommand_keepsBounds fun s => .of_view ?_) e
    simp [State.boundsView]
  case writePixels origin => exact event_keepsBounds (takeOrigin_keepsBounds _) e
  case pixelGroup bytes => exact event_keepsBounds (applyGroup_keepsBounds bytes) e
  case readPixels => exact event_keepsBounds takeReadPixels_keepsBounds e
  case pixelRead m =>
    cases m with
    | begins => exact event_keepsBounds beginPixel_keepsBounds e
    | ends => exact event_keepsBounds endPixel_keepsBounds e
  case setIntensity target ramp flags =>
    exact event_keepsBounds (takeCommand_keepsBounds (applyIntensity_keepsBounds _ _ _)) e
  case restartTiles => exact event_keepsBounds (takeCommand_keepsBounds applyRestart_keepsBounds) e

/-- A property that an event keeps with the bounds is kept by the step. -/
theorem step_keeps_of_bounds {I : State → Prop} (keeps : ∀ {s t : State}, KeepsBounds s t → I s → I t) {s t : State}
    (h : I s) (e : step s = .next t) : I t :=
  step_keeps_of_rows (I := I) (fun _ _ => keeps (.of_view rfl)) (fun _ _ => keeps (.of_view rfl))
    (fun s => keeps (tick_keepsBounds s)) (fun hc h e => keeps (exec_keepsBounds hc e) h) h e

/-! ### No request stays latched (log 9) -/

theorem event_quiet {f : State → State} {s t : State} (h : s.Quiet) (e : event f s = .next t) : t.Quiet := by
  cases reset : s.inReset with
  | true =>
    rw [event_held f s reset] at e
    cases e
    exact h
  | false =>
    rw [event_next f s reset] at e
    cases e
    exact serve_requests _

theorem centreEvent_quiet {f : State → State} {s t : State} (h : s.Quiet) (e : centreEvent f s = .next t) : t.Quiet :=
  event_quiet (f := fun s => decideAlert s (f s)) h e

/-- Every command but hard reset, its end and an edge of SCK is an event, which serves what it latched. -/
theorem exec_quiet {c : Instr} {s t : State} (hc : ∀ e, c ≠ .commandByte (.edge e)) (h : s.Quiet)
    (e : exec c s = .next t) : t.Quiet := by
  cases c
  case hardReset input =>
    have next := (execHardReset_next input s).symm.trans e
    dsimp only at next
    split at next <;> cases next
    · exact (rfl : Engine.reset.requests = .none)
    · exact h
  case endOfHardReset adr tst xtal gone =>
    have next := (execEndOfHardReset_next adr tst xtal gone s).symm.trans e
    dsimp only at next
    split at next <;> cases next
    · exact serve_requests _
    · exact h
  case commandByte input =>
    cases input with
    | byte code => exact event_quiet h e
    | edge x => exact absurd rfl (hc x)
  case runClockSecond =>
    have next : execRunClockSecond s = .next t := e
    unfold execRunClockSecond at next
    exact event_quiet h next
  case step | xstopChange | stallMonitorSecond | shiftTimerSecond | closeCompletion | callSecond | pull | release
  | leaderReset | bufferSet | countAdjust | lineShiftStart | commitPlan | plantShiftStart | shiftClose | clearCall
  | writeLayoutZone | writeLayoutStation | writeLinkSettings => exact centreEvent_quiet h e
  all_goals exact event_quiet h e

theorem drawNext_requests (s : State) (i : Fin 8) : (drawNext s i).engine.requests = s.engine.requests := by
  unfold drawNext
  dsimp only
  split
  · rfl
  · split <;> rfl

theorem tick_quiet (s : State) (h : s.Quiet) : (tick s).Quiet := by
  have drawn (l : List (Fin 8)) (u : State) (hu : u.Quiet) : (l.foldl drawNext u).Quiet := by
    induction l generalizing u with
    | nil => exact hu
    | cons i l ih => exact ih _ ((drawNext_requests u i).trans hu)
  have sent (u : State) (hu : u.Quiet) : (u.onTiles TileDriver.sendNext).Quiet := hu
  unfold tick
  split
  · exact h
  · exact sent _ (drawn _ s h)

/-- Settles O12: the step keeps the queue, the log and the counts with `KeepsBounds`, and the latch with
`exec_quiet`. -/
theorem stepKeepsQueueHistoryAndCountBounds : Obligations.StepKeepsQueueHistoryAndCountBounds := by
  refine ⟨fun s t h e => ?queue, fun s t h e => ?history, fun s t h e => ?counts, fun s t h e => ?quiet⟩
  case queue => exact step_keeps_of_bounds (I := State.QueueForm) KeepsBounds.queue h e
  case history => exact step_keeps_of_bounds (I := State.HistoryForm) KeepsBounds.history h e
  case counts => exact step_keeps_of_bounds (I := State.CountsInRange) KeepsBounds.counts h e
  case quiet => exact step_keeps_of_rows (I := State.Quiet) (fun _ _ h => h) (fun _ _ h => h) tick_quiet exec_quiet h e

end Sys2Proof.Machine
end

section
/-! The end of hard reset (R159, R171, R173, R178). -/

namespace Sys2Proof.Machine

theorem all_has (r : Role) :
    Requests.all.has r = decide (r ∈ [Role.pace, .stations, .ticker, .clock, .banner]) := by
  cases r <;> rfl

/-- The start count at the end of hard reset (R173). -/
theorem startedCount_eq (tst : BitVec 2) : startedCount tst = if tst = 0 then 10 else 0 := by
  revert tst
  decide

/-- Ending hard reset requests every engine role, and leaves the rest of the engine as it was (R159). -/
theorem endReset_requestedOnly (adr : BitVec 3) (tst : BitVec 2) (xtal : Bool) {s u : State}
    (engine : u.engine = s.engine) (quiet : s.Quiet) :
    RequestedOnly [.pace, .stations, .ticker, .clock, .banner] s (endReset adr tst xtal u) := by
  refine serve_RequestedOnly _ ?_ all_has
  rw [engine, ← quiet]

/-- Settles O14: `execEndOfHardReset_next` says whether the reset ends, and `endReset` then leaves its blocks as read
off. -/
theorem endOfHardResetSamplesStrapsAndStarts : Obligations.EndOfHardResetSamplesStrapsAndStarts := by
  intro adr tst xtal gone s quiet c conditions present
  have without : s.conditions.without gone = conditions := by cases gone <;> rfl
  have next := execEndOfHardReset_next adr tst xtal gone s
  rw [without] at next
  have absent : ¬present ↔ conditions.supplyLow = false ∧ conditions.rstnLow = false := by simp [present]
  by_cases ends : s.inReset = true ∧ conditions.supplyLow = false ∧ conditions.rstnLow = false
  · refine ⟨_, next.trans (congrArg _ (if_pos ends)), rfl, fun stays => ?_, fun _ _ => ?_⟩
    · obtain ⟨inReset, gone⟩ := ends
      rcases stays with running | present
      · exact absurd inReset (by simp [running])
      · exact absurd present (absent.2 gone)
    · have noReset : (endReset adr tst xtal { s with conditions := conditions }).inReset = false := by
        show (conditions.supplyLow || conditions.rstnLow) = false
        rw [ends.2.1, ends.2.2]
        rfl
      exact ⟨rfl, noReset, rfl, rfl, rfl, startedCount_eq tst, endReset_requestedOnly adr tst xtal rfl quiet⟩
  · refine ⟨_, next.trans (congrArg _ (if_neg ends)), rfl, fun _ => rfl, fun inReset gone => ?_⟩
    exact absurd ⟨inReset, absent.1 gone⟩ ends

end Sys2Proof.Machine
end

section
/-! Events of the two ports, taken with no request latched. -/

namespace Sys2Proof.Machine

/-- An event that changes nothing. -/
theorem event_unchanged {f : State → State} {s : State} (running : s.inReset = false) (quiet : s.Quiet)
    (h : f s = s) : event f s = .next s := by
  rw [event_next f s running, h, serve_quiet s quiet]

/-- The same for an event of the centre. -/
theorem centreEvent_unchanged {f : State → State} {s : State} (running : s.inReset = false) (quiet : s.Quiet)
    (causes : s.CausesCurrent) (h : f s = s) : centreEvent f s = .next s := by
  rw [centreEvent_next f s running, h, decideAlert_self s causes, serve_quiet s quiet]

/-- An event that changes the Line Port at most. -/
theorem event_onLine {f : State → State} {s : State} {g : LinePort → LinePort} (running : s.inReset = false)
    (quiet : s.Quiet) (h : f s = s.onLine g) : event f s = .next { s with line := g s.line } := by
  rw [event_next f s running, h, serve_quiet (s.onLine g) quiet]
  rfl

/-- An event that changes the Plant Port at most. -/
theorem event_onPlant {f : State → State} {s : State} {g : PlantPort → PlantPort} (running : s.inReset = false)
    (quiet : s.Quiet) (h : f s = s.onPlant g) : event f s = .next { s with plant := g s.plant } := by
  rw [event_next f s running, h, serve_quiet (s.onPlant g) quiet]
  rfl

end Sys2Proof.Machine
end

section
/-! READ STATUS: its bytes and presence extension captured, and the collision flag cleared (R137, R181). -/

namespace Sys2Proof.Machine

/-! ### The flag byte (R181) -/

/-- At least one tile is ABSENT (R172). -/
theorem fault_eq (t : TileDriver) : t.fault = decide (∃ i : Fin 30, (t.tiles.at_ i).absent = true) := by
  rw [Bool.eq_iff_iff]
  simp [TileDriver.fault]

theorem flagByte_eq (s : State) :
    s.flagByte =
      BitVec.ofNat 8 (s.plant.collision.toNat + 2 * (decide (s.line.link.state ≠ .up)).toNat +
        4 * (decide (s.plant.link.state ≠ .up)).toNat + 8 * s.alert.xalert.taken.toNat +
        16 * s.alert.asserted.toNat + 32 * (decide (s.timer.state = .closing)).toNat + 64 * s.engine.overflow.toNat +
        128 * (decide (∃ i : Fin 30, (s.tiles.tiles.at_ i).absent = true)).toNat) := by
  simp [State.flagByte, flagBits, bitAt_eq, byteOf, State.lineDown, fault_eq, add_assoc]

/-! ### The presence extension (R181) -/

/-- Bit `j` of a byte of flags is flag `j`. -/
theorem flagBits_getLsbD (f : Nat → Bool) (j : Fin 8) :
    (byteOf (flagBits 0 ((List.range 8).map f))).getLsbD j.val = f j.val := by
  have bits : ∀ (a b c d e f g h : Bool) (j : Fin 8),
      (byteOf (flagBits 0 [a, b, c, d, e, f, g, h])).getLsbD j.val = [a, b, c, d, e, f, g, h].getD j.val false := by
    decide
  refine (bits (f 0) (f 1) (f 2) (f 3) (f 4) (f 5) (f 6) (f 7) j).trans ?_
  fin_cases j <;> rfl

/-- Each tile has its bit. -/
theorem presenceByte_getLsbD (t : TileDriver) (i : Fin 30) :
    (t.presenceByte (i.val / 8)).getLsbD (i.val % 8) = (t.tiles.at_ i).absent := by
  have place : 8 * (i.val / 8) + i.val % 8 = i.val := Nat.div_add_mod i.val 8
  refine (flagBits_getLsbD _ ⟨i.val % 8, Nat.mod_lt _ (by decide)⟩).trans ?_
  simp only [place, index_of_lt rfl]

/-- There are no tiles 30 and 31, so the last byte's top two bits are 0. -/
theorem presenceByte_last_lt (t : TileDriver) : t.presenceByte 3 < 64 := by
  have low : ∀ a b c d e f : Bool, byteOf (flagBits 0 [a, b, c, d, e, f, false, false]) < 64 := by decide
  exact low _ _ _ _ _ _

/-- The bytes of the extension, by number. -/
theorem presenceBytes_getD (t : TileDriver) {k : Nat} (h : k < 4) : t.presenceBytes.getD k 0 = t.presenceByte k := by
  simp [TileDriver.presenceBytes, h]

/-! ### The events (R137) -/

theorem readStatus_captures {s : State} (running : s.inReset = false) (quiet : s.Quiet)
    (h : s.plant.transaction = .status none) :
    exec (.readStatus .firstByte) s =
      .next { s with plant := { s.plant with
        transaction := .status (some ⟨s.statusBytes, s.plant.collision, false, none⟩) } } :=
  event_setTransaction (f := captureStatus) running quiet (by simp only [captureStatus, h])

theorem presenceExtension_captures {s : State} {r : StatusReply} (running : s.inReset = false) (quiet : s.Quiet)
    (h : s.plant.transaction = .status (some r)) (none : r.extension = none) :
    exec .presenceExtension s =
      .next { s with plant := { s.plant with
        transaction := .status (some { r with extension := some s.tiles.presenceBytes }) } } :=
  event_setTransaction (f := capturePresence) running quiet (by simp only [capturePresence, h, none, if_true])

/-- The extension is captured once. -/
theorem presenceExtension_again {s : State} {r : StatusReply} (running : s.inReset = false) (quiet : s.Quiet)
    (h : s.plant.transaction = .status (some r)) (some : r.extension ≠ none) : exec .presenceExtension s = .next s := by
  exact event_unchanged (f := capturePresence) running quiet (by simp only [capturePresence, h, if_neg some])

/-- The flag byte's last bit clears the collision flag where it was shown and no collision came since. -/
theorem statusFlagByteSent_clears {s : State} {r : StatusReply} (running : s.inReset = false) (quiet : s.Quiet)
    (h : s.plant.transaction = .status (some r)) :
    exec .statusFlagByteSent s =
      .next { s with plant := { s.plant with
        collision := s.plant.collision && !(r.shownCollision && !r.collisionSince) } } := by
  by_cases shown : r.shownCollision = true ∧ r.collisionSince = false
  · have cleared : flagByteSent s = s.onPlant fun p => { p with collision := false } := by
      simp only [flagByteSent, h, if_pos shown]
    have next := event_onPlant running quiet cleared
    rw [shown.1, shown.2, Bool.not_false, Bool.and_true, Bool.not_true, Bool.and_false]
    exact next
  · have kept : flagByteSent s = s := by simp only [flagByteSent, h, if_neg shown]
    have stays : (!(r.shownCollision && !r.collisionSince)) = true := by simpa [imp_iff_not_or] using shown
    rw [stays, Bool.and_true]
    exact event_unchanged running quiet kept

/-- Settles O45: each moment is one of the events above, and the bytes are those of `flagByte_eq` and
`presenceByte_getLsbD`. -/
theorem readStatusCapturesAndClearsShownCollision : Obligations.ReadStatusCapturesAndClearsShownCollision := by
  intro s running quiet
  refine ⟨fun first => ?first, fun r reply => ⟨statusFlagByteSent_clears running quiet reply, fun none => ?extension,
    presenceExtension_again running quiet reply⟩⟩
  case first =>
    refine ⟨_, readStatus_captures running quiet first, _, rfl, ?bytes, rfl, rfl, rfl, rfl⟩
    rw [← flagByte_eq s]
    rfl
  case extension =>
    refine ⟨_, presenceExtension_captures running quiet reply none, _, rfl, rfl, fun i => ?_, ?_, rfl⟩
    · rw [presenceBytes_getD s.tiles (by omega)]
      exact presenceByte_getLsbD s.tiles i
    · rw [presenceBytes_getD s.tiles (by decide)]
      exact presenceByte_last_lt s.tiles

end Sys2Proof.Machine
end

section
/-! The end of a write transaction: the frame judged, and a good one queued with the line link restarted (R124, R125, R130,
R179). -/

namespace Sys2Proof.Machine

/-! ### Two-byte fields (c12) -/

/-- A field read back from its two bytes. -/
theorem halfOf_bytes (h : Half) : halfOf (BitVec.ofNat 8 (h.toNat / 256)) (BitVec.ofNat 8 (h.toNat % 256)) = h := by
  apply BitVec.eq_of_toNat_eq
  have bound : h.toNat < 65536 := h.isLt
  rw [halfOf, BitVec.toNat_append, ← Nat.shiftLeft_add_eq_or_of_lt (BitVec.isLt _), Nat.shiftLeft_eq, BitVec.toNat_ofNat,
    BitVec.toNat_ofNat]
  omega

theorem byteOf_mod (n : Nat) : byteOf (n % 256) = byteOf n := by
  apply BitVec.eq_of_toNat_eq
  simp [byteOf]

/-- A field sent most significant byte first is read back. -/
theorem halfOf_be16 (h : Half) : halfOf (byteOf (h.toNat / 256)) (byteOf h.toNat) = h := by
  rw [← byteOf_mod h.toNat]
  exact halfOf_bytes h

/-! ### The sum of a frame (R125) -/

theorem byteSum_cons (b : Byte) (bs : List Byte) : byteSum (b :: bs) = b + byteSum bs := by
  have start (bs : List Byte) (x : Byte) : bs.foldl (· + ·) x = x + bs.foldl (· + ·) 0 := by
    induction bs generalizing x with
    | nil => simp
    | cons c bs ih => rw [List.foldl_cons, List.foldl_cons, ih, ih (0 + c), zero_add, add_assoc]
  simpa [byteSum] using start bs b

theorem byteSum_toNat (bs : List Byte) : (byteSum bs).toNat = (bs.map BitVec.toNat).sum % 256 := by
  induction bs with
  | nil => rfl
  | cons b bs ih =>
    rw [byteSum_cons, BitVec.toNat_add, ih, List.map_cons, List.sum_cons]
    omega

theorem byteSum_eq_zero_iff (bs : List Byte) : byteSum bs = 0 ↔ (bs.map BitVec.toNat).sum % 256 = 0 := by
  rw [← byteSum_toNat, BitVec.toNat_eq]
  rfl

/-! ### Frame types and lengths (R179) -/

/-- The type bytes with the whole length of their frames. -/
def frameLengths : List (Byte × Nat) :=
  [(0x21, 5), (0x22, 3), (0x23, 4), (0x24, 4), (0x31, 4), (0x32, 3), (0x41, 6), (0x42, 6), (0x50, 2)]

theorem frameLengths_decode : ∀ p ∈ frameLengths, (decodeFrameType p.1).map FrameType.length = some p.2 := by decide

theorem decodeFrameType_eq_none {b : Byte} (h : ∀ p ∈ frameLengths, b ≠ p.1) : decodeFrameType b = none := by
  have known : ∀ b : Byte, decodeFrameType b = none ∨ b ∈ frameLengths.map Prod.fst := by decide
  refine (known b).resolve_right fun listed => ?_
  obtain ⟨p, listed, type⟩ := List.mem_map.1 listed
  exact h p listed type.symm

/-- A frame on the bus is its type byte and a payload that spells it. -/
theorem frame_bytes_eq (f : Frame) :
    ∃ type payload, f.bytes = type :: payload ∧ decodeFrameType type = some f.type ∧
      f.type.length = payload.length + 2 ∧ frameOf f.type payload = some f := by
  cases f with
  | shiftStart n o =>
    have spelled : frameOf .shiftStart (be16 n.toNat ++ be16 o.toNat) = some (.shiftStart n o) := by
      show some (Frame.shiftStart (halfOf _ _) (halfOf _ _)) = _
      rw [halfOf_be16, halfOf_be16]
    exact ⟨0x41, be16 n.toNat ++ be16 o.toNat, rfl, rfl, rfl, spelled⟩
  | timeMark n t =>
    have spelled : frameOf .timeMark (be16 n.toNat ++ be16 t.toNat) = some (.timeMark n t) := by
      show some (Frame.timeMark (halfOf _ _) (halfOf _ _)) = _
      rw [halfOf_be16, halfOf_be16]
    exact ⟨0x42, be16 n.toNat ++ be16 t.toNat, rfl, rfl, rfl, spelled⟩
  | _ => exact ⟨_, _, rfl, rfl, rfl, rfl⟩

/-! ### The frame judged (R125) -/

theorem judgeFrame_unknown {type : Byte} (rest : List Byte) (h : decodeFrameType type = none) :
    judgeFrame (type :: rest) = .error .unknown := by
  simp [judgeFrame, h]

theorem judgeFrame_short {type : Byte} {rest : List Byte} {t : FrameType} (h : decodeFrameType type = some t)
    (short : (type :: rest).length < t.length) : judgeFrame (type :: rest) = .error .short := by
  simp only [judgeFrame, h, if_pos short]

theorem judgeFrame_check {type : Byte} {rest : List Byte} {t : FrameType} (h : decodeFrameType type = some t)
    (whole : t.length ≤ (type :: rest).length) (sum : byteSum ((type :: rest).take t.length) ≠ 0) :
    judgeFrame (type :: rest) = .error .check := by
  simp only [judgeFrame, h, if_neg (Nat.not_lt.2 whole), if_pos sum]

/-- A good frame is the one whose bytes and check byte were sent, whatever follows them. -/
theorem judgeFrame_good (f : Frame) (check : Byte) (more : List Byte)
    (sum : ((f.bytes.map BitVec.toNat).sum + check.toNat) % 256 = 0) :
    judgeFrame (f.bytes ++ check :: more) = .ok f := by
  obtain ⟨type, payload, bytes, decoded, length, spelled⟩ := frame_bytes_eq f
  have split : type :: payload ++ check :: more = (type :: payload ++ [check]) ++ more := by simp
  have kept : (type :: payload ++ check :: more).take f.type.length = type :: payload ++ [check] := by
    rw [split, length]
    exact List.take_left' (by simp)
  have good : byteSum (type :: payload ++ [check]) = 0 := by
    rw [byteSum_eq_zero_iff, ← bytes]
    simpa using sum
  have carried : (payload ++ check :: more).take (f.type.length - 2) = payload := List.take_left' (by omega)
  have whole : ¬(type :: (payload ++ check :: more)).length < f.type.length := by
    rw [length]
    simp
  rw [bytes]
  rw [List.cons_append] at kept ⊢
  simp only [judgeFrame, decoded, if_neg whole, kept, good, carried, spelled, ne_eq, not_true_eq_false, if_false]

/-! ### The answers to its bytes (R124) -/

/-- ACK to the first `n` of some bytes, NACK to those after them. -/
def answersUpTo (bytes : List Byte) (n : Nat) : List BusAnswer :=
  (List.range bytes.length).map fun i => if i < n then .ack else .nack

theorem frameAnswers_unknown {type : Byte} (rest : List Byte) (h : decodeFrameType type = none) :
    frameAnswers (type :: rest) = answersUpTo (type :: rest) 1 := by
  simp only [frameAnswers, h, answersUpTo]

theorem frameAnswers_known {type : Byte} (rest : List Byte) {t : FrameType} (h : decodeFrameType type = some t) :
    frameAnswers (type :: rest) = answersUpTo (type :: rest) t.length := by
  simp only [frameAnswers, h, answersUpTo]

theorem frameAnswers_frame (f : Frame) (more : List Byte) :
    frameAnswers (f.bytes ++ more) = answersUpTo (f.bytes ++ more) (f.bytes.length + 1) := by
  obtain ⟨type, payload, bytes, decoded, length, -⟩ := frame_bytes_eq f
  rw [bytes, List.cons_append, frameAnswers_known _ decoded, length]
  rfl

/-! ### The line link restarted (R130, R131) -/

theorem restartLineLink_line (s : State) :
    (restartLineLink s).line = { s.line with link := ⟨.up, 0, s.line.link.timeout⟩ } := by
  unfold restartLineLink raiseLineLink
  split <;> simp [Link.restarted]

/-- The three regions follow a link that was not UP. -/
theorem restartLineLink_latches (s : State) :
    Latches (· ∈ if s.line.link.state = .up then [] else [Role.stations, .ticker, .banner]) s.engine
      (restartLineLink s).engine := by
  have unchanged : (s.onLine fun l => { l with link := l.link.restarted }).line.link.state = s.line.link.state ↔
      s.line.link.state = .up := eq_comm
  unfold restartLineLink raiseLineLink
  by_cases up : s.line.link.state = .up
  · rw [if_pos (unchanged.2 up), if_pos up]
    exact (Latches.refl s.engine).congr fun r => by simp
  · rw [if_neg (mt unchanged.1 up), if_neg up]
    have raised := ((raise_latches (role := .stations) rfl (s.onLine fun l => { l with link := l.link.restarted })).trans
      (raise_latches (role := .ticker) rfl _)).trans (raise_latches (role := .banner) rfl _)
    exact raised.congr fun r => by simp [or_assoc]

/-! ### The end of a transaction (R124, R125) -/

/-- A frame that fails a test leaves its outcome, at once, and no frame. -/
theorem lineFrame_discarded {bytes : List Byte} {r : LineResult} {s : State} (bits : Nat) (running : s.inReset = false)
    (quiet : s.Quiet) (receiving : s.line.phase = .receiving) (bad : judgeFrame bytes = .error r) :
    exec (.lineFrame bytes bits) s =
      .next { s with line := { s.line with
        phase := .idle, byteAnswers := frameAnswers bytes, lastResult := r, clock := .stopped } } := by
  have ended : endTransaction bytes s = s.onLine fun l =>
      { l with phase := .idle, byteAnswers := frameAnswers bytes, lastResult := r, clock := .stopped } := by
    simp only [endTransaction, if_pos receiving, judged, bad]
    rfl
  exact event_onLine running quiet ended

/-- Where no frame was received there is nothing to judge. -/
theorem lineFrame_untaken {bytes : List Byte} {s : State} (bits : Nat) (running : s.inReset = false) (quiet : s.Quiet)
    (untaken : s.line.phase ≠ .receiving) :
    exec (.lineFrame bytes bits) s = .next { s with line := { s.line with phase := .idle, clock := .stopped } } :=
  event_onLine (f := endTransaction bytes) running quiet (if_neg untaken)

/-- A good frame joins the queue, and the link restarts. -/
theorem lineFrame_queued {bytes : List Byte} {f : Frame} {s : State} (bits : Nat) (running : s.inReset = false)
    (quiet : s.Quiet) (receiving : s.line.phase = .receiving) (good : judgeFrame bytes = .ok f) :
    ∃ t, exec (.lineFrame bytes bits) s = .next t ∧
      t.line =
        { s.line with
          phase := .idle, byteAnswers := frameAnswers bytes, queue := s.line.queue ++ [f]
          link := ⟨.up, 0, s.line.link.timeout⟩, clock := .stopped } ∧
      { t with line := s.line, engine := s.engine } = s ∧
      RequestedOnly (if s.line.link.state = .up then [] else [.stations, .ticker, .banner]) s t := by
  have ended : endTransaction bytes s = restartLineLink (s.onLine fun l =>
      { l with phase := .idle, byteAnswers := frameAnswers bytes, clock := .stopped, queue := l.queue ++ [f] }) := by
    simp only [endTransaction, if_pos receiving, judged, good]
    rfl
  have next := event_next (endTransaction bytes) s running
  rw [ended] at next
  have latches := restartLineLink_latches (s.onLine fun l =>
    { l with phase := .idle, byteAnswers := frameAnswers bytes, clock := .stopped, queue := l.queue ++ [f] })
  refine ⟨_, next, ?_, by apply State.ext <;> simp, Latches.served (s := s) latches quiet⟩
  simp only [serve_keeps, restartLineLink_line]
  rfl

/-- Settles O41: the tests of R125 are the lemmas about `judgeFrame`, in its order, and what each leaves is
`lineFrame_discarded` or `lineFrame_queued`. -/
theorem lineFrameIsJudgedIntoQueueOrResult : Obligations.LineFrameIsJudgedIntoQueueOrResult := by
  intro bytes bits f check more s running quiet ended
  refine ⟨lineFrame_untaken bits running quiet, fun receiving => ?_⟩
  intro answers bad lengths
  have discarded {r : LineResult} {n : Nat} (judged : judgeFrame bytes = .error r)
      (answered : frameAnswers bytes = answersUpTo bytes n) : bad r n := by
    have next := lineFrame_discarded bits running quiet receiving judged
    rw [answered] at next
    exact next
  refine ⟨fun none => ?none, fun some unknown => ?unknown, fun p listed head => ?known, fun sent sum => ?good⟩
  case none =>
    subst none
    exact discarded rfl rfl
  case unknown =>
    obtain ⟨type, rest, rfl⟩ := List.exists_cons_of_ne_nil some
    have undecoded : decodeFrameType type = none :=
      decodeFrameType_eq_none fun p listed same => unknown p listed (congrArg Option.some same)
    exact discarded (judgeFrame_unknown rest undecoded) (frameAnswers_unknown rest undecoded)
  case known =>
    obtain ⟨rest, rfl⟩ := List.head?_eq_some_iff.1 head
    obtain ⟨t, decoded, length⟩ := Option.map_eq_some_iff.1 (frameLengths_decode p listed)
    have answered := frameAnswers_known rest decoded
    rw [length] at answered
    refine ⟨fun short => discarded (judgeFrame_short decoded (by rwa [length])) answered, fun whole sum =>
      discarded (judgeFrame_check decoded (by rwa [length]) ?_) answered⟩
    rwa [length, Ne, byteSum_eq_zero_iff]
  case good =>
    subst sent
    have queued := lineFrame_queued bits running quiet receiving (judgeFrame_good f check more sum)
    rw [frameAnswers_frame] at queued
    exact queued

end Sys2Proof.Machine
end

section
/-! Address bytes whole and bit by bit, and the edges of the two wires (R122 to R124). -/

namespace Sys2Proof.Machine

/-! ### The address byte (R123) -/

/-- The part's own address is not the broadcast address. -/
theorem ownAddress_ne_zero (s : State) : s.ownAddress ≠ 0 := by
  simp [State.ownAddress, Config.lineBase]

theorem takeAddress_ownRead {b : Byte} {s : State} (own : addressOf b = s.ownAddress) (read : isRead b = true) :
    takeAddress b s = statusRead s := by
  rw [takeAddress, if_pos own, if_pos read]

theorem takeAddress_ownWrite {b : Byte} {s : State} (own : addressOf b = s.ownAddress) (write : isRead b = false) :
    takeAddress b s = s.onLine LinePort.ownWrite := by
  rw [takeAddress, if_pos own, if_neg (by simp [write])]

theorem takeAddress_broadcastWrite {b : Byte} {s : State} (zero : addressOf b = 0) (write : isRead b = false) :
    takeAddress b s = s.onLine LinePort.broadcastWrite := by
  have foreign : ¬addressOf b = s.ownAddress := fun own => ownAddress_ne_zero s (own.symm.trans zero)
  rw [takeAddress, if_neg foreign, if_pos ⟨zero, write⟩]

theorem takeAddress_unanswered {b : Byte} {s : State} (foreign : ¬addressOf b = s.ownAddress)
    (noBroadcast : ¬(addressOf b = 0 ∧ isRead b = false)) :
    takeAddress b s = s.onLine fun l => l.addressed .unanswered .ignoring := by
  rw [takeAddress, if_neg foreign, if_neg noBroadcast]

theorem hasSlot_iff (l : LinePort) : l.hasSlot = true ↔ l.queue.length < 16 := decide_eq_true_iff

theorem ownWrite_free {l : LinePort} (slot : l.queue.length < 16) : l.ownWrite = l.addressed .ack .receiving :=
  if_pos ((hasSlot_iff l).2 slot)

theorem ownWrite_full {l : LinePort} (full : 16 ≤ l.queue.length) : l.ownWrite = l.addressed .nack .ignoring :=
  if_neg (mt (hasSlot_iff l).1 (Nat.not_lt.2 full))

theorem broadcastWrite_free {l : LinePort} (enabled : l.broadcastEnable = true) (slot : l.queue.length < 16) :
    l.broadcastWrite = l.addressed .ack .receiving := by
  rw [LinePort.broadcastWrite, if_pos enabled, if_pos ((hasSlot_iff l).2 slot)]

theorem broadcastWrite_full {l : LinePort} (enabled : l.broadcastEnable = true) (full : 16 ≤ l.queue.length) :
    l.broadcastWrite = { l.addressed .unanswered .ignoring with broadcastMissed := true } := by
  rw [LinePort.broadcastWrite, if_pos enabled, if_neg (mt (hasSlot_iff l).1 (Nat.not_lt.2 full))]

theorem broadcastWrite_disabled {l : LinePort} (disabled : l.broadcastEnable = false) :
    l.broadcastWrite = l.addressed .unanswered .ignoring := by
  rw [LinePort.broadcastWrite, if_neg (by simp [disabled])]

theorem isRead_eq_false {b : Byte} (write : ¬b.toNat % 2 = 1) : isRead b = false := decide_eq_false write

/-- An address byte whose answer changes the Line Port alone. -/
theorem addressByte_next {b : Byte} {s : State} {g : LinePort → LinePort} {l : LinePort} (running : s.inReset = false)
    (quiet : s.Quiet) (taken : takeAddress b s = s.onLine g) (answered : g s.line = l) :
    exec (.addressByte (.byte b)) s = .next { s with line := l } :=
  answered ▸ event_onLine running quiet taken

/-! ### The edges of the two wires (R122, R124) -/

theorem lineEdge_next {e : LineEdge} {s : State} {g : LinePort → LinePort} (running : s.inReset = false)
    (quiet : s.Quiet) (taken : lineEdge e s = s.onLine g) :
    exec (.addressByte (.edge e)) s = .next { s with line := g s.line } :=
  event_onLine (f := lineEdge e) running quiet taken

theorem lineEdge_unchanged {e : LineEdge} {s : State} (running : s.inReset = false) (quiet : s.Quiet)
    (same : lineEdge e s = s) : exec (.addressByte (.edge e)) s = .next s :=
  event_unchanged (f := lineEdge e) running quiet same

/-- No pass looks at the clock of the two wires. -/
theorem serve_lineClock (c : LineClock) (s : State) :
    serve (s.onLine fun l => { l with clock := c }) = (serve s).onLine fun l => { l with clock := c } := rfl

/-- A STOP ends the transaction as LINE_FRAME does, and a START does so before it begins its own. -/
theorem stopAndStart_end {s : State} (running : s.inReset = false) :
    ∃ t, exec (.lineFrame s.line.clock.bytes 0) s = .next t ∧
      exec (.addressByte (.edge (.sdaRises true))) s = .next t ∧
      exec (.addressByte (.edge (.sdaFalls true))) s =
        .next { t with line := { t.line with clock := ⟨.address, [], [], 0, true⟩ } } :=
  ⟨serve (endTransaction s.line.clock.bytes s), event_next _ s running,
    event_next (lineEdge (.sdaRises true)) s running,
    event_next (lineEdge (.sdaFalls true)) s running⟩

theorem sclRises_bit {s : State} (sda : Bool) (begun : s.line.clock.place ≠ .stopped)
    (within : s.line.clock.bits.length < 7) :
    sclRises sda s = s.onLine fun l => { l with clock := s.line.clock.shifted sda } := by
  rw [sclRises, if_neg begun, if_pos within]

theorem sclRises_address {s : State} (sda : Bool) (eighth : s.line.clock.bits.length = 7)
    (address : s.line.clock.place = .address) : sclRises sda s = addressByteClocked sda s := by
  rw [sclRises, if_neg (by simp [address]), if_neg (by omega), if_neg (by omega), if_pos address]

theorem sclRises_data {s : State} (sda : Bool) (eighth : s.line.clock.bits.length = 7)
    (data : s.line.clock.place = .data) : sclRises sda s = s.onLine fun l => l.dataByte sda := by
  rw [sclRises, if_neg (by simp [data]), if_neg (by omega), if_neg (by omega), if_neg (by simp [data])]

theorem sclRises_acknowledge {s : State} (sda : Bool) (begun : s.line.clock.place ≠ .stopped)
    (whole : 8 ≤ s.line.clock.bits.length) : sclRises sda s = s.onLine fun l => l.acknowledged sda := by
  rw [sclRises, if_neg begun, if_neg (by omega), if_pos (by omega)]

/-- The eighth bit of an address byte: the byte acts as it does given whole, its acknowledge bit still to come. -/
theorem sclRises_addressByte {s : State} (sda : Bool) (running : s.inReset = false)
    (eighth : s.line.clock.bits.length = 7) (address : s.line.clock.place = .address) :
    ∃ t, exec (.addressByte (.byte (byteOfBits (s.line.clock.bits ++ [sda])))) s = .next t ∧
      exec (.addressByte (.edge (.sclRises sda))) s =
        .next { t with line := { t.line with clock := s.line.clock.shifted sda } } := by
  refine ⟨_, event_next (takeAddress _) s running, ?_⟩
  have next := event_next (lineEdge (.sclRises sda)) s running
  have taken : lineEdge (.sclRises sda) s = addressByteClocked sda s := sclRises_address sda eighth address
  rw [taken, addressByteClocked, serve_lineClock] at next
  exact next

theorem dataByte_receiving {l : LinePort} (sda : Bool) (receiving : l.phase = .receiving) :
    l.dataByte sda =
      { l with
        byteAnswers := frameAnswers (l.clock.bytes ++ [byteOfBits (l.clock.bits ++ [sda])])
        clock := { l.clock with
          bits := l.clock.bits ++ [sda], bytes := l.clock.bytes ++ [byteOfBits (l.clock.bits ++ [sda])] } } := by
  simp only [LinePort.dataByte, receiving, LineClock.shifted]

theorem dataByte_serving {l : LinePort} {block : List Byte} (sda : Bool) (serving : l.phase = .serving block) :
    l.dataByte sda = { l with clock := { l.clock with bits := l.clock.bits ++ [sda], sent := l.clock.sent + 1 } } := by
  simp only [LinePort.dataByte, serving, LineClock.shifted]

theorem dataByte_ignoring {l : LinePort} (sda : Bool) (none : l.phase = .idle ∨ l.phase = .ignoring) :
    l.dataByte sda = { l with clock := l.clock.shifted sda } := by
  rcases none with none | none <;> simp only [LinePort.dataByte, none]

/-- The answers that the frame's bytes have got, whatever the frame is judged to be. -/
theorem lineFrame_answers {bytes : List Byte} {s : State} (running : s.inReset = false)
    (receiving : s.line.phase = .receiving) :
    ∃ t, exec (.lineFrame bytes 0) s = .next t ∧ t.line.byteAnswers = frameAnswers bytes := by
  refine ⟨_, event_next (endTransaction bytes) s running, ?_⟩
  rw [endTransaction, if_pos receiving, judged]
  split
  · rfl
  · simp only [serve_keeps, restartLineLink_line]
    rfl

/-- A NACK ends a read. -/
theorem acknowledged_nack {l : LinePort} {block : List Byte} (data : l.clock.place = .data)
    (serving : l.phase = .serving block) :
    l.acknowledged true = { l with phase := .ignoring, clock := { l.clock with place := .data, bits := [] } } := by
  simp only [LinePort.acknowledged, data, serving, if_true]

/-- Every other acknowledge bit goes on to the next byte. -/
theorem acknowledged_goesOn {l : LinePort} {sda : Bool}
    (goesOn : ¬((l.clock.place = .data ∧ ∃ block, l.phase = .serving block) ∧ sda = true)) :
    l.acknowledged sda = { l with clock := { l.clock with place := .data, bits := [] } } := by
  unfold LinePort.acknowledged
  split
  · rename_i block data serving
    have ack : ¬sda = true := fun nack => goesOn ⟨⟨data, block, serving⟩, nack⟩
    rw [if_neg ack]
  all_goals rfl

/-! ### What SDA is driven to (R122 to R124) -/

theorem driven_acknowledge {l : LinePort} (whole : 8 ≤ l.clock.bits.length) :
    l.driven = { l with clock := { l.clock with sda := l.acknowledgeLevel } } := by
  rw [LinePort.driven, if_neg (by omega)]

theorem driven_data {l : LinePort} (within : l.clock.bits.length < 8) :
    l.driven = { l with clock := { l.clock with sda := l.dataLevel } } := by
  rw [LinePort.driven, if_pos within]

/-- Where no transaction has begun SDA is released. -/
theorem driven_stopped {l : LinePort} (stopped : l.clock.place = .stopped) :
    l.driven = { l with clock := { l.clock with sda := true } } := by
  simp [LinePort.driven, LinePort.dataLevel, LinePort.acknowledgeLevel, stopped]

theorem acknowledgeLevel_address {l : LinePort} (address : l.clock.place = .address) :
    l.acknowledgeLevel = decide (l.answer ≠ .ack) := by
  rw [Bool.eq_iff_iff]
  simp [LinePort.acknowledgeLevel, address]

theorem acknowledgeLevel_receiving {l : LinePort} (data : l.clock.place = .data) (receiving : l.phase = .receiving) :
    l.acknowledgeLevel = decide (l.byteAnswers.getLast? ≠ some .ack) := by
  rw [Bool.eq_iff_iff]
  simp [LinePort.acknowledgeLevel, data, receiving]

theorem acknowledgeLevel_released {l : LinePort} (data : l.clock.place = .data) (other : l.phase ≠ .receiving) :
    l.acknowledgeLevel = true := by
  unfold LinePort.acknowledgeLevel
  split <;> simp_all

theorem dataLevel_serving {l : LinePort} {block : List Byte} (data : l.clock.place = .data)
    (serving : l.phase = .serving block) : l.dataLevel = (l.served l.clock.sent).getMsbD l.clock.bits.length := by
  simp only [LinePort.dataLevel, data, serving]

theorem dataLevel_released {l : LinePort}
    (other : l.clock.place = .address ∨ l.clock.place = .data ∧ ∀ block, l.phase ≠ .serving block) :
    l.dataLevel = true := by
  unfold LinePort.dataLevel
  split <;> simp_all

/-- Settles O39: the table is that of `takeAddress`, and each edge that of the port's function for it. -/
theorem addressByteIsAnsweredByOwnAddressBroadcastAndQueue :
    Obligations.AddressByteIsAnsweredByOwnAddressBroadcastAndQueue := by
  intro b s running quiet address read own done
  have foreign (zero : address = 0) : ¬own := fun same => ownAddress_ne_zero s (same.symm.trans zero)
  refine ⟨fun same r => ?ownRead, fun same w slot => ?ownFree, fun same w full => ?ownFull,
    fun zero w enabled slot => ?broadcastFree, fun zero w enabled full => ?broadcastFull,
    fun zero w disabled => ?broadcastDisabled, fun zero r => ?broadcastRead, fun other not_own => ?other, ?edges⟩
  case ownRead =>
    have taken := event_next (takeAddress b) s running
    rw [takeAddress_ownRead same (decide_eq_true r)] at taken
    exact taken.trans (event_next statusRead s running).symm
  case ownFree =>
    exact addressByte_next running quiet (takeAddress_ownWrite same (isRead_eq_false w)) (ownWrite_free slot)
  case ownFull =>
    exact addressByte_next running quiet (takeAddress_ownWrite same (isRead_eq_false w)) (ownWrite_full full)
  case broadcastFree =>
    exact addressByte_next running quiet (takeAddress_broadcastWrite zero (isRead_eq_false w))
      (broadcastWrite_free enabled slot)
  case broadcastFull =>
    exact addressByte_next running quiet (takeAddress_broadcastWrite zero (isRead_eq_false w))
      (broadcastWrite_full enabled full)
  case broadcastDisabled =>
    exact addressByte_next running quiet (takeAddress_broadcastWrite zero (isRead_eq_false w))
      (broadcastWrite_disabled disabled)
  case broadcastRead =>
    have noWrite : ¬(addressOf b = 0 ∧ isRead b = false) := fun write => of_decide_eq_false write.2 r
    exact addressByte_next running quiet (takeAddress_unanswered (foreign zero) noWrite) rfl
  case other =>
    exact addressByte_next running quiet (takeAddress_unanswered not_own fun broadcast => other broadcast.1) rfl
  case edges =>
    intro k edge clocked
    refine ⟨lineEdge_unchanged running quiet rfl, lineEdge_unchanged running quiet rfl, stopAndStart_end running,
      fun sda stopped => lineEdge_unchanged running quiet (sclRises_stopped stopped sda),
      fun sda begun => ⟨fun within => lineEdge_next (e := .sclRises sda) running quiet (sclRises_bit sda begun within),
        sclRises_addressByte sda running, fun eighth data => ?data, fun last => ?acknowledge⟩, ?falls⟩
    case data =>
      have next := lineEdge_next (e := .sclRises sda) running quiet (sclRises_data sda eighth data)
      refine ⟨fun receiving => ?_, fun block serving => ?_, fun none => ?_⟩
      · obtain ⟨t, ended, answers⟩ := lineFrame_answers
          (bytes := k.bytes ++ [clockedByte (k.bits ++ [sda])]) running receiving
        rw [dataByte_receiving sda receiving] at next
        exact ⟨t, ended, answers ▸ next⟩
      · rwa [dataByte_serving sda serving] at next
      · rwa [dataByte_ignoring sda none] at next
    case acknowledge =>
      have next := lineEdge_next (e := .sclRises sda) running quiet (sclRises_acknowledge sda begun last)
      refine ⟨fun ⟨data, block, serving⟩ nack => ?_, fun goesOn => ?_⟩
      · rwa [nack, acknowledged_nack data serving, ← nack] at next
      · rwa [acknowledged_goesOn goesOn] at next
    case falls =>
      have next := lineEdge_next (e := .sclFalls) (g := LinePort.driven) running quiet rfl
      have level {released : Bool} (h : s.line.driven = { s.line with clock := { k with sda := released } }) :
          clocked .sclFalls { k with sda := released } := by
        rw [h] at next
        exact next
      refine ⟨fun whole => ⟨fun place => ?_, fun place receiving => ?_, fun place other => ?_⟩,
        fun within => ⟨fun block place serving => ?_, fun released => ?_⟩, fun stopped => level (driven_stopped stopped)⟩
      · exact level (acknowledgeLevel_address place ▸ driven_acknowledge whole)
      · exact level (acknowledgeLevel_receiving place receiving ▸ driven_acknowledge whole)
      · exact level (acknowledgeLevel_released place other ▸ driven_acknowledge whole)
      · exact level (dataLevel_serving place serving ▸ driven_data within)
      · exact level (dataLevel_released released ▸ driven_data within)

end Sys2Proof.Machine
end

section
/-! What a plant command's rule does not look at: the transaction of the Plant Port. With it, a command taken from the
ready decoder is its command byte and then its arguments (R132, R133, log 6). -/

namespace Sys2Proof.Machine

/-! ### States that differ in the transaction -/

/-- Two states differ in the Plant Port's transaction at most. -/
def SameButTransaction (s t : State) : Prop := ∃ x, t = setTransaction x s

/-- The same of two states with what else a rule gives. -/
def AlikeButTransaction {β : Type} (a b : State × β) : Prop := SameButTransaction a.1 b.1 ∧ b.2 = a.2

theorem AlikeButTransaction.pair {β : Type} {s t : State} (h : SameButTransaction s t) (b : β) :
    AlikeButTransaction (s, b) (t, b) := ⟨h, rfl⟩

theorem SameButTransaction.refl (s : State) : SameButTransaction s s := ⟨s.plant.transaction, rfl⟩

/-- Once the transaction is set, nothing of the difference is left. -/
theorem SameButTransaction.set {s t : State} (h : SameButTransaction s t) (x : Transaction) :
    setTransaction x t = setTransaction x s := by
  obtain ⟨y, rfl⟩ := h
  rfl

theorem SameButTransaction.ite {p q : Prop} [Decidable p] [Decidable q] {s s' t t' : State} (same : q ↔ p)
    (h : SameButTransaction s t) (h' : SameButTransaction s' t') :
    SameButTransaction (if p then s else s') (if q then t else t') := by
  by_cases hp : p
  · rwa [if_pos hp, if_pos (same.2 hp)]
  · rwa [if_neg hp, if_neg (mt same.1 hp)]

theorem AlikeButTransaction.ite {β : Type} {p q : Prop} [Decidable p] [Decidable q] {a a' b b' : State × β}
    (same : q ↔ p) (h : AlikeButTransaction a b) (h' : AlikeButTransaction a' b') :
    AlikeButTransaction (if p then a else a') (if q then b else b') := by
  by_cases hp : p
  · rwa [if_pos hp, if_pos (same.2 hp)]
  · rwa [if_neg hp, if_neg (mt same.1 hp)]

/-- What changes the Plant Port's transaction at no point keeps two such states so. -/
theorem SameButTransaction.of_commutes {f : State → State}
    (commutes : ∀ x s, f (setTransaction x s) = setTransaction x (f s)) {s t : State} (h : SameButTransaction s t) : SameButTransaction (f s) (f t) := by
  obtain ⟨x, rfl⟩ := h
  exact ⟨x, commutes x s⟩

/-! ### Shared operations -/

section
variable {s t s' t' : State}

theorem SameButTransaction.raise (h : SameButTransaction s t) (r : Role) : SameButTransaction (s.raise r) (t.raise r) :=
  h.of_commutes fun _ _ => rfl

theorem SameButTransaction.raiseIf (h : SameButTransaction s t) (b : Bool) (r : Role) :
    SameButTransaction (s.raiseIf b r) (t.raiseIf b r) := .ite Iff.rfl (h.raise r) h

theorem SameButTransaction.rederive (h : SameButTransaction s t) : SameButTransaction (rederive s) (rederive t) := by
  obtain ⟨x, rfl⟩ := h
  exact .ite Iff.rfl ⟨x, rfl⟩ ⟨x, rfl⟩

theorem SameButTransaction.requalify (old : SameButTransaction s s') (h : SameButTransaction t t') :
    SameButTransaction (requalify s t) (requalify s' t') := by
  obtain ⟨x, rfl⟩ := old
  obtain ⟨y, rfl⟩ := h
  exact SameButTransaction.raiseIf ⟨y, rfl⟩ _ _

theorem SameButTransaction.settleTracker (old : SameButTransaction s s') (h : SameButTransaction t t') :
    SameButTransaction (settleTracker s t) (settleTracker s' t') := old.requalify h.rederive

theorem SameButTransaction.handOn (old : SameButTransaction s s') (h : SameButTransaction t t') :
    SameButTransaction (handOn s t) (handOn s' t') := by
  have settled := old.settleTracker ((h.raise .banner).raise .clock)
  obtain ⟨x, rfl⟩ := old
  obtain ⟨y, rfl⟩ := id h
  exact .ite Iff.rfl h settled

theorem SameButTransaction.recompute (h : SameButTransaction s t) : SameButTransaction (recompute s) (recompute t) := by
  obtain ⟨x, rfl⟩ := h
  exact SameButTransaction.raiseIf ⟨x, rfl⟩ _ _

theorem SameButTransaction.raiseLostCars (old : SameButTransaction s s') (h : SameButTransaction t t') :
    SameButTransaction (raiseLostCars s t) (raiseLostCars s' t') := by
  obtain ⟨x, rfl⟩ := old
  obtain ⟨y, rfl⟩ := h
  exact SameButTransaction.raiseIf ⟨y, rfl⟩ _ _

/-! ### The shift (c04) -/

/-- A close begun may cut the reply in flight, which is the transaction's alone (R109). -/
theorem SameButTransaction.startClose (h : SameButTransaction s t) (r : CloseReason) :
    SameButTransaction (startClose r s) (startClose r t) := by
  obtain ⟨x, rfl⟩ := h
  exact ⟨_, rfl⟩

theorem SameButTransaction.enterOvertime (h : SameButTransaction s t) :
    SameButTransaction (enterOvertime s) (enterOvertime t) := by
  obtain ⟨x, rfl⟩ := h
  exact SameButTransaction.recompute ⟨x, rfl⟩

theorem SameButTransaction.endOfShiftTest (h : SameButTransaction s t) :
    SameButTransaction (endOfShiftTest s) (endOfShiftTest t) := by
  obtain ⟨x, rfl⟩ := id h
  exact .ite Iff.rfl (h.startClose _) (.ite Iff.rfl (h.startClose _) h.enterOvertime)

theorem SameButTransaction.targetTest (h : SameButTransaction s t) :
    SameButTransaction (targetTest s) (targetTest t) := by
  obtain ⟨x, rfl⟩ := id h
  exact .ite Iff.rfl (h.startClose _) h

theorem SameButTransaction.commitEndTest (h : SameButTransaction s t) :
    SameButTransaction (commitEndTest s) (commitEndTest t) := by
  obtain ⟨x, rfl⟩ := id h
  exact .ite Iff.rfl h.endOfShiftTest h

theorem SameButTransaction.commitOvertimeTests (h : SameButTransaction s t) :
    SameButTransaction (commitOvertimeTests s) (commitOvertimeTests t) := by
  obtain ⟨x, rfl⟩ := id h
  exact .ite Iff.rfl (.ite Iff.rfl (h.startClose _) h.targetTest) h

theorem SameButTransaction.holdAtCommit (h : SameButTransaction s t) :
    SameButTransaction (holdAtCommit s) (holdAtCommit t) := by
  obtain ⟨x, rfl⟩ := id h
  exact .ite Iff.rfl ⟨x, rfl⟩ h

theorem SameButTransaction.commitNow (h : SameButTransaction s t) (p : Plan) :
    SameButTransaction (commitNow p s) (commitNow p t) := by
  have decided := h.of_commutes (f := fun s => ((rebase s).onTimer fun t =>
    { t with active := some p, staged := none }).onTimer fun t => { t with state := t.redecided }) fun _ _ => rfl
  exact h.handOn (h.raiseLostCars decided.holdAtCommit.recompute.commitEndTest.commitOvertimeTests)

theorem SameButTransaction.openShift (h : SameButTransaction s t) (p : Plan) (number offset : Nat) :
    SameButTransaction (openShift p number offset s) (openShift p number offset t) := by
  obtain ⟨x, rfl⟩ := h
  exact ((SameButTransaction.recompute ⟨x, rfl⟩).raise .pace).raise .clock

theorem SameButTransaction.holdStart (h : SameButTransaction s t) (number offset : Nat) :
    SameButTransaction (holdStart number offset s) (holdStart number offset t) := h.of_commutes fun _ _ => rfl

theorem SameButTransaction.applyTimeMark (h : SameButTransaction s t) (number seconds : Nat) :
    AlikeButTransaction (applyTimeMark number seconds s) (applyTimeMark number seconds t) := by
  obtain ⟨x, rfl⟩ := id h
  exact .ite Iff.rfl ⟨h, rfl⟩ (.ite Iff.rfl ⟨h, rfl⟩ ⟨⟨x, rfl⟩, rfl⟩)

/-! ### A call closed (R51) -/

theorem SameButTransaction.fitScroll (h : SameButTransaction s t) : SameButTransaction (fitScroll s) (fitScroll t) := by
  obtain ⟨x, rfl⟩ := id h
  unfold Machine.fitScroll
  show SameButTransaction (match s.engine.inForce .ticker with | none => _ | some r => _)
    (match s.engine.inForce .ticker with | none => _ | some r => _)
  split
  · exact h
  · exact .ite Iff.rfl ⟨x, rfl⟩ h

/-- A record that leaves the log takes the slot in flight with it, which is the transaction's alone (R120). -/
theorem SameButTransaction.storeRecord (h : SameButTransaction s t) (r : HistoryRecord) :
    SameButTransaction (storeRecord r s) (storeRecord r t) := by
  obtain ⟨x, rfl⟩ := h
  exact .ite Iff.rfl ⟨x, rfl⟩ ⟨_, rfl⟩

theorem SameButTransaction.closeCall (h : SameButTransaction s t) (c : Call) (by_ : ClosedBy) :
    SameButTransaction (closeCall c by_ s) (closeCall c by_ t) := by
  obtain ⟨x, rfl⟩ := id h
  refine h.settleTracker (((SameButTransaction.storeRecord ?_ _).fitScroll.raise .stations).raise .ticker)
  exact ⟨x.callClosed c.number, rfl⟩

end

/-! ### The rules of the commands (R133, R134) -/

/-- A rule that does not look at the transaction. -/
def CommandRule.Blind (rule : CommandRule) : Prop :=
  ∀ s t : State, SameButTransaction s t → AlikeButTransaction (rule s) (rule t)

theorem applyRewind_blind : CommandRule.Blind applyRewind := by
  rintro s t ⟨x, rfl⟩
  exact .pair ⟨x, rfl⟩ _

theorem applyStagePlan_blind (length takt overtime : Half) (count : Byte) (breaks : Vector BreakArg 6) :
    CommandRule.Blind (applyStagePlan length takt overtime count breaks) := by
  rintro s t ⟨x, rfl⟩
  unfold applyStagePlan
  split <;> exact .pair ⟨x, rfl⟩ _

theorem applyCommit_blind (mode : Nat) : CommandRule.Blind (applyCommit mode) := by
  intro s t h
  obtain ⟨x, rfl⟩ := id h
  refine .ite Iff.rfl (.pair h _) ?_
  show AlikeButTransaction (match s.timer.staged with | none => _ | some p => _)
    (match s.timer.staged with | none => _ | some p => _)
  split
  · exact .pair h _
  · rename_i p _
    exact .ite Iff.rfl (.pair h _) (.ite Iff.rfl (.pair (h.commitNow p) _) (.pair ⟨x, rfl⟩ _))

theorem applyDiscard_blind : CommandRule.Blind applyDiscard := by
  rintro s t ⟨x, rfl⟩
  exact .pair ⟨x, rfl⟩ _

theorem SameButTransaction.applyShiftStart {s t : State} (h : SameButTransaction s t) (number offset : Nat) :
    AlikeButTransaction (applyShiftStart number offset s) (applyShiftStart number offset t) := by
  obtain ⟨x, rfl⟩ := id h
  refine .ite Iff.rfl (.pair h _) ?_
  show AlikeButTransaction
    (match s.timer.state with | .noShift => _ | .closing => _ | .production | .inBreak | .overtime => _)
    (match s.timer.state with | .noShift => _ | .closing => _ | .production | .inBreak | .overtime => _)
  split
  · show AlikeButTransaction (match s.timer.opening with | none => _ | some p => _)
      (match s.timer.opening with | none => _ | some p => _)
    split
    · exact .pair h _
    · exact .pair (h.handOn (h.openShift _ number offset)) _
  · exact .pair (h.holdStart number offset) _
  all_goals
    exact .ite Iff.rfl (h.applyTimeMark number offset)
      (.pair (h.handOn ((h.holdStart number offset).startClose _)) _)

theorem applyShiftStart_blind (number offset : Nat) :
    CommandRule.Blind fun s => plantVerdict (applyShiftStart number offset s) := fun _ _ h =>
  have alike := h.applyShiftStart number offset
  ⟨alike.1, congrArg Verdict.plant alike.2⟩

theorem applyShiftClose_blind : CommandRule.Blind applyShiftClose := by
  intro s t h
  obtain ⟨x, rfl⟩ := id h
  exact .ite Iff.rfl (.pair (h.handOn (h.startClose _)) _) (.pair h _)

theorem applyAckCall_blind (number responder : Nat) : CommandRule.Blind (applyAckCall number responder) := by
  intro s t h
  obtain ⟨x, rfl⟩ := id h
  refine .ite Iff.rfl (.pair h _) ?_
  show AlikeButTransaction (match s.callList.numbered number with | none => _ | some c => _)
    (match s.callList.numbered number with | none => _ | some c => _)
  split
  · exact .pair h _
  · exact .ite Iff.rfl (.pair h _) (.pair ⟨x, rfl⟩ _)

theorem applyClearCall_blind (number responder : Nat) : CommandRule.Blind (applyClearCall number responder) := by
  intro s t h
  obtain ⟨x, rfl⟩ := id h
  refine .ite Iff.rfl (.pair h _) ?_
  show AlikeButTransaction (match s.callList.numbered number with | none => _ | some c => _)
    (match s.callList.numbered number with | none => _ | some c => _)
  split
  · exact .pair h _
  · exact .pair (h.closeCall _ _) _

theorem applyLayoutZone_blind (zone used first last pitch coast stall capacity : Nat) :
    CommandRule.Blind (applyLayoutZone zone used first last pitch coast stall capacity) := by
  intro s t h
  have stored (k : Fin 6) (new : Layout) : SameButTransaction (storeZone k new s) (storeZone k new t) := by
    refine h.settleTracker (SameButTransaction.raise (SameButTransaction.raise ?_ _) _)
    obtain ⟨x, rfl⟩ := h
    exact ⟨x, rfl⟩
  obtain ⟨x, rfl⟩ := id h
  refine .ite Iff.rfl (.pair h _) ?_
  split
  · exact .pair h _
  · exact .ite Iff.rfl (.pair h _) (.ite Iff.rfl (.pair h _) (.pair (stored _ _) _))

theorem applyLayoutStation_blind (station : Nat) (flag : Bool) (length : Nat) :
    CommandRule.Blind (applyLayoutStation station flag length) := by
  intro s t h
  obtain ⟨x, rfl⟩ := id h
  refine .ite Iff.rfl (.pair h _) ?_
  split
  · exact .pair h _
  · refine .ite Iff.rfl (.pair h _) (.pair (h.settleTracker (SameButTransaction.raise (.raise ?_ _) _)) _)
    exact ⟨x, rfl⟩

theorem applyPolicy_blind (thresholds : Vector Half 15) (grace : Half) :
    CommandRule.Blind (applyPolicy thresholds grace) := by
  rintro s t ⟨x, rfl⟩
  exact .pair ⟨x, rfl⟩ _

theorem applyLinkSettings_blind (lineCode plantCode settings : Byte) :
    CommandRule.Blind (applyLinkSettings lineCode plantCode settings) := by
  rintro s t ⟨x, rfl⟩
  exact .ite Iff.rfl (.pair ⟨x, rfl⟩ _) (.pair ⟨x, rfl⟩ _)

/-- A rule that changes the Frame Store alone, by what stands there. -/
theorem onFrame_blind (f : FrameStore → FrameStore) (r : PlantResult) :
    CommandRule.Blind fun s => (s.onFrame f, r) := by
  rintro s t ⟨x, rfl⟩
  exact .pair ⟨x, rfl⟩ _

theorem applyControl_blind (order column row wrap : Nat) : CommandRule.Blind (applyControl order column row wrap) := by
  rintro s t ⟨x, rfl⟩
  exact .ite Iff.rfl (.pair ⟨x, rfl⟩ _) (.pair ⟨x, rfl⟩ _)

theorem applyMode_blind (code : Nat) : CommandRule.Blind (applyMode code) := by
  rintro s t ⟨x, rfl⟩
  unfold applyMode
  split <;> exact .pair ⟨x, rfl⟩ _

theorem applyRegion_blind (entry role x0 y0 x1 y1 : Nat) (enabled : Bool) (header scroll : Nat) :
    CommandRule.Blind (applyRegion entry role x0 y0 x1 y1 enabled header scroll) := by
  intro s t h
  have stored (i : Fin 8) (new : Region) : SameButTransaction (storeRegion i new s) (storeRegion i new t) := by
    obtain ⟨x, rfl⟩ := h
    exact ⟨x, rfl⟩
  obtain ⟨x, rfl⟩ := id h
  unfold applyRegion
  split
  · exact .ite Iff.rfl (.pair h _) (.ite Iff.rfl (.pair h _) (.pair (stored _ _) _))
  · exact .pair h _

theorem applyIntensity_blind (target ramp flags : Nat) : CommandRule.Blind (applyIntensity target ramp flags) := by
  rintro s t ⟨x, rfl⟩
  exact .ite Iff.rfl (.pair ⟨x, rfl⟩ _) (.pair (.ite Iff.rfl ⟨x, rfl⟩ ⟨x, rfl⟩) _)

theorem applyRestart_blind : CommandRule.Blind applyRestart := by
  rintro s t ⟨x, rfl⟩
  exact .pair ⟨x, rfl⟩ _

/-! ### Commands taken once decoded (R132, R133, log 6) -/

/-- What a plant command's function does: nothing where its bytes are ignored, else what follows its decoding. -/
def onceDecoded (p : PlantCommand) (g : State → State) (s : State) : State :=
  match s.decoded p with
  | none => s
  | some t => g t

/-- A command is one event of what follows its decoding, whatever the transaction was before it. -/
def TakenOnceDecoded (p : PlantCommand) (c : Instr) : Prop :=
  ∃ g : State → State, (∀ x s, g (setTransaction x s) = g s) ∧
    ((∀ s, exec c s = event (onceDecoded p g) s) ∨ ∀ s, exec c s = centreEvent (onceDecoded p g) s)

/-- What a command that changes state does once decoded does not look at the transaction. -/
theorem CommandRule.Blind.taken {rule : CommandRule} (blind : rule.Blind) (x : Transaction) (s : State) :
    setTransaction .ignoring (setPlantResult (rule (setTransaction x s)).2 (rule (setTransaction x s)).1) =
      setTransaction .ignoring (setPlantResult (rule s).2 (rule s).1) := by
  obtain ⟨state, result⟩ := blind s (setTransaction x s) ⟨x, rfl⟩
  rw [result]
  exact (state.of_commutes (f := setPlantResult (rule s).2) fun _ _ => rfl).set .ignoring

theorem TakenOnceDecoded.command {p : PlantCommand} {c : Instr} {rule : CommandRule} (blind : rule.Blind)
    (h : ∀ s, exec c s = event (takeCommand p rule) s) : TakenOnceDecoded p c :=
  ⟨_, blind.taken, .inl h⟩

theorem TakenOnceDecoded.centre {p : PlantCommand} {c : Instr} {rule : CommandRule} (blind : rule.Blind)
    (h : ∀ s, exec c s = centreEvent (takeCommand p rule) s) : TakenOnceDecoded p c :=
  ⟨_, blind.taken, .inr h⟩

theorem TakenOnceDecoded.read {p : PlantCommand} {c : Instr} {reply : State → Transaction}
    (blind : ∀ x s, reply (setTransaction x s) = reply s) (h : ∀ s, exec c s = event (takeRead p reply) s) :
    TakenOnceDecoded p c :=
  ⟨fun s => setTransaction (reply s) s, fun x s => congrArg (setTransaction · s) (blind x s), .inl h⟩

/-- Every plant command is taken so. -/
theorem Spells.takenOnceDecoded {p : PlantCommand} {c : Instr} (h : Spells p c) : TakenOnceDecoded p c := by
  cases h with
  | readStatus => exact .read (reply := fun _ => .status none) (fun _ _ => rfl) fun _ => rfl
  | readStation n => exact .read (reply := fun _ => .station n none) (fun _ _ => rfl) fun _ => rfl
  | readCalls =>
    exact .read (reply := fun t => .calls (t.callList.calls.map Call.number) []) (fun _ _ => rfl) fun _ => rfl
  | readPace => exact .read (reply := fun _ => .pace none) (fun _ _ => rfl) fun _ => rfl
  | readLoss => exact .read (reply := fun _ => .loss 0 []) (fun _ _ => rfl) fun _ => rfl
  | readSummary n =>
    exact .read (reply := fun t => .summary (t.archive.aged n.toNat) none) (fun _ _ => rfl) fun _ => rfl
  | readHistory => exact .read (reply := fun _ => .history none) (fun _ _ => rfl) fun _ => rfl
  | rewindHistory => exact .command applyRewind_blind fun _ => rfl
  | stagePlan l t o c b => exact .command (applyStagePlan_blind l t o c b) fun _ => rfl
  | commitPlan m => exact .centre (applyCommit_blind m.toNat) fun _ => rfl
  | discardPlan => exact .command applyDiscard_blind fun _ => rfl
  | shiftStart n o => exact .centre (applyShiftStart_blind n.toNat o.toNat) fun _ => rfl
  | shiftClose => exact .centre applyShiftClose_blind fun _ => rfl
  | ackCall n r => exact .command (applyAckCall_blind n.toNat r.toNat) fun _ => rfl
  | clearCall n r => exact .centre (applyClearCall_blind n.toNat r.toNat) fun _ => rfl
  | writeLayoutZone => exact .centre (applyLayoutZone_blind _ _ _ _ _ _ _ _) fun _ => rfl
  | writeLayoutStation => exact .centre (applyLayoutStation_blind _ _ _) fun _ => rfl
  | writePolicy v g => exact .command (applyPolicy_blind v g) fun _ => rfl
  | writeLinkSettings a b c => exact .centre (applyLinkSettings_blind a b c) fun _ => rfl
  | setWindow => exact .command (onFrame_blind _ .ok) fun _ => rfl
  | setCursor => exact .command (onFrame_blind _ .ok) fun _ => rfl
  | setAddressControl => exact .command (applyControl_blind _ _ _ _) fun _ => rfl
  | setColourMode => exact .command (applyMode_blind _) fun _ => rfl
  | setMask => exact .command (onFrame_blind _ .ok) fun _ => rfl
  | setMark => exact .command (onFrame_blind _ .ok) fun _ => rfl
  | returnToMark => exact .command (onFrame_blind _ .ok) fun _ => rfl
  | writePixels o =>
    refine ⟨fun t => if 1 < o.toNat then setTransaction .pixelsRefused (setPlantResult .range t)
      else setTransaction (.pixelsIn t.frame.colourMode) (if o.toNat = 0 then clampCursor t else cornerCursor t),
      fun x s => ?_, .inl fun _ => rfl⟩
    dsimp only
    split
    · rfl
    · split <;> rfl
  | readPixels =>
    exact ⟨fun t => setTransaction (.pixelsOut none) (clampCursor t), fun _ _ => rfl, .inl fun _ => rfl⟩
  | writeRegion => exact .command (applyRegion_blind _ _ _ _ _ _ _ _ _) fun _ => rfl
  | setIntensity => exact .command (applyIntensity_blind _ _ _) fun _ => rfl
  | restartTiles => exact .command applyRestart_blind fun _ => rfl

theorem decoded_none {s : State} {p : PlantCommand} (notReady : s.plant.transaction ≠ .ready)
    (notArguments : s.plant.transaction ≠ .arguments p) : s.decoded p = none := by
  unfold State.decoded
  split
  · exact absurd ‹_› notReady
  · rename_i d at_
    exact if_neg fun same : d = p => notArguments (same ▸ at_)
  all_goals rfl

/-- Where its bytes are ignored a command changes nothing. -/
theorem TakenOnceDecoded.ignored {p : PlantCommand} {c : Instr} {s : State} (h : TakenOnceDecoded p c)
    (running : s.inReset = false) (quiet : s.Quiet) (causes : s.CausesCurrent) (none : s.decoded p = none) :
    exec c s = .next s := by
  obtain ⟨g, -, next | next⟩ := h
  all_goals have same : onceDecoded p g s = s := by simp only [onceDecoded, none]
  · exact (next s).trans (event_unchanged running quiet same)
  · exact (next s).trans (centreEvent_unchanged running quiet causes same)

/-- The decision is made against the effective target that the event began with. -/
theorem decideAlert_congr {old old' : State} (same : old'.effectiveTarget = old.effectiveTarget) (s : State) :
    decideAlert old' s = decideAlert old s := by
  unfold decideAlert
  rw [same]

/-- Taken from the ready decoder, a command with arguments is its command byte, an event of its own, and then the
command waiting for its arguments (R133; log 6). -/
theorem TakenOnceDecoded.after_byte {p : PlantCommand} {c : Instr} {s : State} (h : TakenOnceDecoded p c)
    (running : s.inReset = false) (ready : s.plant.transaction = .ready) (bytes : 0 < p.argBytes) :
    exec c s = exec c (serve (setTransaction (.arguments p) (restartPlantLink s))) := by
  have byte : s.decoded p = some (serve (restartPlantLink s)) := by
    simp only [State.decoded, ready, commandByteTaken, if_neg (Nat.pos_iff_ne_zero.1 bytes)]
  have waiting : serve (setTransaction (.arguments p) (restartPlantLink s)) =
    setTransaction (.arguments p) (serve (restartPlantLink s)) := rfl
  have args : (setTransaction (.arguments p) (serve (restartPlantLink s))).decoded p =
      some (setTransaction (.arguments p) (serve (restartPlantLink s))) := if_pos rfl
  have running' : (setTransaction (.arguments p) (serve (restartPlantLink s))).inReset = false :=
    (inReset_congr (by simp)).trans running
  have target : (setTransaction (.arguments p) (serve (restartPlantLink s))).effectiveTarget = s.effectiveTarget := by
    simp only [State.effectiveTarget]
    simp
  obtain ⟨g, blind, next | next⟩ := h
  all_goals
    have taken : onceDecoded p g s = g (serve (restartPlantLink s)) := by simp only [onceDecoded, byte]
    have taken' : onceDecoded p g (setTransaction (.arguments p) (serve (restartPlantLink s))) =
      g (serve (restartPlantLink s)) := by simp only [onceDecoded, args, blind]
  · rw [waiting, next, next, event_next _ s running, event_next _ _ running', taken, taken']
  · rw [waiting, next, next, centreEvent_next _ s running, centreEvent_next _ _ running', taken, taken',
      decideAlert_congr target]

end Sys2Proof.Machine
end

section
/-! Commands that stand where they cannot be taken (R126, R132, R133; log 4, log 6, log 7). -/

namespace Sys2Proof.Machine

/-! ### Frames (R126, R127) -/

/-- The rule of a frame type. -/
def ruleOf : FrameType → FrameRule
  | .pull => pullRule
  | .release => releaseRule
  | .leaderAck => leaderAckRule
  | .leaderReset => leaderResetRule
  | .bufferSet => bufferSetRule
  | .countAdjust => countAdjustRule
  | .shiftStart => shiftStartRule
  | .timeMark => timeMarkRule
  | .keepalive => keepaliveRule

/-- The command of a frame type takes the oldest frame by that type's rule. -/
theorem exec_takerOf (ty : FrameType) :
    (∀ s, exec (takerOf ty) s = event (takeFrame (ruleOf ty)) s) ∨
      ∀ s, exec (takerOf ty) s = centreEvent (takeFrame (ruleOf ty)) s := by
  cases ty with
  | leaderAck | timeMark | keepalive => exact .inl fun _ => rfl
  | pull | release | leaderReset | bufferSet | countAdjust | shiftStart => exact .inr fun _ => rfl

/-- A rule has no meaning for a frame of another type. -/
theorem ruleOf_none {ty : FrameType} {f : Frame} (other : f.type ≠ ty) : ruleOf ty f = none := by
  revert other
  cases ty <;> cases f <;>
    simp [ruleOf, Frame.type, pullRule, releaseRule, leaderAckRule, leaderResetRule, bufferSetRule, countAdjustRule,
      shiftStartRule, timeMarkRule, keepaliveRule]

/-- With no frame of its type at the head, no frame leaves the queue (log 4). -/
theorem takeFrame_other {ty : FrameType} {s : State} (other : ∀ f rest, s.line.queue = f :: rest → f.type ≠ ty) :
    takeFrame (ruleOf ty) s = s := by
  unfold takeFrame
  split
  · rfl
  · rename_i f rest queued
    rw [ruleOf_none (other f rest queued)]

/-! ### Framing (R132, R133, R141) -/

theorem csFalls_within {s : State} (begun : s.plant.transaction ≠ .waiting) : csFalls s = s := if_neg begun

theorem sckEdge_waiting (e : SckEdge) {s : State} (waiting : s.plant.transaction = .waiting) : sckEdge e s = .next s :=
  if_pos (by simp [waiting])

theorem unknownCode_elsewhere {b : Byte} {s : State}
    (elsewhere : s.plant.transaction ≠ .ready ∨ decodePlantCode b ≠ none) : unknownCode b s = s :=
  if_neg fun ⟨ready, unknown⟩ => elsewhere.elim (· ready) (· unknown)

theorem argumentsFollow_elsewhere {b : Byte} {s : State}
    (elsewhere : s.plant.transaction ≠ .ready ∨ ∀ c, decodePlantCode b = some c → c.argBytes = 0) :
    argumentsFollow b s = s := by
  unfold argumentsFollow
  split
  · rfl
  · rename_i c code
    exact if_neg fun ⟨ready, bytes⟩ => elsewhere.elim (· ready) fun bare => bytes.ne' (bare c code)

/-! ### Slots, flag bytes, first bytes and pixels of another transaction (R116, R135 to R140, R151, R153) -/

section
variable {s : State}

theorem captureStatus_elsewhere (h : s.plant.transaction ≠ .status none) : captureStatus s = s := by
  unfold captureStatus
  split
  · exact absurd ‹_› h
  · rfl

theorem flagByteSent_elsewhere (h : ∀ r, s.plant.transaction ≠ .status (some r)) : flagByteSent s = s := by
  unfold flagByteSent
  split
  · exact absurd ‹_› (h _)
  · rfl

theorem capturePresence_elsewhere (h : ∀ r, s.plant.transaction = .status (some r) → r.extension ≠ none) :
    capturePresence s = s := by
  unfold capturePresence
  split
  · exact if_neg (h _ ‹_›)
  · rfl

theorem captureStation_elsewhere (h : ∀ n, s.plant.transaction ≠ .station n none) : captureStation s = s := by
  unfold captureStation
  split
  · exact absurd ‹_› (h _)
  · rfl

theorem beginCallSlot_elsewhere (h : ∀ noted slot, s.plant.transaction ≠ .calls noted slot) : beginCallSlot s = s := by
  unfold beginCallSlot
  split
  · exact absurd ‹_› (h _ _)
  · rfl

theorem capturePace_elsewhere (h : s.plant.transaction ≠ .pace none) : capturePace s = s := by
  unfold capturePace
  split
  · exact absurd ‹_› h
  · rfl

theorem captureLossEntry_elsewhere (h : ∀ n e, s.plant.transaction ≠ .loss n e) : captureLossEntry s = s := by
  unfold captureLossEntry
  split
  · exact absurd ‹_› (h _ _)
  · rfl

theorem captureSummary_elsewhere (h : ∀ slot, s.plant.transaction ≠ .summary slot none) : captureSummary s = s := by
  unfold captureSummary
  split
  · exact absurd ‹_› (h _)
  · rfl

theorem beginHistorySlot_elsewhere (h : ∀ sl, s.plant.transaction ≠ .history sl) : beginHistorySlot s = s := by
  unfold beginHistorySlot
  split
  · exact absurd ‹_› (h _)
  · rfl

theorem endHistorySlot_elsewhere (h : ∀ sl, s.plant.transaction ≠ .history (some sl)) : endHistorySlot s = s := by
  unfold endHistorySlot
  split
  · exact absurd ‹_› (h _)
  · rfl

theorem applyGroup_elsewhere (bytes : List Byte) (h : ∀ mode, s.plant.transaction ≠ .pixelsIn mode) :
    applyGroup bytes s = s := by
  unfold applyGroup
  split
  · exact absurd ‹_› (h _)
  · rfl

theorem beginPixel_elsewhere (h : ∀ p, s.plant.transaction ≠ .pixelsOut p) : beginPixel s = s := by
  unfold beginPixel
  split
  · exact absurd ‹_› (h _)
  · rfl

theorem endPixel_elsewhere (h : ∀ p, s.plant.transaction ≠ .pixelsOut (some p)) : endPixel s = s := by
  unfold endPixel
  split
  · exact absurd ‹_› (h _)
  · rfl

end

/-- Settles O42: the function of each command leaves such a state as it is, and so does its event, with nothing latched
and the causes true. -/
theorem commandsOutsideTheirPlaceChangeNothing : Obligations.CommandsOutsideTheirPlaceChangeNothing := by
  intro s running quiet causes
  have unchanged {f : State → State} (h : f s = s) : event f s = .next s := event_unchanged running quiet h
  refine ⟨fun p c spelled notReady notArguments =>
      spelled.takenOnceDecoded.ignored running quiet causes (decoded_none notReady notArguments),
    fun ty other => ?frame, fun begun => unchanged (csFalls_within begun), fun e waiting => sckEdge_waiting e waiting,
    fun b elsewhere => unchanged (unknownCode_elsewhere elsewhere),
    fun b elsewhere => unchanged (argumentsFollow_elsewhere elsewhere), ?slots⟩
  case frame =>
    rcases exec_takerOf ty with next | next
    · exact (next s).trans (unchanged (takeFrame_other other))
    · exact (next s).trans (centreEvent_unchanged running quiet causes (takeFrame_other other))
  case slots =>
    exact ⟨fun h => unchanged (captureStatus_elsewhere h), fun h => unchanged (flagByteSent_elsewhere h),
      fun h => unchanged (capturePresence_elsewhere h), fun h => unchanged (captureStation_elsewhere h),
      fun h => unchanged (beginCallSlot_elsewhere h), fun h => unchanged (capturePace_elsewhere h),
      fun h => unchanged (captureLossEntry_elsewhere h), fun h => unchanged (captureSummary_elsewhere h),
      fun h => unchanged (beginHistorySlot_elsewhere h), fun h => unchanged (endHistorySlot_elsewhere h),
      fun bytes h => unchanged (applyGroup_elsewhere bytes h), fun h => unchanged (beginPixel_elsewhere h),
      fun h => unchanged (endPixel_elsewhere h)⟩

end Sys2Proof.Machine
end

section
/-! The bytes that spell a plant command, read back as its operands (R181). -/

namespace Sys2Proof.Machine

theorem halfAt_halfBytes (h : Half) (rest : List Byte) : halfAt (halfBytes h ++ rest) 0 = h := halfOf_bytes h

/-- Field `i` of some two-byte fields sent one after another. -/
theorem halfAt_flatMap (hs : List Half) {i : Nat} (bound : i < hs.length) :
    halfAt (hs.flatMap halfBytes) (2 * i) = hs[i] := by
  induction hs generalizing i with
  | nil => cases bound
  | cons h hs ih =>
    cases i with
    | zero => exact halfAt_halfBytes h _
    | succ i => exact ih (Nat.lt_of_succ_lt_succ bound)

/-- The two fields of a break entry, most significant byte first. -/
def breakBytes (x : BreakArg) : List Byte := halfBytes x.start ++ halfBytes x.length

/-- Break entry `i` of some entries sent one after another. -/
theorem halfAt_breaks (bs : List BreakArg) {i : Nat} (bound : i < bs.length) :
    halfAt (bs.flatMap breakBytes) (4 * i) = bs[i].start ∧ halfAt (bs.flatMap breakBytes) (4 * i + 2) = bs[i].length := by
  induction bs generalizing i with
  | nil => cases bound
  | cons b bs ih =>
    cases i with
    | zero => exact ⟨halfOf_bytes b.start, halfOf_bytes b.length⟩
    | succ i => exact ih (Nat.lt_of_succ_lt_succ bound)

/-- The argument bytes of STAGE PLAN. -/
def stagePlanBytes (l t o : Half) (c : Byte) (bs : List BreakArg) : List Byte :=
  halfBytes l ++ halfBytes t ++ halfBytes o ++ [c] ++ bs.flatMap breakBytes

/-- Its break entries begin after seven bytes. -/
theorem breakAt_stagePlanBytes (l t o : Half) (c : Byte) (bs : List BreakArg) {i : Nat} (bound : i < bs.length) :
    breakAt (stagePlanBytes l t o c bs) i = bs[i] := by
  obtain ⟨start, length⟩ := halfAt_breaks bs bound
  unfold breakAt
  rw [Nat.add_comm 7, Nat.add_comm 9]
  exact congrArg₂ BreakArg.mk start length

theorem takeSpelled_stagePlan (l t o : Half) (c : Byte) (b : Vector BreakArg 6) (s : State) :
    takeSpelled .stagePlan (stagePlanBytes l t o c b.toList) s = execStagePlan l t o c b s := by
  have length : halfAt (stagePlanBytes l t o c b.toList) 0 = l := halfOf_bytes l
  have takt : halfAt (stagePlanBytes l t o c b.toList) 2 = t := halfOf_bytes t
  have overtime : halfAt (stagePlanBytes l t o c b.toList) 4 = o := halfOf_bytes o
  have breaks : (Vector.ofFn fun i : Fin 6 => breakAt (stagePlanBytes l t o c b.toList) i.val) = b := by
    apply Vector.ext
    intro i bound
    rw [Vector.getElem_ofFn, breakAt_stagePlanBytes l t o c b.toList (by simpa using bound), Vector.getElem_toList]
  simp only [takeSpelled, length, takt, overtime, breaks]
  rfl

theorem takeSpelled_writePolicy (v : Vector Half 15) (g : Half) (s : State) :
    takeSpelled .writePolicy (v.toList.flatMap halfBytes ++ halfBytes g) s = execWritePolicy v g s := by
  have joined : v.toList.flatMap halfBytes ++ halfBytes g = (v.toList ++ [g]).flatMap halfBytes := by simp
  have thresholds : (Vector.ofFn fun i : Fin 15 => halfAt ((v.toList ++ [g]).flatMap halfBytes) (2 * i.val)) = v := by
    apply Vector.ext
    intro i bound
    rw [Vector.getElem_ofFn, halfAt_flatMap _ (by simp; omega), List.getElem_append_left (by simpa using bound),
      Vector.getElem_toList]
  have grace : halfAt ((v.toList ++ [g]).flatMap halfBytes) 30 = g :=
    (halfAt_flatMap (i := 15) _ (by simp)).trans (by simp)
  simp only [joined, takeSpelled, thresholds, grace]

/-- What spells a command has as many bytes as the command takes. -/
theorem SpelledBy.length {p : PlantCommand} {args : List Byte} {i : Instr} (h : SpelledBy p args i) :
    args.length = p.argBytes := by
  cases h with
  | stagePlan l t o c b => simp [halfBytes, PlantCommand.argBytes]
  | writePolicy v g => simp [halfBytes, PlantCommand.argBytes]
  | _ => rfl

/-- The argument bytes of a command are taken as the command they spell. -/
theorem SpelledBy.taken {p : PlantCommand} {args : List Byte} {i : Instr} (h : SpelledBy p args i) (s : State) :
    takeSpelled p args s = exec i s := by
  cases h with
  | stagePlan l t o c b => exact takeSpelled_stagePlan l t o c b s
  | writePolicy v g => exact takeSpelled_writePolicy v g s
  | shiftStart n o => exact congrArg₂ (execPlantShiftStart · · s) (halfOf_bytes n) (halfOf_bytes o)
  | ackCall n r => exact congrArg (execAckCall · r s) (halfOf_bytes n)
  | clearCall n r => exact congrArg (execClearCall · r s) (halfOf_bytes n)
  | _ => rfl

end Sys2Proof.Machine
end

section
/-! CS edges, command bytes, and the bits on SCK, MOSI and MISO (R132, R133, R135, R141, R149). -/

namespace Sys2Proof.Machine

/-! ### CS (R132, R133) -/

/-- The commands that are cut without ABORTED are those that change no state (R133). -/
theorem changesState_eq_false_iff (c : PlantCommand) :
    c.changesState = false ↔ c = .readStation ∨ c = .readSummary ∨ c.argBytes = 0 ∧ c.changesState = false := by
  cases c <;> decide

theorem resultAtCsRising_arguments (c : PlantCommand) (bytes : Nat) (r : PlantResult) :
    resultAtCsRising (.arguments c) bytes r =
      if c = .readStation ∨ c = .readSummary ∨ c.argBytes = 0 ∧ c.changesState = false then r else .aborted := by
  by_cases reads : c.changesState = false
  · rw [if_pos ((changesState_eq_false_iff c).1 reads)]
    simp [resultAtCsRising, reads]
  · rw [if_neg (mt (changesState_eq_false_iff c).2 reads)]
    simp [resultAtCsRising, eq_true_of_ne_false reads]

/-- Every other transaction keeps the result. -/
theorem resultAtCsRising_keeps {t : Transaction} (arguments : ∀ c, t ≠ .arguments c) (pixels : ∀ m, t ≠ .pixelsIn m)
    (bytes : Nat) (r : PlantResult) : resultAtCsRising t bytes r = r := by
  unfold resultAtCsRising
  split
  · exact absurd rfl (arguments _)
  · exact absurd rfl (pixels _)
  all_goals rfl

/-- CS rising ends the transaction, with the bits of a byte cut short. -/
theorem csRising_next {s : State} (bytes bits : Nat) (running : s.inReset = false) (quiet : s.Quiet) {r : PlantResult}
    (h : resultAtCsRising s.plant.transaction (bytes + s.plant.clock.bytes.length) s.plant.lastResult = r) :
    exec (.csRising bytes bits) s =
      .next { s with plant := { s.plant with
        transaction := .waiting, lastResult := r, clock := ⟨false, [], [], 0, true⟩ } } := by
  have next := event_onPlant (f := csRises bytes) running quiet rfl
  rw [h] at next
  exact next

/-! ### Command bytes (R132, R133, R141) -/

theorem unknownCommand_next {code : Byte} {s : State} (running : s.inReset = false) (quiet : s.Quiet)
    (ready : s.plant.transaction = .ready) (unknown : decodePlantCode code = none) :
    exec (.unknownCommand code) s = .next { s with plant := { s.plant with transaction := .ignoring } } :=
  event_setTransaction (f := unknownCode code) running quiet (if_pos ⟨ready, unknown⟩)

theorem commandByte_next {code : Byte} {c : PlantCommand} {s : State} (running : s.inReset = false)
    (ready : s.plant.transaction = .ready) (decoded : decodePlantCode code = some c) (bytes : 0 < c.argBytes) :
    exec (.commandByte (.byte code)) s = .next (serve (setTransaction (.arguments c) (restartPlantLink s))) := by
  have taken : argumentsFollow code s = setTransaction (.arguments c) (restartPlantLink s) := by
    simp only [argumentsFollow, decoded]
    exact if_pos ⟨ready, bytes⟩
  exact (event_next (argumentsFollow code) s running).trans (by rw [taken])

/-! ### MISO (R132, R135, log 32) -/

/-- No reply is served before and between a command's bytes, in a WRITE PIXELS and after a command without one. -/
theorem reply_idle {t : Transaction}
    (h : t = .ready ∨ (∃ c, t = .arguments c) ∨ t = .ignoring ∨ (∃ m, t = .pixelsIn m) ∨ t = .pixelsRefused)
    (i : Nat) :
    t ≠ .waiting ∧ t.reply i = 0xFF := by
  rcases h with rfl | ⟨c, rfl⟩ | rfl | ⟨m, rfl⟩ | rfl <;> exact ⟨nofun, rfl⟩

/-! ### The rising edge of SCK (R132, log 34) -/

/-- SCK already HIGH rises no more. -/
theorem sckRises_high {s : State} (mosi : Bool) (h : s.plant.transaction = .waiting ∨ s.plant.clock.sck = true) :
    exec (.commandByte (.edge (.rises mosi))) s = .next s := by
  show sckEdge (.rises mosi) s = _
  unfold sckEdge
  split
  · rfl
  · rename_i begun
    exact if_pos (h.resolve_left (by simp_all))

/-- SCK already LOW falls no more. -/
theorem sckFalls_low {s : State} (h : s.plant.transaction = .waiting ∨ s.plant.clock.sck = false) :
    exec (.commandByte (.edge .falls)) s = .next s := by
  show sckEdge .falls s = _
  unfold sckEdge
  split
  · rfl
  · rename_i begun
    exact if_neg (by simp_all)

theorem sckEdge_begun {s : State} (running : s.inReset = false) (begun : s.plant.transaction ≠ .waiting) :
    ¬(s.inReset || s.plant.transaction = .waiting) = true := by
  simp [running, begun]

theorem rises_eq {s : State} (mosi : Bool) (running : s.inReset = false) (begun : s.plant.transaction ≠ .waiting)
    (low : s.plant.clock.sck = false) : exec (.commandByte (.edge (.rises mosi))) s = sckRises mosi s := by
  show sckEdge (.rises mosi) s = _
  rw [sckEdge, if_neg (sckEdge_begun running begun)]
  exact if_neg (by simp [low])

theorem falls_eq {s : State} (running : s.inReset = false) (begun : s.plant.transaction ≠ .waiting)
    (high : s.plant.clock.sck = true) : exec (.commandByte (.edge .falls)) s = sckFalls s := by
  show sckEdge .falls s = _
  rw [sckEdge, if_neg (sckEdge_begun running begun)]
  exact if_pos high

/-- A bit of a byte taken. -/
theorem sckRises_bit {s : State} (mosi : Bool) (within : s.plant.clock.bits.length < 7) :
    sckRises mosi s =
      .next (setPlantClock { s.plant.clock with sck := true, bits := s.plant.clock.bits ++ [mosi] } s) :=
  if_pos (by simp; omega)

/-- The eighth bit completes its byte. -/
theorem sckRises_byte {s : State} (mosi : Bool) (last : 7 ≤ s.plant.clock.bits.length) :
    sckRises mosi s =
      mosiByteClocked (byteOfBits (s.plant.clock.bits ++ [mosi]))
        (setPlantClock { s.plant.clock with sck := true, bits := [] } s) :=
  if_neg (by simp; omega)

/-! ### A byte from MOSI whole (R132, R133, R149) -/

section
variable {s : State} {b : Byte}

theorem mosiByte_unknown (ready : s.plant.transaction = .ready) (unknown : decodePlantCode b = none) :
    mosiByteClocked b s = exec (.unknownCommand b) s := by
  simp only [mosiByteClocked, ready, unknown]
  rfl

theorem mosiByte_arguments {p : PlantCommand} (ready : s.plant.transaction = .ready)
    (decoded : decodePlantCode b = some p) (bytes : 0 < p.argBytes) :
    mosiByteClocked b s = exec (.commandByte (.byte b)) s := by
  simp only [mosiByteClocked, ready, decoded, if_neg (Nat.pos_iff_ne_zero.1 bytes)]
  rfl

theorem mosiByte_bare {p : PlantCommand} {i : Instr} (ready : s.plant.transaction = .ready)
    (decoded : decodePlantCode b = some p) (spelled : SpelledBy p [] i) : mosiByteClocked b s = exec i s := by
  have bare : p.argBytes = 0 := spelled.length.symm
  simp only [mosiByteClocked, ready, decoded, if_pos bare, spelled.taken]

theorem mosiByte_argument {p : PlantCommand} (waiting : s.plant.transaction = .arguments p)
    (more : (s.plant.clock.bytes ++ [b]).length < p.argBytes) :
    mosiByteClocked b s = .next (setPlantClock { s.plant.clock with bytes := s.plant.clock.bytes ++ [b] } s) := by
  simp only [mosiByteClocked, waiting, if_pos more]

theorem mosiByte_spelled {p : PlantCommand} {i : Instr} (waiting : s.plant.transaction = .arguments p)
    (spelled : SpelledBy p (s.plant.clock.bytes ++ [b]) i) :
    mosiByteClocked b s = exec i (setPlantClock { s.plant.clock with bytes := [] } s) := by
  have last : ¬(s.plant.clock.bytes ++ [b]).length < p.argBytes := by simp [spelled.length]
  simp only [mosiByteClocked, waiting, if_neg last, spelled.taken]

theorem mosiByte_group {m : ColourMode} (pixels : s.plant.transaction = .pixelsIn m)
    (more : (s.plant.clock.bytes ++ [b]).length < m.groupBytes) :
    mosiByteClocked b s = .next (setPlantClock { s.plant.clock with bytes := s.plant.clock.bytes ++ [b] } s) := by
  simp only [mosiByteClocked, pixels, if_pos more]

theorem mosiByte_groupWhole {m : ColourMode} (pixels : s.plant.transaction = .pixelsIn m)
    (whole : m.groupBytes ≤ (s.plant.clock.bytes ++ [b]).length) :
    mosiByteClocked b s =
      exec (.pixelGroup (s.plant.clock.bytes ++ [b])) (setPlantClock { s.plant.clock with bytes := [] } s) := by
  simp only [mosiByteClocked, pixels, if_neg (Nat.not_lt.2 whole)]
  rfl

theorem mosiByte_ignored (h : s.plant.transaction = .ignoring ∨ s.plant.transaction = .pixelsRefused) :
    mosiByteClocked b s = .next s := by
  rcases h with h | h <;> simp only [mosiByteClocked, h]

/-! ### A byte of a reply clocked out (R116, R135, R137, R153) -/

/-- The transactions in which a reply is served, begun or not. -/
def Transaction.replies : Transaction → Bool
  | .status _ | .station _ _ | .calls _ _ | .pace _ | .loss _ _ | .summary _ _ | .history _ | .pixelsOut _ => true
  | .waiting | .ready | .arguments _ | .ignoring | .pixelsIn _ | .pixelsRefused => false

theorem mosiByte_reply (h : s.plant.transaction.replies = true) : mosiByteClocked b s = replyByteClocked s := by
  unfold mosiByteClocked
  cases t : s.plant.transaction <;> simp_all [Transaction.replies]

/-- A byte whose end does nothing is counted alone. -/
theorem replyByte_counted (status : ∀ r, s.plant.transaction ≠ .status (some r))
    (history : ∀ sl, s.plant.transaction ≠ .history (some sl))
    (pixels : ∀ p, s.plant.transaction ≠ .pixelsOut (some p)) :
    replyByteClocked s =
      .next (setPlantClock
        { s.plant.clock with sent := s.plant.transaction.sentAfter s.plant.clock.sent } s) := by
  unfold replyByteClocked
  dsimp only
  split
  · exact absurd ‹_› (status _)
  · exact absurd ‹_› (history _)
  · exact absurd ‹_› (pixels _)
  all_goals rfl

/-- The second byte of READ STATUS is its flag byte. -/
theorem replyByte_flag {r : StatusReply} (h : s.plant.transaction = .status (some r)) (flag : s.plant.clock.sent = 1) :
    replyByteClocked s = exec .statusFlagByteSent (setPlantClock { s.plant.clock with sent := 2 } s) := by
  simp only [replyByteClocked, h, flag]
  rfl

theorem replyByte_status {r : StatusReply} (h : s.plant.transaction = .status (some r))
    (other : s.plant.clock.sent ≠ 1) :
    replyByteClocked s = .next (setPlantClock { s.plant.clock with sent := s.plant.clock.sent + 1 } s) := by
  simp only [replyByteClocked, h, if_neg other]
  rfl

/-- A byte within a slot of READ HISTORY is counted. -/
theorem replyByte_record {sl : HistorySlot} {n : Nat} (h : s.plant.transaction = .history (some sl))
    (count : (Transaction.history (some sl)).sentAfter s.plant.clock.sent = n) (more : n ≠ 0) :
    replyByteClocked s = .next (setPlantClock { s.plant.clock with sent := n } s) := by
  simp only [replyByteClocked, h, count, if_neg more]

/-- Its last byte ends it. -/
theorem replyByte_recordEnd {sl : HistorySlot} {n : Nat} (h : s.plant.transaction = .history (some sl))
    (count : (Transaction.history (some sl)).sentAfter s.plant.clock.sent = n) (last : n = 0) :
    replyByteClocked s = exec (.historySlot .ends) (setPlantClock { s.plant.clock with sent := n } s) := by
  simp only [replyByteClocked, h, count, if_pos last]
  rfl

/-- A byte of a pixel of READ PIXELS. -/
theorem replyByte_pixel {p : Pixel} (h : s.plant.transaction = .pixelsOut (some p)) :
    replyByteClocked s =
      if s.plant.clock.sent = 0 then .next (setPlantClock { s.plant.clock with sent := 1 } s)
      else exec (.pixelRead .ends) (setPlantClock { s.plant.clock with sent := 0 } s) := by
  have two : (Transaction.pixelsOut (some p)).slotLength = some 2 := rfl
  simp only [replyByteClocked, h, Transaction.sentAfter, two]
  by_cases first : s.plant.clock.sent = 0
  · simp only [first]
    rfl
  · have last : ¬s.plant.clock.sent + 1 < 2 := by omega
    simp only [if_neg last, if_neg first, if_true]
    rfl

end

/-! ### The falling edge of SCK (R132, R135, log 34) -/

/-- The command whose capture the first bit of a reply's next byte begins, by the count of bytes served. -/
def Transaction.begins (t : Transaction) (sent : Nat) : Option Instr :=
  match t with
  | .status none => some (.readStatus .firstByte)
  | .status (some _) => if sent = 8 then some .presenceExtension else none
  | .station _ none => some (.readStation .firstByte)
  | .calls _ _ => if sent = 0 then some .callRecordSlot else none
  | .pace none => some (.readPace .firstByte)
  | .loss _ _ => if sent = 0 then some (.readLoss .firstByte) else none
  | .summary _ none => some (.readSummary .firstByte)
  | .history none => some (.historySlot .begins)
  | .pixelsOut none => some (.pixelRead .begins)
  | _ => none

/-- A command taken where there is one. -/
def execIfAny (i : Option Instr) (s : State) : Result :=
  match i with
  | some i => exec i s
  | none => .next s

theorem execIfAny_ite (p : Prop) [Decidable p] (i : Instr) (s : State) :
    execIfAny (if p then some i else none) s = if p then exec i s else .next s := by
  split <;> rfl

theorem replyByteBegins_eq (s : State) :
    replyByteBegins s = execIfAny (s.plant.transaction.begins s.plant.clock.sent) s := by
  unfold replyByteBegins
  dsimp only
  split
  all_goals rename_i h; rw [h]
  case h_2 => exact (execIfAny_ite (s.plant.clock.sent = 8) .presenceExtension s).symm
  case h_4 => exact (execIfAny_ite (s.plant.clock.sent = 0) .callRecordSlot s).symm
  case h_6 => exact (execIfAny_ite (s.plant.clock.sent = 0) (.readLoss .firstByte) s).symm
  all_goals rfl

theorem sameButTransaction_capture (s : State) :
    SameButTransaction s (captureStatus s) ∧ SameButTransaction s (capturePresence s) ∧
      SameButTransaction s (captureStation s) ∧ SameButTransaction s (beginCallSlot s) ∧
      SameButTransaction s (capturePace s) ∧ SameButTransaction s (captureLossEntry s) ∧
      SameButTransaction s (captureSummary s) ∧ SameButTransaction s (beginHistorySlot s) ∧
      SameButTransaction s (beginPixel s) := by
  unfold captureStatus capturePresence captureStation beginCallSlot capturePace captureLossEntry captureSummary
    beginHistorySlot beginPixel
  refine ⟨?_, ?_, ?_, ?_, ?_, ?_, ?_, ?_, ?_⟩
  all_goals (repeat' split) <;> exact ⟨_, rfl⟩

/-- What the first bit of a reply's byte captures changes the transaction at most. -/
theorem replyByteBegins_next {s : State} (running : s.inReset = false) (quiet : s.Quiet) :
    ∃ t, replyByteBegins s = .next t ∧ SameButTransaction s t := by
  have captured {f : State → State} (h : SameButTransaction s (f s)) :
      ∃ t, event f s = .next t ∧ SameButTransaction s t := by
    obtain ⟨x, h⟩ := h
    exact ⟨_, event_setTransaction running quiet h, x, rfl⟩
  have stays : ∃ t, (.next s : Result) = .next t ∧ SameButTransaction s t := ⟨s, rfl, .refl s⟩
  obtain ⟨status, presence, station, call, pace, loss, summary, history, pixel⟩ := sameButTransaction_capture s
  unfold replyByteBegins
  dsimp only
  split
  · exact captured status
  · split
    · exact captured presence
    · exact stays
  · exact captured station
  · split
    · exact captured call
    · exact stays
  · exact captured pace
  · split
    · exact captured loss
    · exact stays
  · exact captured summary
  · exact captured history
  · exact captured pixel
  all_goals exact stays

/-- What MISO shows of a transaction is its reply. -/
theorem reply_of_miso {t : State} {i : Nat} {b : Byte} (h : t.miso i = some b) : t.plant.transaction.reply i = b := by
  unfold State.miso Transaction.served at h
  split at h
  · cases h
  · split at h
    · cases h
    · exact Option.some.inj h

/-- SCK falls: where a byte begins it is captured, and MISO takes the next bit. -/
theorem falls_next {s : State} (running : s.inReset = false) (quiet : s.Quiet)
    (begun : s.plant.transaction ≠ .waiting) (high : s.plant.clock.sck = true) :
    ∃ t, execIfAny (if s.plant.clock.bits ≠ [] then none else s.plant.transaction.begins s.plant.clock.sent)
        (setPlantClock { s.plant.clock with sck := false } s) = .next t ∧
      ∀ b, t.miso s.plant.clock.sent = some b →
        exec (.commandByte (.edge .falls)) s =
          .next (setPlantClock { s.plant.clock with sck := false, miso := b.getMsbD s.plant.clock.bits.length } t) := by
  have driven {t : State} (same : SameButTransaction (setPlantClock { s.plant.clock with sck := false } s) t)
      (next : (if s.plant.clock.bits = [] then replyByteBegins (setPlantClock { s.plant.clock with sck := false } s)
        else .next (setPlantClock { s.plant.clock with sck := false } s)) = .next t) :
      ∀ b, t.miso s.plant.clock.sent = some b →
        exec (.commandByte (.edge .falls)) s =
          .next (setPlantClock { s.plant.clock with sck := false, miso := b.getMsbD s.plant.clock.bits.length } t) := by
    intro b shown
    obtain ⟨x, rfl⟩ := same
    rw [falls_eq running begun high, sckFalls]
    dsimp only
    rw [next, ← reply_of_miso shown]
    rfl
  by_cases whole : s.plant.clock.bits = []
  · obtain ⟨t, next, same⟩ := replyByteBegins_next (s := setPlantClock { s.plant.clock with sck := false } s)
      running quiet
    rw [if_neg (not_not_intro whole)]
    exact ⟨t, (replyByteBegins_eq _).symm.trans next, driven same (by rw [if_pos whole, next])⟩
  · rw [if_pos whole]
    exact ⟨_, rfl, driven (.refl _) (if_neg whole)⟩

/-- Settles O43: CS and the command bytes by the lemmas of their functions, a command taken from the ready decoder by
`TakenOnceDecoded.after_byte`, and each edge of SCK by the lemma of what its bit completes or begins. -/
theorem csEdgesAndCommandBytesFrameTransactions : Obligations.CsEdgesAndCommandBytesFrameTransactions := by
  intro code bytes bits s running quiet
  refine ⟨misoLevel_eq_none_iff running, fun i => ⟨miso_eq_none_iff running i, fun none => ?miso⟩,
    fun waiting => event_onPlant (f := csFalls) running quiet (if_pos waiting),
    ⟨fun c args => ?arguments, fun m pixels => ?pixels, fun noArgs noPixels => ?other⟩, fun ready unknown => unknownCommand_next running quiet ready unknown,
    fun c ready decoded args => ?byte, fun mosi => sckRises_high mosi, sckFalls_low, fun mosi begun low => ?rises,
    fun begun high => ?falls⟩
  case miso =>
    obtain ⟨begun, idle⟩ := reply_idle none i
    rw [miso_running running, served_of_ne_waiting begun, idle]
  case arguments =>
    refine csRising_next bytes bits running quiet ?_
    rw [args]
    exact resultAtCsRising_arguments c _ _
  case pixels =>
    refine csRising_next bytes bits running quiet ?_
    rw [pixels]
    rfl
  case other => exact csRising_next bytes bits running quiet (resultAtCsRising_keeps noArgs noPixels _ _)
  case byte =>
    have next := commandByte_next running ready decoded args
    refine ⟨_, next, ?_, by apply State.ext <;> simp,
      Latches.served (u := setTransaction (.arguments c) (restartPlantLink s)) (restartPlantLink_latches s) quiet,
      fun command spelled => spelled.takenOnceDecoded.after_byte running ready args⟩
    simp [setTransaction, restartPlantLink_plant]
  case rises =>
    intro bits whole c kept only runs
    have rises := rises_eq mosi running begun low
    refine ⟨fun within => rises.trans (sckRises_bit mosi within), fun last => ?_⟩
    have byte : exec (.commandByte (.edge (.rises mosi))) s = mosiByteClocked whole (setPlantClock c s) :=
      rises.trans (sckRises_byte mosi last)
    refine ⟨fun ready unknown => byte.trans (mosiByte_unknown ready unknown),
      fun ready p decoded args => byte.trans (mosiByte_arguments ready decoded args),
      fun ready p i decoded spelled => byte.trans (mosiByte_bare ready decoded spelled),
      fun p i args spelled => byte.trans (mosiByte_spelled (s := setPlantClock c s) args spelled),
      fun p args more => byte.trans (mosiByte_argument args more), fun m pixels => ?_,
      fun ignored => byte.trans (mosiByte_ignored ignored), ?reply⟩
    · intro size
      have group : size = m.groupBytes := by cases m <;> rfl
      rw [group]
      exact ⟨fun more => byte.trans (mosiByte_group pixels more),
        fun all => byte.trans (mosiByte_groupWhole (s := setPlantClock c s) pixels all)⟩
    case reply =>
      intro after
      have reply (replies : s.plant.transaction.replies = true) :
          exec (.commandByte (.edge (.rises mosi))) s = replyByteClocked (setPlantClock c s) :=
        byte.trans (mosiByte_reply (s := setPlantClock c s) replies)
      have counted (replies : s.plant.transaction.replies = true)
          (status : ∀ r, s.plant.transaction ≠ .status (some r))
          (history : ∀ sl, s.plant.transaction ≠ .history (some sl))
          (pixels : ∀ p, s.plant.transaction ≠ .pixelsOut (some p)) :
          only { c with sent := s.plant.transaction.sentAfter s.plant.clock.sent } :=
        (reply replies).trans (replyByte_counted (s := setPlantClock c s) status history pixels)
      refine ⟨fun r status => ?status, fun captured => ?captured, fun notes slot calls => ?noted, fun n e loss => ?entry,
        fun sl history => ?record, fun p pixel => ?pixel, fun waits => ?waits⟩
      case status =>
        have next := reply (by rw [status]; rfl)
        exact ⟨fun flag => next.trans (replyByte_flag (s := setPlantClock c s) status flag),
          fun other => next.trans (replyByte_status (s := setPlantClock c s) status other)⟩
      case captured =>
        rcases captured with ⟨n, r, h⟩ | ⟨r, h⟩ | ⟨x, r, h⟩ <;> rw [h] at counted <;>
          exact counted rfl nofun nofun nofun
      case noted =>
        rw [calls] at counted
        exact counted rfl nofun nofun nofun
      case entry =>
        rw [loss] at counted
        exact counted rfl nofun nofun nofun
      case record =>
        intro length
        have slot : (Transaction.history (some sl)).slotLength = some length := by
          show _ = some (match sl.record with | some r => r.bytes.length | none => 1)
          cases h : sl.record <;> simp only [Transaction.slotLength, h]
        have sent : (Transaction.history (some sl)).sentAfter s.plant.clock.sent = (after length).sent := by
          rw [Transaction.sentAfter, slot]
        have next := reply (by rw [history]; rfl)
        exact ⟨fun more => next.trans (replyByte_record (s := setPlantClock c s) history sent (by simp [more])),
          fun last => next.trans (replyByte_recordEnd (s := setPlantClock c s) history sent (by simp [last]))⟩
      case pixel =>
        have next := (reply (by rw [pixel]; rfl)).trans (replyByte_pixel pixel)
        exact ⟨fun first => next.trans (if_pos first), fun second => next.trans (if_neg second)⟩
      case waits =>
        rcases waits with h | ⟨n, h⟩ | h | ⟨x, h⟩ | h | h <;> rw [h] at counted <;>
          exact counted rfl nofun nofun nofun
  case falls =>
    intro begins u
    obtain ⟨t, taken, driven⟩ := falls_next running quiet begun high
    have taken : execIfAny begins u = .next t := taken
    refine ⟨t, ?_, driven⟩
    clear_value begins
    cases begins with
    | some i => exact taken
    | none =>
      cases taken
      rfl

end Sys2Proof.Machine
end

section
/-! The Frame Store's form (FrameForm): what it looks at, and the events of the line's centre, which leave all of it as it
was. -/

namespace Sys2Proof.Machine

/-! ### What FrameForm looks at -/

/-- The part of FrameForm that is about the Frame Store. -/
structure FrameStore.Form (f : FrameStore) : Prop where
  pixels : f.pixels.wf = true
  window : f.window.InFrame
  cursor : f.cursor.InFrame
  mark : f.mark.InFrame

/-- The part of FrameForm that no transfer bears on. -/
structure State.Placed (s : State) : Prop where
  store : s.frame.Form
  regions : ∀ i, (s.engine.regions.at_ i).rect.InFrame

/-- The cursor lies in the window. -/
def FrameStore.CursorHeld (f : FrameStore) : Prop := f.window.holds f.cursor.x f.cursor.y = true

theorem frameForm_iff (s : State) :
    s.FrameForm ↔ s.Placed ∧ (s.plant.transaction.transferring = true → s.frame.CursorHeld) := by
  constructor
  · rintro ⟨pixels, window, cursor, mark, regions, held⟩
    exact ⟨⟨⟨pixels, window, cursor, mark⟩, regions⟩, held⟩
  · rintro ⟨⟨⟨pixels, window, cursor, mark⟩, regions⟩, held⟩
    exact ⟨pixels, window, cursor, mark, regions, held⟩

theorem State.FrameForm.placed {s : State} (h : s.FrameForm) : s.Placed := ((frameForm_iff s).1 h).1

/-- Outside a transfer nothing is asked of the cursor but its place in the frame. -/
theorem State.Placed.frameForm {s : State} (h : s.Placed) (apart : s.plant.transaction.transferring = false) :
    s.FrameForm :=
  (frameForm_iff s).2 ⟨h, fun begun => absurd begun (by rw [apart]; decide)⟩

/-- The Frame Store, the Layout Table, and whether a pixel transfer is under way: all that FrameForm looks at. -/
def State.surface (s : State) : FrameStore × Tab Region 8 × Bool :=
  (s.frame, s.engine.regions, s.plant.transaction.transferring)

theorem State.FrameForm.congr {s t : State} (h : s.FrameForm) (e : t.surface = s.surface) : t.FrameForm := by
  simp only [State.surface, Prod.mk.injEq] at e
  obtain ⟨frame, regions, transferring⟩ := e
  unfold State.FrameForm
  rwa [frame, regions, transferring]

/-- A state with the same Frame Store, Layout Table and Plant Port. -/
theorem surface_congr {s t : State} (frame : t.frame = s.frame) (regions : t.engine.regions = s.engine.regions)
    (plant : t.plant = s.plant) : t.surface = s.surface := by
  simp only [State.surface, frame, regions, plant]

theorem State.Placed.congr {s t : State} (h : s.Placed) (frame : t.frame = s.frame)
    (regions : ∀ i, (t.engine.regions.at_ i).rect = (s.engine.regions.at_ i).rect) : t.Placed :=
  ⟨frame ▸ h.store, fun i => regions i ▸ h.regions i⟩

/-! ### Shared operations -/

@[simp] theorem raise_surface (s : State) (r : Role) : (s.raise r).surface = s.surface := rfl

@[simp] theorem raiseIf_surface (s : State) (b : Bool) (r : Role) : (s.raiseIf b r).surface = s.surface := by
  cases b <;> rfl

@[simp] theorem onLine_surface (s : State) (f : LinePort → LinePort) : (s.onLine f).surface = s.surface := rfl

@[simp] theorem onTimer_surface (s : State) (f : ShiftTimer → ShiftTimer) : (s.onTimer f).surface = s.surface := rfl

@[simp] theorem onPace_surface (s : State) (f : PaceUnit → PaceUnit) : (s.onPace f).surface = s.surface := rfl

@[simp] theorem decideAlert_surface (old s : State) : (decideAlert old s).surface = s.surface :=
  surface_congr (by simp) (by simp) (by simp)

@[simp] theorem settleTracker_surface (old s : State) : (settleTracker old s).surface = s.surface := by
  have regions := congrArg Engine.regions (settleTracker_engine old s)
  exact surface_congr (by simp) regions (by simp)

@[simp] theorem handOn_surface (old s : State) : (handOn old s).surface = s.surface := by
  unfold handOn
  split <;> simp

/-- Serving starts passes, and moves no region (R159). -/
theorem serve_rect (s : State) (i : Fin 8) :
    ((serve s).engine.regions.at_ i).rect = (s.engine.regions.at_ i).rect := by
  rw [serve_region]
  split <;> rfl

theorem serve_frameForm {s : State} (h : s.FrameForm) : (serve s).FrameForm := by
  obtain ⟨placed, held⟩ := (frameForm_iff s).1 h
  exact (frameForm_iff _).2 ⟨placed.congr rfl (serve_rect s), held⟩

/-! ### The figures and the end tests (R78, R79, R88) -/

@[simp] theorem recompute_surface (s : State) : (recompute s).surface = s.surface := by
  simp [recompute]

@[simp] theorem raiseLostCars_surface (old s : State) : (raiseLostCars old s).surface = s.surface :=
  raiseIf_surface s _ _

@[simp] theorem slotTaken_transferring (t : Transaction) (k : Fin 4) : (t.slotTaken k).transferring = t.transferring := by
  unfold Transaction.slotTaken
  (repeat' split) <;> rfl

@[simp] theorem startClose_surface (r : CloseReason) (s : State) : (startClose r s).surface = s.surface := by
  simp [State.surface, startClose]

@[simp] theorem enterOvertime_surface (s : State) : (enterOvertime s).surface = s.surface :=
  recompute_surface _

@[simp] theorem endOfShiftTest_surface (s : State) : (endOfShiftTest s).surface = s.surface := by
  unfold endOfShiftTest
  (repeat' split) <;> simp

@[simp] theorem advanceEndTest_surface (s : State) : (advanceEndTest s).surface = s.surface := by
  unfold advanceEndTest
  (repeat' split) <;> simp

@[simp] theorem targetTest_surface (s : State) : (targetTest s).surface = s.surface := by
  unfold targetTest
  split <;> simp

@[simp] theorem changeActual_surface (a : Nat) (s : State) : (changeActual a s).surface = s.surface := by
  unfold changeActual
  split <;> simp

@[simp] theorem endOfLineCar_surface (s : State) : (endOfLineCar s).surface = s.surface := by
  unfold endOfLineCar
  split <;> simp

@[simp] theorem applyCountAdjust_surface (delta : Int) (s : State) : (applyCountAdjust delta s).1.surface = s.surface := by
  unfold applyCountAdjust
  split <;> simp

/-! ### Advances, shift starts and plans (R64 to R77, R107) -/

@[simp] theorem advanceClock_surface (s : State) : (advanceClock s).surface = s.surface :=
  raiseIf_surface _ _ _

@[simp] theorem productiveSecond_surface (s : State) : (productiveSecond s).surface = s.surface := by
  have charged : (chargeSecond (s.onTimer fun t => { t with wc := t.wc + 1 })).surface = s.surface :=
    surface_congr (by simp) (by simp) (by simp)
  simp [productiveSecond, charged]

@[simp] theorem advance_surface (s : State) : (advance s).surface = s.surface := by
  unfold advance
  split <;> simp

@[simp] theorem advanceIfOpen_surface (s : State) : (advanceIfOpen s).surface = s.surface := by
  unfold advanceIfOpen
  split <;> simp

@[simp] theorem setCorrection_surface (c : Int) (s : State) : (setCorrection c s).surface = s.surface := rfl

@[simp] theorem shiftSecond_surface (s : State) : (shiftSecond s).surface = s.surface := by
  unfold shiftSecond
  (repeat' split) <;> simp

@[simp] theorem runClock_surface (s : State) :
    ((s.onTimer fun t => { t with runClock := nextRunClock t.runClock }).raiseIf
      (minutesChange s.callList.calls s.timer.runClock (nextRunClock s.timer.runClock)) .ticker).surface = s.surface := by
  rw [raiseIf_surface, onTimer_surface]

@[simp] theorem openShift_surface (p : Plan) (number offset : Nat) (s : State) :
    (openShift p number offset s).surface = s.surface := by
  simp only [openShift, raise_surface, recompute_surface]
  exact surface_congr rfl rfl rfl

@[simp] theorem holdStart_surface (number offset : Nat) (s : State) : (holdStart number offset s).surface = s.surface :=
  rfl

@[simp] theorem applyTimeMark_surface (number seconds : Nat) (s : State) :
    (applyTimeMark number seconds s).1.surface = s.surface := by
  unfold applyTimeMark
  (repeat' split) <;> simp

@[simp] theorem applyShiftStart_surface (number offset : Nat) (s : State) :
    (applyShiftStart number offset s).1.surface = s.surface := by
  unfold applyShiftStart
  (repeat' split) <;> simp

@[simp] theorem takePending_surface (s : State) : (takePending s).surface = s.surface := by
  unfold takePending
  split
  · exact openShift_surface _ _ _ _
  · rfl

@[simp] theorem completeClose_surface (s : State) : (completeClose s).surface = s.surface := by
  unfold completeClose
  split
  · rw [handOn_surface, takePending_surface]
    rfl
  · rfl

@[simp] theorem applyShiftClose_surface (s : State) : (applyShiftClose s).1.surface = s.surface := by
  unfold applyShiftClose
  split <;> simp

@[simp] theorem commitDecided_surface (p : Plan) (s : State) : (commitDecided p s).surface = s.surface := by
  unfold commitDecided holdAtCommit
  split <;> rfl

@[simp] theorem commitEndTest_surface (s : State) : (commitEndTest s).surface = s.surface := by
  unfold commitEndTest
  split <;> simp

@[simp] theorem commitOvertimeTests_surface (s : State) : (commitOvertimeTests s).surface = s.surface := by
  unfold commitOvertimeTests
  (repeat' split) <;> simp

@[simp] theorem commitNow_surface (p : Plan) (s : State) : (commitNow p s).surface = s.surface := by
  simp [commitNow_eq]

@[simp] theorem applyCommit_surface (mode : Nat) (s : State) : (applyCommit mode s).1.surface = s.surface := by
  unfold applyCommit
  split
  · rfl
  · split
    · rfl
    · split
      · rfl
      · split
        · dsimp only
          exact commitNow_surface _ s
        · rfl

@[simp] theorem applyStagePlan_surface (length takt overtime : Half) (count : Byte) (breaks : Vector BreakArg 6)
    (s : State) : (applyStagePlan length takt overtime count breaks s).1.surface = s.surface := by
  unfold applyStagePlan
  split <;> rfl

/-! ### Zones, buffers and inputs (R14 to R19, R26 to R30) -/

@[simp] theorem deliverFrom_surface (k : Fin 6) (s : State) : (deliverFrom k s).surface = s.surface :=
  surface_congr (by simp) (by simp) (by simp)

@[simp] theorem drawInto_surface (k : Fin 6) (s : State) : (drawInto k s).surface = s.surface :=
  surface_congr (by simp) (by simp) (by simp)

@[simp] theorem completeCar_surface (k : Fin 6) (s : State) : (completeCar k s).surface = s.surface := by
  unfold completeCar
  dsimp only
  split <;> simp

@[simp] theorem stepCalls_surface (k : Fin 6) (s : State) : (stepCalls k s).surface = s.surface := by
  unfold stepCalls
  dsimp only
  split <;> rfl

@[simp] theorem stepZone_surface (k : Fin 6) (s : State) : (stepZone k s).surface = s.surface := by
  have zone (f : ZoneState → ZoneState) : (s.onZone k f).surface = s.surface := rfl
  unfold stepZone
  dsimp only
  split <;> simp [zone]

@[simp] theorem givePitch_surface (k : Fin 6) (m : PitchMoment) (s : State) : (givePitch k m s).surface = s.surface := by
  unfold givePitch
  dsimp only
  split
  · exact stepZone_surface k _
  · rfl

@[simp] theorem giveXstop_surface (m : LevelMoment) (s : State) : (giveXstop m s).surface = s.surface := by
  unfold giveXstop
  dsimp only
  split
  · rfl
  · exact settleTracker_surface _ _

@[simp] theorem monitorSecond_surface (k : Fin 6) (s : State) : (monitorSecond k s).surface = s.surface :=
  raiseIf_surface _ _ _

@[simp] theorem applyBufferSet_surface (buffer count : Nat) (s : State) :
    (applyBufferSet buffer count s).1.surface = s.surface := by
  unfold applyBufferSet
  split
  · rfl
  · split
    · exact settleTracker_surface _ _
    · rfl

end Sys2Proof.Machine
end

section
/-! FrameForm under calls and layout writes, and under the events of the two ports that begin no pixel transfer. -/

namespace Sys2Proof.Machine

/-! ### Calls (c03) -/

@[simp] theorem raiseCallChange_surface (s : State) : (raiseCallChange s).surface = s.surface := rfl

@[simp] theorem fitScroll_surface (s : State) : (fitScroll s).surface = s.surface := by
  unfold fitScroll
  split
  · rfl
  · dsimp only
    split <;> rfl

@[simp] theorem openCall_surface (st : Fin 48) (zone : Fin 6) (k : Kind) (progress : Nat) (s : State) :
    (openCall st zone k progress s).surface = s.surface := by
  simp only [openCall, settleTracker_surface, raiseCallChange_surface, fitScroll_surface]
  exact surface_congr rfl rfl rfl

@[simp] theorem growCall_surface (c : Call) (k : Kind) (s : State) : (growCall c k s).surface = s.surface := by
  simp only [growCall, settleTracker_surface, raiseCallChange_surface]
  exact surface_congr rfl rfl rfl

@[simp] theorem afterRemoval_transferring (t : Transaction) (cursor : Option Nat) :
    (t.afterRemoval cursor).transferring = t.transferring := by
  unfold Transaction.afterRemoval
  (repeat' split) <;> rfl

@[simp] theorem callClosed_transferring (t : Transaction) (n : Nat) : (t.callClosed n).transferring = t.transferring := by
  unfold Transaction.callClosed
  split <;> rfl

@[simp] theorem storeRecord_surface (r : HistoryRecord) (s : State) : (storeRecord r s).surface = s.surface := by
  unfold storeRecord
  split <;> simp [State.surface, appendRecord, removeOldest]

@[simp] theorem closeCall_surface (c : Call) (by_ : ClosedBy) (s : State) : (closeCall c by_ s).surface = s.surface := by
  simp only [closeCall, settleTracker_surface, raiseCallChange_surface, fitScroll_surface, storeRecord_surface]
  simp [State.surface]

@[simp] theorem callSeconds_surface (only : Option Nat) (s : State) : (callSeconds only s).surface = s.surface := by
  simp only [callSeconds, raiseIf_surface]
  rfl

@[simp] theorem applyPull_surface (station kind progress : Nat) (s : State) :
    (applyPull station kind progress s).1.surface = s.surface := by
  unfold applyPull
  (repeat' split) <;> simp

@[simp] theorem applyRelease_surface (station : Nat) (s : State) : (applyRelease station s).1.surface = s.surface := by
  unfold applyRelease
  split <;> simp

@[simp] theorem applyLeaderReset_surface (station leader : Nat) (s : State) :
    (applyLeaderReset station leader s).1.surface = s.surface := by
  unfold applyLeaderReset
  (repeat' split) <;> simp

@[simp] theorem applyClearCall_surface (number responder : Nat) (s : State) :
    (applyClearCall number responder s).1.surface = s.surface := by
  unfold applyClearCall
  (repeat' split) <;> simp

@[simp] theorem applyLeaderAck_surface (station leader : Nat) (s : State) :
    (applyLeaderAck station leader s).1.surface = s.surface :=
  surface_congr (by simp) (by simp) (by simp)

@[simp] theorem applyAckCall_surface (number responder : Nat) (s : State) :
    (applyAckCall number responder s).1.surface = s.surface :=
  surface_congr (by simp) (by simp) (by simp)

/-! ### Layout writes and link settings (R4 to R9, R142) -/

@[simp] theorem storeZone_surface (k : Fin 6) (new : Layout) (s : State) : (storeZone k new s).surface = s.surface := by
  simp only [storeZone, raiseLayout, settleTracker_surface, raise_surface]
  exact surface_congr rfl rfl rfl

@[simp] theorem applyLayoutZone_surface (zone used first last pitch coast stall capacity : Nat) (s : State) :
    (applyLayoutZone zone used first last pitch coast stall capacity s).1.surface = s.surface := by
  unfold applyLayoutZone
  split
  · rfl
  · split
    · rfl
    · dsimp only
      (repeat' split) <;> simp

@[simp] theorem applyLayoutStation_surface (station : Nat) (flag : Bool) (length : Nat) (s : State) :
    (applyLayoutStation station flag length s).1.surface = s.surface := by
  unfold applyLayoutStation
  split
  · rfl
  · split
    · rfl
    · dsimp only
      split
      · rfl
      · simp only [raiseLayout, settleTracker_surface, raise_surface]
        exact surface_congr rfl rfl rfl

@[simp] theorem applyLinkSettings_surface (lineCode plantCode settings : Byte) (s : State) :
    (applyLinkSettings lineCode plantCode settings s).1.surface = s.surface := by
  unfold applyLinkSettings
  split <;> rfl

/-! ### The Line Port (R123 to R131) -/

theorem raiseLineLink_surface (old s : State) : (raiseLineLink old s).surface = s.surface := by
  unfold raiseLineLink
  split <;> rfl

@[simp] theorem restartLineLink_surface (s : State) : (restartLineLink s).surface = s.surface :=
  raiseLineLink_surface s _

@[simp] theorem lineLinkSecond_surface (s : State) : (lineLinkSecond s).surface = s.surface :=
  raiseLineLink_surface s _

@[simp] theorem statusRead_surface (s : State) : (statusRead s).surface = s.surface :=
  restartLineLink_surface _

@[simp] theorem takeAddress_surface (b : Byte) (s : State) : (takeAddress b s).surface = s.surface := by
  unfold takeAddress
  (repeat' split) <;> simp

@[simp] theorem endTransaction_surface (bytes : List Byte) (s : State) : (endTransaction bytes s).surface = s.surface := by
  unfold endTransaction judged
  dsimp only
  (repeat' split) <;> simp

@[simp] theorem sclRises_surface (sda : Bool) (s : State) : (sclRises sda s).surface = s.surface := by
  unfold sclRises addressByteClocked
  dsimp only
  (repeat' split) <;> simp

@[simp] theorem lineEdge_surface (e : LineEdge) (s : State) : (lineEdge e s).surface = s.surface := by
  have stop : (stopTaken s).surface = s.surface := endTransaction_surface _ s
  cases e with
  | sclRises sda => exact sclRises_surface sda s
  | sclFalls => rfl
  | sdaFalls scl =>
    cases scl
    · rfl
    · exact (onLine_surface _ _).trans stop
  | sdaRises scl =>
    cases scl
    · rfl
    · exact stop

/-! ### The plant link, and framing (R132, R133, R141) -/

@[simp] theorem setPlantLink_surface (s : State) (l : Link) : (setPlantLink l s).surface = s.surface :=
  raiseIf_surface _ _ _

theorem State.Placed.of_surface {s t : State} (h : s.Placed) (e : t.surface = s.surface) : t.Placed := by
  simp only [State.surface, Prod.mk.injEq] at e
  obtain ⟨frame, regions, -⟩ := e
  exact h.congr frame fun i => by rw [regions]

theorem decoded_placed {s t : State} {c : PlantCommand} (h : s.Placed) (e : s.decoded c = some t) : t.Placed :=
  decoded_keeps (I := State.Placed) (fun s l h => h.of_surface (setPlantLink_surface s l))
    (fun s h => h.congr rfl (serve_rect s)) h e

/-- A transaction that is no transfer may be taken up with the cursor anywhere in the frame. -/
theorem setTransaction_frameForm {s : State} {x : Transaction} (h : s.Placed) (apart : x.transferring = false) :
    (setTransaction x s).FrameForm :=
  State.Placed.frameForm (h.congr rfl fun _ => rfl) apart

/-- A command that is taken leaves the decoder ignoring what follows it, so that its rule may move window and cursor
within the frame (R133). -/
theorem takeCommand_frameForm {c : PlantCommand} {rule : CommandRule} (hr : ∀ s, s.Placed → (rule s).1.Placed)
    (s : State) (h : s.FrameForm) : (takeCommand c rule s).FrameForm := by
  unfold takeCommand
  split
  · exact h
  · rename_i decoded
    exact setTransaction_frameForm ((hr _ (decoded_placed h.placed decoded)).congr rfl fun _ => rfl) rfl

theorem takeCommand_frameForm_of_surface {c : PlantCommand} {rule : CommandRule}
    (hr : ∀ s, (rule s).1.surface = s.surface) (s : State) (h : s.FrameForm) : (takeCommand c rule s).FrameForm :=
  takeCommand_frameForm (fun s h => h.of_surface (hr s)) s h

theorem takeRead_frameForm {c : PlantCommand} {reply : State → Transaction} (hr : ∀ s, (reply s).transferring = false)
    (s : State) (h : s.FrameForm) : (takeRead c reply s).FrameForm := by
  unfold takeRead
  split
  · exact h
  · rename_i decoded
    exact setTransaction_frameForm (decoded_placed h.placed decoded) (hr _)

theorem csFalls_frameForm (s : State) (h : s.FrameForm) : (csFalls s).FrameForm := by
  unfold csFalls
  split
  · exact State.Placed.frameForm (h.placed.congr rfl fun _ => rfl) rfl
  · exact h

theorem csRises_frameForm (partialBytes : Nat) (s : State) (h : s.FrameForm) : (csRises partialBytes s).FrameForm :=
  State.Placed.frameForm (h.placed.congr rfl fun _ => rfl) rfl

theorem unknownCode_frameForm (code : Byte) (s : State) (h : s.FrameForm) : (unknownCode code s).FrameForm := by
  unfold unknownCode
  split
  · exact setTransaction_frameForm h.placed rfl
  · exact h

theorem argumentsFollow_frameForm (code : Byte) (s : State) (h : s.FrameForm) : (argumentsFollow code s).FrameForm := by
  unfold argumentsFollow
  split
  · exact h
  · split
    · exact setTransaction_frameForm (h.placed.of_surface (setPlantLink_surface s _)) rfl
    · exact h

/-! ### Replies captured (R116, R135 to R140) -/

theorem captureStatus_frameForm (s : State) (h : s.FrameForm) : (captureStatus s).FrameForm := by
  unfold captureStatus
  split
  · exact setTransaction_frameForm h.placed rfl
  · exact h

@[simp] theorem flagByteSent_surface (s : State) : (flagByteSent s).surface = s.surface := by
  unfold flagByteSent
  (repeat' split) <;> rfl

theorem capturePresence_frameForm (s : State) (h : s.FrameForm) : (capturePresence s).FrameForm := by
  unfold capturePresence
  split
  · split
    · exact setTransaction_frameForm h.placed rfl
    · exact h
  · exact h

theorem captureStation_frameForm (s : State) (h : s.FrameForm) : (captureStation s).FrameForm := by
  unfold captureStation
  split
  · exact setTransaction_frameForm h.placed rfl
  · exact h

theorem beginCallSlot_frameForm (s : State) (h : s.FrameForm) : (beginCallSlot s).FrameForm := by
  unfold beginCallSlot
  split
  · split <;> exact setTransaction_frameForm h.placed rfl
  · exact h

theorem capturePace_frameForm (s : State) (h : s.FrameForm) : (capturePace s).FrameForm := by
  unfold capturePace
  split
  · exact setTransaction_frameForm h.placed rfl
  · exact h

theorem captureLossEntry_frameForm (s : State) (h : s.FrameForm) : (captureLossEntry s).FrameForm := by
  unfold captureLossEntry
  split
  · split <;> exact setTransaction_frameForm h.placed rfl
  · exact h

theorem captureSummary_frameForm (s : State) (h : s.FrameForm) : (captureSummary s).FrameForm := by
  unfold captureSummary
  split
  · exact setTransaction_frameForm h.placed rfl
  · exact h

theorem beginHistorySlot_frameForm (s : State) (h : s.FrameForm) : (beginHistorySlot s).FrameForm := by
  unfold beginHistorySlot
  split
  · exact setTransaction_frameForm h.placed rfl
  · exact h

theorem endHistorySlot_frameForm (s : State) (h : s.FrameForm) : (endHistorySlot s).FrameForm := by
  unfold endHistorySlot
  split
  · exact State.Placed.frameForm (h.placed.congr rfl fun _ => rfl) rfl
  · exact h

end Sys2Proof.Machine
end

section
/-! FrameForm under the Frame Store's commands and pixel transfers, the Composition Engine's writes, and every step. -/

namespace Sys2Proof.Machine

/-! ### Places in a rectangle and in the frame (R143, R145, R156) -/

theorem Rect.holds_iff (r : Rect) (x y : Nat) :
    r.holds x y = true ↔ (r.x0 ≤ x ∧ x ≤ r.x1) ∧ r.y0 ≤ y ∧ y ≤ r.y1 := by
  simp [Rect.holds, and_assoc]

theorem Rect.ofCorners_inFrame (x0 y0 x1 y1 : Nat) : (Rect.ofCorners x0 y0 x1 y1).InFrame := by
  dsimp only [Rect.InFrame, Rect.ofCorners]
  omega

/-- A position in a rectangle of the frame is one of the frame. -/
theorem Rect.InFrame.point {r : Rect} (h : r.InFrame) {p : Point} (held : r.holds p.x p.y = true) : p.InFrame := by
  obtain ⟨-, right, -, bottom⟩ := h
  obtain ⟨⟨-, column⟩, -, row⟩ := (Rect.holds_iff _ _ _).1 held
  exact ⟨column.trans right, row.trans bottom⟩

theorem pixelAddress_lt {x y : Nat} (hx : x ≤ 159) (hy : y ≤ 47) : pixelAddress x y < 7680 := by
  unfold pixelAddress
  omega

/-- Each pixel of a region in the frame has an address of the frame (R160). -/
theorem Region.address_lt {r : Region} (h : r.rect.InFrame) {n : Nat} (hn : n < r.area) : r.address n < 7680 := by
  obtain ⟨columns, right, rows, bottom⟩ := h
  have width : 0 < r.rect.width := by unfold Rect.width; omega
  have column : n % r.rect.width < r.rect.width := Nat.mod_lt n width
  have row : n / r.rect.width < r.rect.height := Nat.div_lt_of_lt_mul hn
  have widths : r.rect.width = r.rect.x1 + 1 - r.rect.x0 := rfl
  have heights : r.rect.height = r.rect.y1 + 1 - r.rect.y0 := rfl
  exact pixelAddress_lt (by omega) (by omega)

/-! ### The cursor in the window (R146, R148) -/

theorem startEdge_within {lo hi : Nat} (h : lo ≤ hi) (minus : Bool) :
    lo ≤ (if minus then hi else lo) ∧ (if minus then hi else lo) ≤ hi := by
  cases minus <;> simp [h]

/-- A step from a place that is not the end edge of its axis stays between the edges. -/
theorem stepAlong_within {lo hi v : Nat} {minus : Bool} (within : lo ≤ v ∧ v ≤ hi)
    (inside : v ≠ if minus then lo else hi) : lo ≤ stepAlong minus v ∧ stepAlong minus v ≤ hi := by
  unfold stepAlong
  cases minus <;> simp at inside ⊢ <;> omega

theorem startCorner_held {f : FrameStore} (h : f.window.InFrame) :
    f.window.holds f.startCorner.x f.startCorner.y = true := by
  obtain ⟨columns, -, rows, -⟩ := h
  exact (Rect.holds_iff _ _ _).2 ⟨startEdge_within columns _, startEdge_within rows _⟩

theorem clampPoint_held {r : Rect} (h : r.InFrame) (p : Point) :
    r.holds (r.clampPoint p).x (r.clampPoint p).y = true := by
  obtain ⟨columns, -, rows, -⟩ := h
  exact (Rect.holds_iff _ _ _).2 ⟨clamp_bounds columns, clamp_bounds rows⟩

/-- The advance leaves the cursor in the window: it steps where it is not at the end of an axis, and returns to the start
of one where it is (R148). -/
theorem advanced_held {f : FrameStore} (h : f.window.InFrame) (held : f.CursorHeld) :
    f.window.holds f.advanced.x f.advanced.y = true := by
  obtain ⟨column, row⟩ := (Rect.holds_iff _ _ _).1 held
  obtain ⟨startColumn, startRow⟩ := (Rect.holds_iff _ _ _).1 (startCorner_held h)
  unfold FrameStore.advanced
  dsimp only
  split
  · split
    · exact (Rect.holds_iff _ _ _).2 ⟨column, stepAlong_within row ‹_›⟩
    · split
      · exact (Rect.holds_iff _ _ _).2 ⟨stepAlong_within column ‹_›, startRow⟩
      · split
        · exact startCorner_held h
        · exact held
  · split
    · exact (Rect.holds_iff _ _ _).2 ⟨stepAlong_within column ‹_›, row⟩
    · split
      · exact (Rect.holds_iff _ _ _).2 ⟨startColumn, stepAlong_within row ‹_›⟩
      · split
        · exact startCorner_held h
        · exact held

/-! ### Pixel transfers (R151 to R153) -/

/-- A state in which a transfer may go on: all in its place, and the cursor in the window. -/
structure State.Transfers (s : State) : Prop where
  placed : s.Placed
  held : s.frame.CursorHeld

theorem State.Transfers.frameForm {s : State} (h : s.Transfers) : s.FrameForm :=
  (frameForm_iff s).2 ⟨h.placed, fun _ => h.held⟩

theorem State.FrameForm.transfers {s : State} (h : s.FrameForm) (begun : s.plant.transaction.transferring = true) :
    s.Transfers :=
  ⟨h.placed, ((frameForm_iff s).1 h).2 begun⟩

theorem State.Transfers.congr {s t : State} (h : s.Transfers) (frame : t.frame = s.frame)
    (regions : ∀ i, (t.engine.regions.at_ i).rect = (s.engine.regions.at_ i).rect) : t.Transfers :=
  ⟨h.placed.congr frame regions, frame ▸ h.held⟩

/-- The cursor set to a place in the window. -/
theorem State.Placed.cursorSet {s : State} (h : s.Placed) {p : Point} (held : s.frame.window.holds p.x p.y = true) :
    (s.onFrame fun f => { f with cursor := p }).Transfers where
  placed := { h with store := { h.store with cursor := h.store.window.point held } }
  held := held

/-- The transaction may be a transfer in any form. -/
theorem State.Transfers.transaction {s : State} (h : s.Transfers) (x : Transaction) : (setTransaction x s).FrameForm :=
  State.Transfers.frameForm (h.congr rfl fun _ => rfl)

theorem clampCursor_transfers {s : State} (h : s.Placed) : (clampCursor s).Transfers :=
  h.cursorSet (clampPoint_held h.store.window _)

theorem cornerCursor_transfers {s : State} (h : s.Placed) : (cornerCursor s).Transfers :=
  h.cursorSet (startCorner_held h.store.window)

theorem advanceCursor_transfers {s : State} (h : s.Transfers) : (advanceCursor s).Transfers :=
  h.placed.cursorSet (advanced_held h.placed.store.window h.held)

/-- A pixel written at the cursor is one of the frame (R150). -/
theorem written_transfers {s : State} (h : s.Transfers) (p : Pixel) :
    (s.onFrame fun f => f.written p).Transfers := by
  obtain ⟨column, row⟩ := h.placed.store.cursor
  have pixels : (s.frame.written p).pixels.wf = true :=
    Memory.wf_write _ h.placed.store.pixels (pixelAddress_lt column row)
  exact ⟨{ h.placed with store := { h.placed.store with pixels := pixels } }, h.held⟩

theorem writePixel_transfers {s : State} (h : s.Transfers) (p : Pixel) : (writePixel s p).Transfers := by
  unfold writePixel
  split
  · exact advanceCursor_transfers (h.congr rfl fun _ => rfl)
  · exact advanceCursor_transfers (written_transfers h p)

theorem applyGroup_frameForm (bytes : List Byte) (s : State) (h : s.FrameForm) : (applyGroup bytes s).FrameForm := by
  have written (ps : List Pixel) (u : State) (hu : u.Transfers) : (ps.foldl writePixel u).Transfers := by
    induction ps generalizing u with
    | nil => exact hu
    | cons p ps ih => exact ih _ (writePixel_transfers hu p)
  unfold applyGroup
  split
  · rename_i mode pixels
    exact (written _ s (h.transfers (by rw [pixels]; rfl))).frameForm
  · exact h

/-- A transfer begins with the cursor clamped into the window or at its start corner (R146, R151). -/
theorem takeOrigin_frameForm (origin : Nat) (s : State) (h : s.FrameForm) : (takeOrigin origin s).FrameForm := by
  unfold takeOrigin
  split
  · exact h
  · rename_i t decoded
    have placed := decoded_placed h.placed decoded
    split
    · exact setTransaction_frameForm (placed.congr rfl fun _ => rfl) rfl
    · split
      · exact (clampCursor_transfers placed).transaction _
      · exact (cornerCursor_transfers placed).transaction _

theorem takeReadPixels_frameForm (s : State) (h : s.FrameForm) : (takeReadPixels s).FrameForm := by
  unfold takeReadPixels
  split
  · exact h
  · rename_i t decoded
    exact (clampCursor_transfers (decoded_placed h.placed decoded)).transaction _

theorem beginPixel_frameForm (s : State) (h : s.FrameForm) : (beginPixel s).FrameForm := by
  unfold beginPixel
  split
  · rename_i p pixels
    exact (h.transfers (by rw [pixels]; rfl)).transaction _
  · exact h

theorem endPixel_frameForm (s : State) (h : s.FrameForm) : (endPixel s).FrameForm := by
  unfold endPixel
  split
  · rename_i p pixels
    exact (advanceCursor_transfers (h.transfers (by rw [pixels]; rfl))).transaction _
  · exact h

/-! ### Setting commands (R145, R146, R154) -/

theorem applyWindow_placed (x0 y0 x1 y1 : Nat) (s : State) (h : s.Placed) : (applyWindow x0 y0 x1 y1 s).1.Placed :=
  { h with store := { h.store with window := Rect.ofCorners_inFrame x0 y0 x1 y1 } }

theorem applyCursor_placed (x y : Nat) (s : State) (h : s.Placed) : (applyCursor x y s).1.Placed :=
  { h with store := { h.store with cursor := ⟨Nat.min_le_right _ _, Nat.min_le_right _ _⟩ } }

theorem applyMark_placed (s : State) (h : s.Placed) : (applyMark s).1.Placed :=
  { h with store := { h.store with mark := h.store.cursor } }

theorem applyReturn_placed (s : State) (h : s.Placed) : (applyReturn s).1.Placed :=
  { h with store := { h.store with cursor := h.store.mark } }

theorem applyControl_placed (order column row wrap : Nat) (s : State) (h : s.Placed) :
    (applyControl order column row wrap s).1.Placed := by
  unfold applyControl
  split
  · exact h
  · exact { h with store := { h.store with } }

theorem applyMode_placed (code : Nat) (s : State) (h : s.Placed) : (applyMode code s).1.Placed := by
  unfold applyMode
  split
  · exact h
  · exact { h with store := { h.store with } }

theorem applyMask_placed (flags : Nat) (s : State) (h : s.Placed) : (applyMask flags s).1.Placed :=
  { h with store := { h.store with } }

/-! ### The Composition Engine (R157 to R162, R167) -/

theorem afterWrite_regions (e : Engine) (old new : Region) : (e.afterWrite old new).regions = e.regions := rfl

/-- A written entry lies in the frame, and what it gives up turns black (R157, R158). -/
theorem storeRegion_placed (i : Fin 8) {new : Region} (inFrame : new.rect.InFrame) {s : State} (h : s.Placed) :
    (storeRegion i new s).Placed where
  store := { h.store with pixels := Memory.wf_blacken _ h.store.pixels }
  regions j := by
    by_cases same : j = i
    · subst same
      simpa [storeRegion, afterWrite_regions] using inFrame
    · simpa [storeRegion, afterWrite_regions, same] using h.regions j

theorem applyRegion_placed (entry role x0 y0 x1 y1 : Nat) (enabled : Bool) (header scroll : Nat) (s : State)
    (h : s.Placed) : (applyRegion entry role x0 y0 x1 y1 enabled header scroll s).1.Placed := by
  unfold applyRegion
  split
  · dsimp only
    split
    · exact h
    · split
      · exact h
      · exact storeRegion_placed _ (Rect.ofCorners_inFrame x0 y0 x1 y1) h
  · exact h

/-- An entry's render state replaced moves no region. -/
theorem render_rect (regions : Tab Region 8) (i j : Fin 8) (r : Render) :
    ((regions.put i { regions.at_ i with render := r }).at_ j).rect = (regions.at_ j).rect := by
  by_cases same : j = i
  · subst same
    simp
  · simp [same]

/-- Pixels drawn in their canonical form, with the regions where they were. -/
theorem State.FrameForm.drawn {s t : State} (h : s.FrameForm) {m : Memory} (pixels : m.wf = true)
    (frame : t.frame = { s.frame with pixels := m })
    (regions : ∀ i, (t.engine.regions.at_ i).rect = (s.engine.regions.at_ i).rect) (plant : t.plant = s.plant) :
    t.FrameForm := by
  obtain ⟨-, window, cursor, mark, rects, held⟩ := h
  unfold State.FrameForm
  rw [frame, plant]
  exact ⟨pixels, window, cursor, mark, fun i => regions i ▸ rects i, held⟩

theorem drawNext_frameForm {s : State} (h : s.FrameForm) (i : Fin 8) : (drawNext s i).FrameForm := by
  unfold drawNext
  dsimp only
  split
  · exact h
  · split
    · rename_i left
      exact h.drawn (Memory.wf_write _ h.placed.store.pixels (Region.address_lt (h.placed.regions i) left)) rfl
        (fun j => render_rect _ i j _) rfl
    · exact h

theorem completePass_frameForm (i : Fin 8) (s : State) (h : s.FrameForm) : (completePass i s).FrameForm := by
  unfold completePass
  dsimp only
  split
  · exact h
  · refine h.drawn (Memory.wf_drawFrom _ _ _ _ _ h.placed.store.pixels fun j _ left => ?_) rfl
      (fun j => render_rect _ i j _) rfl
    exact Region.address_lt (h.placed.regions i) (by omega)

@[simp] theorem scrollSecond_surface (s : State) : (scrollSecond s).surface = s.surface := by
  unfold scrollSecond
  split
  · rfl
  · split <;> rfl

@[simp] theorem scrollStep_surface (s : State) : (scrollStep s).surface = s.surface := by
  unfold scrollStep
  split
  · rfl
  · dsimp only
    split <;> rfl

@[simp] theorem toggleFlash_surface (s : State) : (toggleFlash s).surface = s.surface := by
  simp only [toggleFlash, raiseIf_surface]
  rfl

@[simp] theorem giveXalert_surface (m : LevelMoment) (s : State) : (giveXalert m s).surface = s.surface :=
  raiseIf_surface _ _ _

@[simp] theorem onTiles_surface (s : State) (f : TileDriver → TileDriver) : (s.onTiles f).surface = s.surface := rfl

@[simp] theorem rampExpires_surface (s : State) : (rampExpires s).surface = s.surface := by
  unfold rampExpires
  split <;> rfl

@[simp] theorem applyIntensity_surface (target ramp flags : Nat) (s : State) :
    (applyIntensity target ramp flags s).1.surface = s.surface :=
  surface_congr (by simp) (by simp) (by simp)

/-! ### Hard reset and the tick (R155, R156, R178) -/

theorem held_frameForm (c : ResetConditions) (straps : Straps) (queue : List Instr) :
    (State.held c straps queue).FrameForm := by
  have store : FrameStore.reset.pixels.wf = true ∧ FrameStore.reset.window.InFrame ∧ FrameStore.reset.cursor.InFrame ∧
      FrameStore.reset.mark.InFrame := by
    unfold Rect.InFrame Point.InFrame
    decide
  have regions (i : Fin 8) : (resetRegions.at_ i).rect.InFrame := by
    unfold Rect.InFrame
    decide +revert
  obtain ⟨pixels, window, cursor, mark⟩ := store
  exact State.Placed.frameForm ⟨⟨pixels, window, cursor, mark⟩, regions⟩ rfl

theorem endReset_frameForm (adr : BitVec 3) (tst : BitVec 2) (xtal : Bool) (s : State) (h : s.FrameForm) :
    (endReset adr tst xtal s).FrameForm :=
  serve_frameForm (h.congr rfl)

theorem tick_frameForm (s : State) (h : s.FrameForm) : (tick s).FrameForm := by
  have drawn (l : List (Fin 8)) (u : State) (hu : u.FrameForm) : (l.foldl drawNext u).FrameForm := by
    induction l generalizing u with
    | nil => exact hu
    | cons i l ih => exact ih _ (drawNext_frameForm hu i)
  unfold tick
  split
  · exact h
  · exact (drawn _ s h).congr (onTiles_surface _ _)

/-! ### The step -/

theorem event_frameForm {f : State → State} (hf : ∀ s, s.FrameForm → (f s).FrameForm) {s t : State} (h : s.FrameForm)
    (e : event f s = .next t) : t.FrameForm :=
  event_keeps hf (fun _ h => serve_frameForm h) h e

theorem centreEvent_frameForm {f : State → State} (hf : ∀ s, s.FrameForm → (f s).FrameForm) {s t : State}
    (h : s.FrameForm) (e : centreEvent f s = .next t) : t.FrameForm :=
  centreEvent_keeps hf (fun old s h => h.congr (decideAlert_surface old s)) (fun _ h => serve_frameForm h) h e

theorem event_frameForm_of_surface {f : State → State} (hf : ∀ s, (f s).surface = s.surface) {s t : State}
    (h : s.FrameForm) (e : event f s = .next t) : t.FrameForm :=
  event_frameForm (fun s h => h.congr (hf s)) h e

theorem centreEvent_frameForm_of_surface {f : State → State} (hf : ∀ s, (f s).surface = s.surface) {s t : State}
    (h : s.FrameForm) (e : centreEvent f s = .next t) : t.FrameForm :=
  centreEvent_frameForm (fun s h => h.congr (hf s)) h e

theorem takeFrame_surface {rule : FrameRule}
    (hr : ∀ fr apply, rule fr = some apply → ∀ s : State, (apply s).1.surface = s.surface) (s : State) :
    (takeFrame rule s).surface = s.surface :=
  takeFrame_proj State.surface onLine_surface hr s

/-- The rule of each frame leaves the surface as it was. -/
theorem frameRule_surface {rule : FrameRule}
    (known : rule ∈ [pullRule, releaseRule, leaderAckRule, leaderResetRule, bufferSetRule, countAdjustRule,
      shiftStartRule, timeMarkRule, keepaliveRule]) (fr : Frame) (apply : State → State × LineResult)
    (e : rule fr = some apply) (s : State) : (apply s).1.surface = s.surface := by
  simp only [List.mem_cons, List.not_mem_nil, or_false] at known
  obtain rfl | rfl | rfl | rfl | rfl | rfl | rfl | rfl | rfl := known
  · cases fr <;> cases e
    exact applyPull_surface _ _ _ s
  · cases fr <;> cases e
    exact applyRelease_surface _ s
  · cases fr <;> cases e
    exact applyLeaderAck_surface _ _ s
  · cases fr <;> cases e
    exact applyLeaderReset_surface _ _ s
  · cases fr <;> cases e
    exact applyBufferSet_surface _ _ s
  · cases fr <;> cases e
    exact applyCountAdjust_surface _ s
  · cases fr <;> cases e
    exact applyShiftStart_surface _ _ s
  · cases fr <;> cases e
    exact applyTimeMark_surface _ _ s
  · cases fr <;> cases e
    rfl

/-- Every command but an edge of SCK keeps the form. -/
theorem exec_frameForm {c : Instr} {s t : State} (hc : ∀ e, c ≠ .commandByte (.edge e)) (h : s.FrameForm)
    (e : exec c s = .next t) : t.FrameForm := by
  cases c
  -- hard reset and its end
  case hardReset input =>
    have next := (execHardReset_next input s).symm.trans e
    dsimp only at next
    split at next <;> cases next
    · exact held_frameForm _ _ _
    · exact h.congr rfl
  case endOfHardReset adr tst xtal gone =>
    have next := (execEndOfHardReset_next adr tst xtal gone s).symm.trans e
    dsimp only at next
    split at next <;> cases next
    · exact endReset_frameForm _ _ _ _ (h.congr rfl)
    · exact h.congr rfl
  -- inputs and clocks
  case step p => exact centreEvent_frameForm_of_surface (givePitch_surface p.zone p.moment) h e
  case xstopChange m => exact centreEvent_frameForm_of_surface (giveXstop_surface m) h e
  case xalertChange m => exact event_frameForm_of_surface (giveXalert_surface m) h e
  case stallMonitorSecond k =>
    have second (s : State) : (if s.layout.zoneUsed k then monitorSecond k s else s).surface = s.surface := by
      split
      · exact monitorSecond_surface k s
      · rfl
    exact centreEvent_frameForm_of_surface second h e
  case runClockSecond => exact event_frameForm_of_surface runClock_surface h e
  case shiftTimerSecond => exact centreEvent_frameForm_of_surface shiftSecond_surface h e
  case closeCompletion => exact centreEvent_frameForm_of_surface completeClose_surface h e
  case callSecond only => exact centreEvent_frameForm_of_surface (callSeconds_surface only) h e
  case lineLinkSecond => exact event_frameForm_of_surface lineLinkSecond_surface h e
  case plantLinkSecond => exact event_frameForm_of_surface (fun s => setPlantLink_surface s _) h e
  -- the Composition Engine and the tile chain
  case scrollSecond => exact event_frameForm_of_surface scrollSecond_surface h e
  case scrollStep => exact event_frameForm_of_surface scrollStep_surface h e
  case flashToggle => exact event_frameForm_of_surface toggleFlash_surface h e
  case renderPassComplete entry => exact event_frameForm (completePass_frameForm entry) h e
  case startTimerExpiry | presenceReturn => exact event_frameForm_of_surface (fun s => onTiles_surface s _) h e
  case rampExpiry => exact event_frameForm_of_surface rampExpires_surface h e
  -- the Line Port
  case addressByte input =>
    cases input with
    | byte b => exact event_frameForm_of_surface (takeAddress_surface b) h e
    | edge x => exact event_frameForm_of_surface (lineEdge_surface x) h e
  case lineStatusRead => exact event_frameForm_of_surface statusRead_surface h e
  case lineFrame bytes bits => exact event_frameForm_of_surface (endTransaction_surface bytes) h e
  case pull | release | leaderReset | bufferSet | countAdjust | lineShiftStart =>
    exact centreEvent_frameForm_of_surface (takeFrame_surface (frameRule_surface (by simp))) h e
  case leaderAck | timeMark | keepalive =>
    exact event_frameForm_of_surface (takeFrame_surface (frameRule_surface (by simp))) h e
  -- framing and reads of the Plant Port
  case csFalling => exact event_frameForm csFalls_frameForm h e
  case csRising bytes bits => exact event_frameForm (csRises_frameForm bytes) h e
  case unknownCommand code => exact event_frameForm (unknownCode_frameForm code) h e
  case commandByte input =>
    cases input with
    | byte code => exact event_frameForm (argumentsFollow_frameForm code) h e
    | edge x => exact absurd rfl (hc x)
  case readStatus m =>
    cases m with
    | taken => exact event_frameForm (takeRead_frameForm fun _ => rfl) h e
    | firstByte => exact event_frameForm captureStatus_frameForm h e
  case statusFlagByteSent => exact event_frameForm_of_surface flagByteSent_surface h e
  case presenceExtension => exact event_frameForm capturePresence_frameForm h e
  case readStation m =>
    cases m with
    | taken => exact event_frameForm (takeRead_frameForm fun _ => rfl) h e
    | firstByte => exact event_frameForm captureStation_frameForm h e
  case readCalls => exact event_frameForm (takeRead_frameForm fun _ => rfl) h e
  case callRecordSlot => exact event_frameForm beginCallSlot_frameForm h e
  case readPace m =>
    cases m with
    | taken => exact event_frameForm (takeRead_frameForm fun _ => rfl) h e
    | firstByte => exact event_frameForm capturePace_frameForm h e
  case readLoss m =>
    cases m with
    | taken => exact event_frameForm (takeRead_frameForm fun _ => rfl) h e
    | firstByte => exact event_frameForm captureLossEntry_frameForm h e
  case readSummary m =>
    cases m with
    | taken => exact event_frameForm (takeRead_frameForm fun _ => rfl) h e
    | firstByte => exact event_frameForm captureSummary_frameForm h e
  case readHistory => exact event_frameForm (takeRead_frameForm fun _ => rfl) h e
  case historySlot m =>
    cases m with
    | begins => exact event_frameForm beginHistorySlot_frameForm h e
    | ends => exact event_frameForm endHistorySlot_frameForm h e
  -- commands of the Plant Port to the centre
  case rewindHistory | discardPlan | writePolicy =>
    exact event_frameForm (takeCommand_frameForm_of_surface fun _ => rfl) h e
  case stagePlan l k o n b =>
    exact event_frameForm (takeCommand_frameForm_of_surface (applyStagePlan_surface l k o n b)) h e
  case commitPlan => exact centreEvent_frameForm (takeCommand_frameForm_of_surface (applyCommit_surface _)) h e
  case plantShiftStart =>
    exact centreEvent_frameForm (takeCommand_frameForm_of_surface (applyShiftStart_surface _ _)) h e
  case shiftClose => exact centreEvent_frameForm (takeCommand_frameForm_of_surface applyShiftClose_surface) h e
  case ackCall => exact event_frameForm (takeCommand_frameForm_of_surface (applyAckCall_surface _ _)) h e
  case clearCall => exact centreEvent_frameForm (takeCommand_frameForm_of_surface (applyClearCall_surface _ _)) h e
  case writeLayoutZone =>
    exact centreEvent_frameForm (takeCommand_frameForm_of_surface (applyLayoutZone_surface _ _ _ _ _ _ _ _)) h e
  case writeLayoutStation =>
    exact centreEvent_frameForm (takeCommand_frameForm_of_surface (applyLayoutStation_surface _ _ _)) h e
  case writeLinkSettings a b c =>
    exact centreEvent_frameForm (takeCommand_frameForm_of_surface (applyLinkSettings_surface a b c)) h e
  -- the Frame Store, the Layout Table and the tiles
  case setWindow => exact event_frameForm (takeCommand_frameForm (applyWindow_placed _ _ _ _)) h e
  case setCursor => exact event_frameForm (takeCommand_frameForm (applyCursor_placed _ _)) h e
  case setAddressControl => exact event_frameForm (takeCommand_frameForm (applyControl_placed _ _ _ _)) h e
  case setColourMode => exact event_frameForm (takeCommand_frameForm (applyMode_placed _)) h e
  case setMask => exact event_frameForm (takeCommand_frameForm (applyMask_placed _)) h e
  case setMark => exact event_frameForm (takeCommand_frameForm applyMark_placed) h e
  case returnToMark => exact event_frameForm (takeCommand_frameForm applyReturn_placed) h e
  case writePixels => exact event_frameForm (takeOrigin_frameForm _) h e
  case pixelGroup bytes => exact event_frameForm (applyGroup_frameForm bytes) h e
  case readPixels => exact event_frameForm takeReadPixels_frameForm h e
  case pixelRead m =>
    cases m with
    | begins => exact event_frameForm beginPixel_frameForm h e
    | ends => exact event_frameForm endPixel_frameForm h e
  case writeRegion => exact event_frameForm (takeCommand_frameForm (applyRegion_placed _ _ _ _ _ _ _ _ _)) h e
  case setIntensity =>
    exact event_frameForm (takeCommand_frameForm_of_surface (applyIntensity_surface _ _ _)) h e
  case restartTiles => exact event_frameForm (takeCommand_frameForm_of_surface fun s => onTiles_surface s _) h e

/-- Settles O6: each command by `exec_frameForm`, the tick by the pixels it draws, and an edge of SCK as the command whose
byte it completes. -/
theorem stepKeepsFrameForm : Obligations.StepKeepsFrameForm := fun _ _ h e =>
  step_keeps_of_rows (I := State.FrameForm) (fun _ _ h => h.congr rfl) (fun _ _ h => h.congr rfl) tick_frameForm
    exec_frameForm h e

end Sys2Proof.Machine
end

section
/-! SET WINDOW, SET CURSOR, SET MARK, RETURN TO MARK, SET ADDRESS CONTROL, SET COLOUR MODE and SET MASK (R145 to R150,
R154). -/

namespace Sys2Proof.Machine

/-! ### Commands that reach the Frame Store alone -/

/-- A plant command that at most changes the Frame Store is answered, and nothing else follows. -/
theorem commandEvent_onFrame {c : PlantCommand} {rule : CommandRule} {s : State} {g : FrameStore → FrameStore}
    {r : PlantResult} (running : s.inReset = false) (quiet : s.Quiet) (h : s.plant.transaction = .arguments c)
    (applied : rule s = (s.onFrame g, r)) :
    event (takeCommand c rule) s = .next { s with plant := s.plant.answered r, frame := g s.frame } := by
  rw [event_next _ _ running, takeCommand_arguments h, applied]
  exact congrArg _ (serve_quiet _ quiet)

/-- The same taken from the command byte, which restarts the link. -/
theorem bareCommand_onFrame {c : PlantCommand} {rule : CommandRule} {s : State} {g : FrameStore → FrameStore}
    {r : PlantResult} (running : s.inReset = false) (quiet : s.Quiet) (ready : s.plant.transaction = .ready)
    (bare : c.argBytes = 0) (applied : ∀ u, rule u = (u.onFrame g, r)) :
    ∃ t, event (takeCommand c rule) s = .next t ∧ t.frame = g s.frame ∧ t.plant = s.plant.linked.answered r ∧
      { t with frame := s.frame, plant := s.plant, engine := s.engine } = s ∧
      RequestedOnly s.plantLinkRoles s t := by
  have next := event_next (takeCommand c rule) s running
  rw [takeCommand_ready ready bare, applied] at next
  refine ⟨_, next, by simp, by simp [restartPlantLink_plant, PlantPort.answered], by apply State.ext <;> simp,
    Latches.served ?latches quiet⟩
  case latches => simpa using restartPlantLink_latches s

/-! ### What the commands store -/

/-- Corners clamped to the frame, each pair in order (R145). -/
theorem Rect.ofCorners_eq (x0 y0 x1 y1 : Nat) :
    Rect.ofCorners x0 y0 x1 y1 =
      let a := min x0 159
      let b := min x1 159
      let c := min y0 47
      let d := min y1 47
      ⟨if b < a then b else a, if d < c then d else c, if b < a then a else b, if d < c then c else d⟩ := by
  dsimp only [Rect.ofCorners]
  generalize min x0 159 = a
  generalize min x1 159 = b
  generalize min y0 47 = c
  generalize min y1 47 = d
  have least (m n : Nat) : min m n = if n < m then n else m := by split <;> omega
  have most (m n : Nat) : max m n = if n < m then m else n := by split <;> omega
  rw [least, least, most, most]

theorem toNat_eq_one_iff (b : Byte) : b.toNat = 1 ↔ b = 1 := BitVec.toNat_inj (y := 1#8)

theorem applyControl_range {a b c d : Nat} (s : State) (h : 1 < a ∨ 1 < b ∨ 1 < c ∨ 1 < d) :
    applyControl a b c d s = (s, .range) := if_pos h

theorem applyControl_stored {a b c d : Byte} (s : State) (ha : a.toNat ≤ 1) (hb : b.toNat ≤ 1) (hc : c.toNat ≤ 1)
    (hd : d.toNat ≤ 1) :
    applyControl a.toNat b.toNat c.toNat d.toNat s =
      (s.onFrame fun f => { f with control := ⟨decide (a = 1), decide (b = 1), decide (c = 1), decide (d = 1)⟩ },
        .ok) := by
  have codes : ¬(1 < a.toNat ∨ 1 < b.toNat ∨ 1 < c.toNat ∨ 1 < d.toNat) := by omega
  simp only [applyControl, if_neg codes, toNat_eq_one_iff]

theorem applyMode_range {code : Nat} (s : State) (h : 2 < code) : applyMode code s = (s, .range) := by
  have unknown : ColourMode.ofCode code = none := by
    unfold ColourMode.ofCode
    split <;> simp_all
  simp [applyMode, unknown]

/-- Settles O51: each command taken after its arguments is one change of the Frame Store (`commandEvent_onFrame`), and the
two without arguments are taken from the command byte (`bareCommand_onFrame`). -/
theorem windowCursorMarkControlModeAndMaskAreSet : Obligations.WindowCursorMarkControlModeAndMaskAreSet := by
  intro x0 y0 x1 y1 s running quiet
  refine ⟨fun h => ?window, fun h => ?cursor, fun ready => ?mark, fun h => ⟨fun codes => ?refused, ?control⟩,
    fun h => ?mode, fun h => ?mask⟩
  case window =>
    dsimp only
    rw [← Rect.ofCorners_eq]
    exact commandEvent_onFrame (g := fun f => { f with window := Rect.ofCorners _ _ _ _ }) running quiet h rfl
  case cursor => exact commandEvent_onFrame (g := fun f => { f with cursor := ⟨_, _⟩ }) running quiet h rfl
  case mark =>
    exact ⟨bareCommand_onFrame (g := fun f => { f with mark := f.cursor }) running quiet ready rfl fun _ => rfl,
      bareCommand_onFrame (g := fun f => { f with cursor := f.mark }) running quiet ready rfl fun _ => rfl⟩
  case refused => exact commandEvent_onFrame (g := id) running quiet h (applyControl_range s codes)
  case control =>
    intro order column row wrap
    exact commandEvent_onFrame (g := fun f => { f with control := _ }) running quiet h
      (applyControl_stored s order column row wrap)
  case mode =>
    have stored (m : ColourMode) (applied : applyMode x0.toNat s = (s.onFrame fun f => { f with colourMode := m }, .ok)) :
        exec (.setColourMode x0) s =
          .next { s with plant := s.plant.answered .ok, frame := { s.frame with colourMode := m } } :=
      commandEvent_onFrame (g := fun f => { f with colourMode := m }) running quiet h applied
    refine ⟨?c8, ?c12, ?c16, fun beyond => ?range⟩
    case c8 => rintro rfl; exact stored .c8 rfl
    case c12 => rintro rfl; exact stored .c12 rfl
    case c16 => rintro rfl; exact stored .c16 rfl
    case range => exact commandEvent_onFrame (g := id) running quiet h (applyMode_range s beyond)
  case mask => exact commandEvent_onFrame (g := fun f => { f with mask := ⟨_, _, _⟩ }) running quiet h rfl

end Sys2Proof.Machine
end

section
/-! Pixel transfers as they begin, and the pixels that READ PIXELS serves (R146, R148, R151, R153). -/

namespace Sys2Proof.Machine

/-! ### The advance (R148) -/

theorem Point.eq_iff {p q : Point} : p = q ↔ p.x = q.x ∧ p.y = q.y := by
  cases p
  cases q
  simp

/-- The advance by R148's table: past the last pixel to the start or nowhere, else along the first axis, and at its end
along the other from the start of the first. -/
theorem advanced_eq (f : FrameStore) :
    f.advanced =
      if f.cursor = f.lastPixel then (if f.control.wrap then f.startCorner else f.cursor)
      else if f.control.rowFirst then
        if f.cursor.y = f.lastPixel.y then ⟨stepAlong f.control.columnMinus f.cursor.x, f.startCorner.y⟩
        else ⟨f.cursor.x, stepAlong f.control.rowMinus f.cursor.y⟩
      else
        if f.cursor.x = f.lastPixel.x then ⟨f.startCorner.x, stepAlong f.control.rowMinus f.cursor.y⟩
        else ⟨stepAlong f.control.columnMinus f.cursor.x, f.cursor.y⟩ := by
  simp only [FrameStore.advanced, Point.eq_iff]
  by_cases column : f.cursor.x = f.lastPixel.x <;> by_cases row : f.cursor.y = f.lastPixel.y <;> simp [column, row]

/-! ### Transfers begun (R151, R153) -/

/-- An event that gives a state with no request latched gives it as it is. -/
theorem event_gives {f : State → State} {s u : State} (running : s.inReset = false) (quiet : u.Quiet) (h : f s = u) :
    event f s = .next u := by
  rw [event_next f s running, h, serve_quiet u quiet]

theorem takeOrigin_arguments {s : State} (h : s.plant.transaction = .arguments .writePixels) (origin : Nat) :
    takeOrigin origin s =
      if 1 < origin then setTransaction .pixelsRefused (setPlantResult .range s)
      else setTransaction (.pixelsIn s.frame.colourMode) (if origin = 0 then clampCursor s else cornerCursor s) := by
  simp [takeOrigin, State.decoded, h]

/-- WRITE PIXELS begins with the cursor in the window, or refuses its origin (R146, R151). -/
theorem writePixels_next {s : State} (running : s.inReset = false) (quiet : s.Quiet)
    (h : s.plant.transaction = .arguments .writePixels) (origin : Byte) :
    exec (.writePixels origin) s = .next
      (if 1 < origin.toNat then setTransaction .pixelsRefused (setPlantResult .range s)
      else setTransaction (.pixelsIn s.frame.colourMode)
        (if origin.toNat = 0 then clampCursor s else cornerCursor s)) := by
  refine event_gives running ?_ (takeOrigin_arguments h _)
  (repeat' split) <;> exact quiet

theorem takeReadPixels_ready {s : State} (ready : s.plant.transaction = .ready) :
    takeReadPixels s = setTransaction (.pixelsOut none) (clampCursor (restartPlantLink s)) := by
  simp [takeReadPixels, State.decoded, ready, commandByteTaken, PlantCommand.argBytes]

/-- READ PIXELS restarts the link and clamps the cursor into the window (R146, R153). -/
theorem readPixels_next {s : State} (running : s.inReset = false) (quiet : s.Quiet)
    (ready : s.plant.transaction = .ready) :
    ∃ t, exec .readPixels s = .next t ∧
      t.frame = { s.frame with cursor := s.frame.window.clampPoint s.frame.cursor } ∧
      t.plant = { s.plant.linked with transaction := .pixelsOut none } ∧
      { t with frame := s.frame, plant := s.plant, engine := s.engine } = s ∧
      RequestedOnly s.plantLinkRoles s t := by
  have next : exec .readPixels s = .next (serve (takeReadPixels s)) := event_next _ s running
  rw [takeReadPixels_ready ready] at next
  refine ⟨_, next, by simp [clampCursor], by simp [restartPlantLink_plant], by apply State.ext <;> simp,
    Latches.served ?latches quiet⟩
  case latches => simpa using restartPlantLink_latches s

/-! ### Pixels served (R153) -/

/-- A pixel's first byte captures the pixel at the cursor. -/
theorem pixelRead_begins {s : State} {p : Option Pixel} (running : s.inReset = false) (quiet : s.Quiet)
    (h : s.plant.transaction = .pixelsOut p) :
    exec (.pixelRead .begins) s =
      .next { s with plant := { s.plant with transaction := .pixelsOut (some s.frame.atCursor) } } :=
  event_setTransaction (f := beginPixel) running quiet (by simp only [beginPixel, h])

/-- The end of a pixel's second byte advances the cursor. -/
theorem pixelRead_ends {s : State} {p : Pixel} (running : s.inReset = false) (quiet : s.Quiet)
    (h : s.plant.transaction = .pixelsOut (some p)) :
    exec (.pixelRead .ends) s =
      .next { s with
        frame := { s.frame with cursor := s.frame.advanced }
        plant := { s.plant with transaction := .pixelsOut none } } :=
  event_gives (f := endPixel) (u := setTransaction (.pixelsOut none) (advanceCursor s)) running quiet
    (by simp only [endPixel, h])

/-- MISO drives the bytes of the pixel captured. -/
theorem miso_captured {s : State} (running : s.inReset = false) (q : Pixel) (i : Nat) :
    (setTransaction (.pixelsOut (some q)) s).miso i = some (q.bytes.getD i 0xFF) := by
  have begun : Transaction.pixelsOut (some q) ≠ .waiting := nofun
  exact (miso_running (s := setTransaction (.pixelsOut (some q)) s) running i).trans (served_of_ne_waiting begun i)

/-- Settles O52: a transfer begins by `writePixels_next` or `readPixels_next`, and a pixel is served by
`pixelRead_begins` and `pixelRead_ends`, with R148's table in `advanced_eq`. -/
theorem pixelTransfersBeginAtCursorAndReadsAdvance : Obligations.PixelTransfersBeginAtCursorAndReadsAdvance := by
  intro origin s running quiet _
  refine ⟨fun h => ⟨?pointed, ?corner, fun beyond => ?refused⟩, readPixels_next running quiet,
    fun p h => ⟨?begins, ?none, ?ends⟩⟩
  case pointed =>
    rintro rfl
    have next := writePixels_next running quiet h 0
    rwa [if_neg (by decide), if_pos (by decide)] at next
  case corner =>
    rintro rfl
    have next := writePixels_next running quiet h 1
    rwa [if_neg (by decide), if_neg (by decide)] at next
  case refused =>
    rw [writePixels_next running quiet h, if_pos beyond]
    rfl
  case begins =>
    exact ⟨setTransaction _ s, pixelRead_begins running quiet h, rfl, miso_captured running s.frame.atCursor 0,
      miso_captured running s.frame.atCursor 1⟩
  case none =>
    rintro rfl
    refine event_unchanged running quiet (endPixel_elsewhere fun q captured => ?_)
    rw [h] at captured
    cases captured
  case ends =>
    intro captured
    obtain ⟨q, rfl⟩ := Option.ne_none_iff_exists'.1 captured
    rw [pixelRead_ends running quiet h, advanced_eq]
    rfl

end Sys2Proof.Machine
end

section
/-! Pixel groups: the pixels of each mode, and one pixel through ownership and mask (R144, R149 to R152). -/

namespace Sys2Proof.Machine

/-! ### The pixels of a group (R149) -/

theorem toNat_append_add {m n : Nat} (x : BitVec m) (y : BitVec n) : (x ++ y).toNat = x.toNat * 2 ^ n + y.toNat := by
  rw [BitVec.toNat_append, ← Nat.shiftLeft_add_eq_or_of_lt y.isLt, Nat.shiftLeft_eq]

theorem toNat_field {n : Nat} (b : BitVec n) (start len : Nat) :
    (b.extractLsb' start len).toNat = b.toNat / 2 ^ start % 2 ^ len := by
  rw [BitVec.extractLsb'_toNat, Nat.shiftRight_eq_div_pow]

/-- A channel of three bits widened to four repeats its top bit. -/
theorem widened_eq (b : Byte) (start : Nat) :
    BitVec.ofNat 4 (b.toNat / 2 ^ start % 8 * 2 + b.toNat / 2 ^ start % 8 / 4) =
      b.extractLsb' start 3 ++ b.extractLsb' (start + 2) 1 := by
  apply BitVec.eq_of_toNat_eq
  have top : b.toNat / 2 ^ (start + 2) = b.toNat / 2 ^ start / 4 := by
    rw [pow_add, Nat.div_div_eq_div_mul]
    rfl
  simp only [BitVec.toNat_ofNat, toNat_append_add, toNat_field, top, Nat.reducePow]
  generalize b.toNat / 2 ^ start = v
  have topBit : v % 8 / 4 = v / 4 % 2 := by omega
  omega

/-- A channel of two bits widened to four is repeated. -/
theorem doubled_eq (b : Byte) : BitVec.ofNat 4 (b.toNat % 4 * 5) = b.extractLsb' 0 2 ++ b.extractLsb' 0 2 := by
  apply BitVec.eq_of_toNat_eq
  simp only [BitVec.toNat_ofNat, toNat_append_add, toNat_field, Nat.reducePow, Nat.div_one]
  omega

theorem pixelC8_eq (b : Byte) :
    pixelC8 b =
      ⟨b.extractLsb' 5 3 ++ b.extractLsb' 7 1, b.extractLsb' 2 3 ++ b.extractLsb' 4 1,
        b.extractLsb' 0 2 ++ b.extractLsb' 0 2⟩ := by
  have bound : b.toNat < 256 := b.isLt
  have red : b.toNat / 32 = b.toNat / 2 ^ 5 % 8 := by omega
  have green : b.toNat / 4 % 8 = b.toNat / 2 ^ 2 % 8 := rfl
  dsimp only [pixelC8]
  rw [red, green, widened_eq, widened_eq, doubled_eq]

theorem pixelC16_eq (hi lo : Byte) :
    pixelC16 hi lo =
      let word : BitVec 16 := hi ++ lo
      ⟨word.extractLsb' 12 4, word.extractLsb' 7 4, word.extractLsb' 1 4⟩ := by
  have word : (hi ++ lo).toNat = hi.toNat * 256 + lo.toNat := toNat_append_add hi lo
  simp only [pixelC16, Pixel.mk.injEq]
  refine ⟨?_, ?_, ?_⟩ <;>
    (apply BitVec.eq_of_toNat_eq
     simp only [BitVec.toNat_ofNat, toNat_field, word, Nat.reducePow]
     omega)

theorem highNibble_eq (b : Byte) : highNibble b = b.extractLsb' 4 4 := by
  apply BitVec.eq_of_toNat_eq
  simp only [highNibble, BitVec.toNat_ofNat, toNat_field, Nat.reducePow]

theorem lowNibble_eq (b : Byte) : lowNibble b = b.extractLsb' 0 4 := by
  apply BitVec.eq_of_toNat_eq
  simp [lowNibble]

/-- Bytes that are no complete group of the mode hold no pixel. -/
theorem groupPixels_incomplete {m : ColourMode} {bytes : List Byte} (h : bytes.length ≠ m.groupBytes) :
    groupPixels m bytes = [] := by
  unfold groupPixels
  split
  · exact absurd rfl h
  · exact absurd rfl h
  · exact absurd rfl h
  · rfl

theorem groupPixels_c8 {bytes : List Byte} (h : bytes.length = 1) : groupPixels .c8 bytes = [pixelC8 (bytes.getD 0 0)] := by
  obtain ⟨b, rfl⟩ := List.length_eq_one_iff.1 h
  rfl

theorem groupPixels_c12 {bytes : List Byte} (h : bytes.length = 3) :
    groupPixels .c12 bytes =
      [⟨highNibble (bytes.getD 0 0), lowNibble (bytes.getD 0 0), highNibble (bytes.getD 1 0)⟩,
        ⟨lowNibble (bytes.getD 1 0), highNibble (bytes.getD 2 0), lowNibble (bytes.getD 2 0)⟩] := by
  obtain ⟨b0, b1, b2, rfl⟩ := List.length_eq_three.1 h
  rfl

theorem groupPixels_c16 {bytes : List Byte} (h : bytes.length = 2) :
    groupPixels .c16 bytes = [pixelC16 (bytes.getD 0 0) (bytes.getD 1 0)] := by
  obtain ⟨hi, lo, rfl⟩ := List.length_eq_two.1 h
  rfl

/-! ### One pixel (R144, R150, R151) -/

/-- The pixel at the cursor is engine-owned where a region in force with an engine role holds it (R144). -/
theorem cursorOwned_iff (s : State) :
    s.cursorOwned = true ↔
      ∃ i : Fin 8, (s.engine.regions.at_ i).enabled = true ∧ (s.engine.regions.at_ i).role ≠ .message ∧
        (s.engine.regions.at_ i).rect.holds s.frame.cursor.x s.frame.cursor.y = true := by
  have engine (r : Role) : r.isEngine = true ↔ r ≠ .message := by cases r <;> decide
  simp [State.cursorOwned, Engine.ownsPixel, Region.owns, engine, and_assoc]

/-- One pixel taken: dropped where the engine owns the cursor's, else written, and the cursor advances. -/
theorem writePixel_frame (s : State) (p : Pixel) :
    (writePixel s p).frame =
      { s.frame with
        pixels := if s.cursorOwned then s.frame.pixels else (s.frame.written p).pixels
        cursor := s.frame.advanced } := by
  unfold writePixel
  split <;> rfl

/-- In a transfer no status reply notes the collision, which its flag keeps alone (R137, R152). -/
theorem writePixel_plant {s : State} {m : ColourMode} (h : s.plant.transaction = .pixelsIn m) (p : Pixel) :
    (writePixel s p).plant = if s.cursorOwned then { s.plant with collision := true } else s.plant := by
  have collided : s.plant.transaction.collided = s.plant.transaction := by
    rw [h]
    rfl
  unfold writePixel
  split
  · simp [advanceCursor, recordCollision, collided]
  · rfl

/-- A pixel written reads back through the mask, and every other as before (R150). -/
theorem written_read {f : FrameStore} (h : f.pixels.wf = true) (p : Pixel) (a : Nat) :
    (f.written p).pixels.read a =
      if a = pixelAddress f.cursor.x f.cursor.y then f.mask.merge (f.pixels.read a) p else f.pixels.read a := by
  split
  · rename_i same
    subst same
    exact Memory.read_write_self h _ _
  · rename_i other
    exact Memory.read_write_ne _ _ other

theorem writePixel_quiet {s : State} (quiet : s.Quiet) (p : Pixel) : (writePixel s p).Quiet := by
  unfold writePixel
  split <;> exact quiet

/-- A group is applied pixel by pixel (R151). -/
theorem pixelGroup_next {s : State} {m : ColourMode} (running : s.inReset = false) (quiet : s.Quiet)
    (h : s.plant.transaction = .pixelsIn m) (bytes : List Byte) :
    exec (.pixelGroup bytes) s = .next ((groupPixels m bytes).foldl writePixel s) := by
  have kept (ps : List Pixel) (u : State) (hu : u.Quiet) : (ps.foldl writePixel u).Quiet := by
    induction ps generalizing u with
    | nil => exact hu
    | cons p ps ih => exact ih _ (writePixel_quiet hu p)
  exact event_gives (f := applyGroup bytes) running (kept _ s quiet) (by simp only [applyGroup, h])

/-- Settles O53: a group is its pixels in order (`pixelGroup_next`), those of each mode by `pixelC8_eq`, the nibbles and
`pixelC16_eq`, and one pixel's frame and flag are `writePixel_frame` and `writePixel_plant`. -/
theorem pixelGroupsAreWrittenOrDroppedPixelByPixel : Obligations.PixelGroupsAreWrittenOrDroppedPixelByPixel := by
  intro m bytes p s running quiet h at_ word high low groupLength
  have next := pixelGroup_next running quiet h bytes
  refine ⟨fun incomplete => ?incomplete, ?c8, ?c12, ?c16, fun owned => ?owned, fun free canonical inFrame => ?free, ?cursor,
    ?store, ?rest⟩
  case incomplete =>
    have none : groupPixels m bytes = [] := groupPixels_incomplete (by cases m <;> exact incomplete)
    rwa [none] at next
  case c8 =>
    rintro length rfl
    rwa [groupPixels_c8 length, pixelC8_eq] at next
  case c12 =>
    rintro length rfl
    rwa [groupPixels_c12 length, highNibble_eq, highNibble_eq, highNibble_eq, lowNibble_eq, lowNibble_eq, lowNibble_eq]
      at next
  case c16 =>
    rintro length rfl
    rwa [groupPixels_c16 length, pixelC16_eq] at next
  case owned =>
    have dropped := (cursorOwned_iff s).2 owned
    rw [writePixel_frame, writePixel_plant h, dropped]
    exact ⟨rfl, rfl⟩
  case free =>
    have written : s.cursorOwned = false := Bool.eq_false_iff.2 fun dropped => free ((cursorOwned_iff s).1 dropped)
    rw [writePixel_frame, writePixel_plant h, written]
    exact ⟨written_read canonical p, rfl⟩
  case cursor => rw [writePixel_frame]
  case store => rw [writePixel_frame]
  case rest => apply State.ext <;> simp

end Sys2Proof.Machine
end

section
/-! The Layout Table's form (RegionsApart): the writes that judge it, the passes that start, go on and complete in it, and
every step. -/

namespace Sys2Proof.Machine

/-! ### What RegionsApart looks at -/

/-- RegionsApart looks at the Layout Table alone. -/
theorem State.RegionsApart.congr {s t : State} (h : s.RegionsApart) (regions : t.engine.regions = s.engine.regions) :
    t.RegionsApart := by
  unfold State.RegionsApart
  rwa [regions]

theorem regions_of_surface {s t : State} (e : t.surface = s.surface) : t.engine.regions = s.engine.regions :=
  congrArg (fun x => x.2.1) e

/-- Two regions in force may stand side by side: no pixel and no engine role in common (R156). -/
structure Region.Apart (r q : Region) : Prop where
  pixels : r.rect.meets q.rect = false
  roles : r.role.isEngine = true → r.role ≠ q.role

/-- An entry's own part of RegionsApart (R156, R159). -/
structure Region.Form (r : Region) : Prop where
  headerRows : r.headerRows ≤ 2
  scroll_pos : 1 ≤ r.scrollInterval
  scroll_le : r.scrollInterval ≤ 10
  pass : r.render ≠ .idle → r.owns = true

theorem regionsApart_iff (s : State) :
    s.RegionsApart ↔
      (∀ i j, i ≠ j → (s.engine.regions.at_ i).enabled = true → (s.engine.regions.at_ j).enabled = true →
        (s.engine.regions.at_ i).Apart (s.engine.regions.at_ j)) ∧
      ∀ i, (s.engine.regions.at_ i).Form := by
  constructor
  · rintro ⟨apart, ranges, passes⟩
    refine ⟨fun i j hij hi hj => ⟨(apart i j hij hi hj).1, (apart i j hij hi hj).2⟩, fun i => ?_⟩
    obtain ⟨header, low, high⟩ := ranges i
    exact ⟨header, low, high, passes i⟩
  · rintro ⟨apart, form⟩
    exact ⟨fun i j hij hi hj => ⟨(apart i j hij hi hj).pixels, (apart i j hij hi hj).roles⟩,
      fun i => ⟨(form i).headerRows, (form i).scroll_pos, (form i).scroll_le⟩, fun i => (form i).pass⟩

theorem Rect.meets_comm (r q : Rect) : r.meets q = q.meets r := by
  rw [Bool.eq_iff_iff]
  simp only [Rect.meets, Bool.and_eq_true, decide_eq_true_eq]
  omega

theorem Region.Apart.symm {r q : Region} (h : r.Apart q) : q.Apart r where
  pixels := (Rect.meets_comm _ _).trans h.pixels
  roles engine same := h.roles (same ▸ engine) same.symm

/-! ### Passes that start, go on and complete (R159, R160) -/

/-- Render states alone change, and a pass is in flight only where the entry owns its pixels. -/
theorem State.RegionsApart.rendered {s t : State} (h : s.RegionsApart)
    (same : ∀ i, { t.engine.regions.at_ i with render := (s.engine.regions.at_ i).render } = s.engine.regions.at_ i)
    (passes : ∀ i, (t.engine.regions.at_ i).render ≠ .idle → (s.engine.regions.at_ i).owns = true) :
    t.RegionsApart := by
  obtain ⟨apart, form⟩ := (regionsApart_iff s).1 h
  refine (regionsApart_iff t).2 ⟨fun i j hij hi hj => ?_, fun i => ?_⟩
  · have between := apart i j hij
    rw [← same i, ← same j] at between
    obtain ⟨pixels, roles⟩ := between hi hj
    exact ⟨pixels, roles⟩
  · have pass := passes i
    obtain ⟨header, low, high, -⟩ := form i
    rw [← same i] at header low high pass
    exact ⟨header, low, high, pass⟩

/-- A request latched is one for an engine role (R161). -/
theorem isEngine_of_has {q : Requests} {r : Role} (h : q.has r = true) : r.isEngine = true := by
  cases r with
  | message => cases h
  | pace | stations | ticker | clock | banner => rfl

/-- Serving starts passes in regions in force with an engine role alone (R159). -/
theorem serve_regionsApart {s : State} (h : s.RegionsApart) : (serve s).RegionsApart := by
  refine h.rendered (fun i => ?_) (fun i pass => ?_)
  · rw [serve_region]
    split <;> rfl
  · rw [serve_region] at pass
    split at pass
    · rename_i served
      rw [Bool.and_eq_true] at served
      rw [Region.owns, served.1, isEngine_of_has served.2, Bool.and_self]
    · exact ((regionsApart_iff s).1 h).2 i |>.pass pass

/-- A new render state of an entry whose pass is in flight. -/
theorem State.RegionsApart.renderPut {s t : State} (h : s.RegionsApart) {i : Fin 8} {r : Render}
    (busy : (s.engine.regions.at_ i).render ≠ .idle)
    (regions : t.engine.regions = s.engine.regions.put i { s.engine.regions.at_ i with render := r }) :
    t.RegionsApart := by
  refine h.rendered (fun j => ?_) (fun j pass => ?_)
  · rw [regions, Tab.at_put]
    split
    · rename_i same
      rw [same]
    · rfl
  · refine ((regionsApart_iff s).1 h).2 j |>.pass ?_
    rw [regions, Tab.at_put] at pass
    split at pass
    · rename_i same
      rwa [same]
    · exact pass

theorem drawNext_regionsApart {s : State} (h : s.RegionsApart) (i : Fin 8) : (drawNext s i).RegionsApart := by
  unfold drawNext
  dsimp only
  split
  · exact h
  · rename_i busy
    split
    · exact h.renderPut (by rw [busy]; nofun) rfl
    · exact h

theorem completePass_regionsApart (i : Fin 8) (s : State) (h : s.RegionsApart) : (completePass i s).RegionsApart := by
  unfold completePass
  dsimp only
  split
  · exact h
  · rename_i busy
    exact h.renderPut (by rw [busy]; nofun) rfl

theorem tick_regionsApart (s : State) (h : s.RegionsApart) : (tick s).RegionsApart := by
  have drawn (l : List (Fin 8)) (u : State) (hu : u.RegionsApart) : (l.foldl drawNext u).RegionsApart := by
    induction l generalizing u with
    | nil => exact hu
    | cons i l ih => exact ih _ (drawNext_regionsApart hu i)
  unfold tick
  split
  · exact h
  · exact (drawn _ s h).congr (regions_of_surface (onTiles_surface _ _))

/-! ### WRITE REGION (R157, R158) -/

theorem Engine.otherInForce_eq_false_iff (e : Engine) (i : Fin 8) (p : Region → Bool) :
    e.otherInForce i p = false ↔
      ∀ j, j ≠ i → (e.regions.at_ j).enabled = true → p (e.regions.at_ j) = false := by
  simp [Engine.otherInForce, List.any_eq_false]

/-- A written entry's fields lie in their ranges (R157). -/
theorem Region.ofFields_form (role : Role) (x0 y0 x1 y1 : Nat) (enabled : Bool) (header scroll : Nat) :
    (Region.ofFields role x0 y0 x1 y1 enabled header scroll).Form where
  headerRows := Nat.min_le_left _ _
  scroll_pos := (clamp_bounds (by decide)).1
  scroll_le := (clamp_bounds (by decide)).2
  pass busy := absurd rfl busy

/-- The overlap and role tests passed: the entry stands apart from every other in force (R157). -/
theorem apart_of_judged {e : Engine} {i : Fin 8} {r : Region} (free : e.overlapped i r = false)
    (unheld : e.roleHeld i r = false) (enabled : r.enabled = true) (j : Fin 8) (other : j ≠ i)
    (inForce : (e.regions.at_ j).enabled = true) : r.Apart (e.regions.at_ j) where
  pixels := by
    rw [Engine.overlapped, enabled, Bool.true_and, Engine.otherInForce_eq_false_iff] at free
    exact free j other inForce
  roles engine same := by
    rw [Engine.roleHeld, enabled, engine, Bool.true_and, Bool.true_and, Engine.otherInForce_eq_false_iff] at unheld
    exact absurd same.symm (of_decide_eq_false (unheld j other inForce))

/-- A fresh pass starts only where the entry owns its pixels (R158 step 4). -/
theorem freshPass_owns {s : State} {r : Region} (busy : s.freshPass r ≠ .idle) : r.owns = true := by
  unfold State.freshPass at busy
  split at busy
  · assumption
  · exact absurd rfl busy

/-- No pass captures anything of the Frame Store (R160). -/
theorem captureFor_onFrame (s : State) (f : FrameStore → FrameStore) (role : Role) :
    (s.onFrame f).captureFor role = s.captureFor role := by
  cases role <;> rfl

theorem freshPass_onFrame (s : State) (f : FrameStore → FrameStore) (r : Region) :
    (s.onFrame f).freshPass r = s.freshPass r := by
  unfold State.freshPass State.startedPass
  rw [captureFor_onFrame]

theorem storeRegion_regions (i : Fin 8) (new : Region) (s : State) :
    (storeRegion i new s).engine.regions = s.engine.regions.put i { new with render := s.freshPass new } := by
  rw [← freshPass_onFrame s _ new]
  rfl

theorem storeRegion_regionsApart {i : Fin 8} {new : Region} {s : State} (h : s.RegionsApart) (formed : new.Form)
    (free : s.engine.overlapped i new = false) (unheld : s.engine.roleHeld i new = false) :
    (storeRegion i new s).RegionsApart := by
  obtain ⟨apart, form⟩ := (regionsApart_iff s).1 h
  have beside (enabled : new.enabled = true) (j : Fin 8) (other : j ≠ i)
      (inForce : (s.engine.regions.at_ j).enabled = true) :
      Region.Apart { new with render := s.freshPass new } (s.engine.regions.at_ j) :=
    let ⟨pixels, roles⟩ := apart_of_judged free unheld enabled j other inForce
    ⟨pixels, roles⟩
  rw [regionsApart_iff, storeRegion_regions]
  refine ⟨fun j k hjk hj hk => ?_, fun j => ?_⟩
  · by_cases first : j = i
    · subst first
      rw [Tab.at_put_self] at hj ⊢
      rw [Tab.at_put_ne _ _ hjk.symm] at hk ⊢
      exact beside hj k hjk.symm hk
    · rw [Tab.at_put_ne _ _ first] at hj ⊢
      by_cases second : k = i
      · subst second
        rw [Tab.at_put_self] at hk ⊢
        exact (beside hk j first hj).symm
      · rw [Tab.at_put_ne _ _ second] at hk ⊢
        exact apart j k hjk hj hk
  · rw [Tab.at_put]
    split
    · exact ⟨formed.headerRows, formed.scroll_pos, formed.scroll_le, freshPass_owns⟩
    · exact form j

theorem applyRegion_regionsApart (entry role x0 y0 x1 y1 : Nat) (enabled : Bool) (header scroll : Nat) (s : State)
    (h : s.RegionsApart) : (applyRegion entry role x0 y0 x1 y1 enabled header scroll s).1.RegionsApart := by
  unfold applyRegion
  split
  · dsimp only
    split
    · exact h
    · rename_i free
      split
      · exact h
      · rename_i unheld
        exact storeRegion_regionsApart h (Region.ofFields_form _ _ _ _ _ _ _ _) (Bool.eq_false_iff.2 free)
          (Bool.eq_false_iff.2 unheld)
  · exact h

/-! ### Hard reset and its end (R156, R178) -/

theorem held_regionsApart (c : ResetConditions) (straps : Straps) (queue : List Instr) :
    (State.held c straps queue).RegionsApart := by
  show (State.held ⟨false, false, false⟩ ⟨0, 0, false⟩ []).RegionsApart
  refine (regionsApart_iff _).2 ⟨fun i j hij hi hj => ⟨?_, ?_⟩, fun i => ⟨?_, ?_, ?_, ?_⟩⟩ <;> decide +revert

/-! ### Events -/

theorem event_regionsApart {f : State → State} (hf : ∀ s, s.RegionsApart → (f s).RegionsApart) {s t : State}
    (h : s.RegionsApart) (e : event f s = .next t) : t.RegionsApart :=
  event_keeps hf (fun _ h => serve_regionsApart h) h e

theorem centreEvent_regionsApart {f : State → State} (hf : ∀ s, s.RegionsApart → (f s).RegionsApart) {s t : State}
    (h : s.RegionsApart) (e : centreEvent f s = .next t) : t.RegionsApart :=
  centreEvent_keeps hf (fun _ _ h => h.congr (by simp)) (fun _ h => serve_regionsApart h) h e

/-- An event that leaves the table as it was, but for the passes its requests start. -/
theorem event_regionsApart_of_regions {f : State → State} (hf : ∀ s, (f s).engine.regions = s.engine.regions)
    {s t : State} (h : s.RegionsApart) (e : event f s = .next t) : t.RegionsApart :=
  event_regionsApart (fun s h => h.congr (hf s)) h e

theorem event_regionsApart_of_surface {f : State → State} (hf : ∀ s, (f s).surface = s.surface) {s t : State}
    (h : s.RegionsApart) (e : event f s = .next t) : t.RegionsApart :=
  event_regionsApart_of_regions (fun s => regions_of_surface (hf s)) h e

theorem centreEvent_regionsApart_of_surface {f : State → State} (hf : ∀ s, (f s).surface = s.surface) {s t : State}
    (h : s.RegionsApart) (e : centreEvent f s = .next t) : t.RegionsApart :=
  centreEvent_regionsApart (fun s h => h.congr (regions_of_surface (hf s))) h e

theorem setPlantLink_regionsApart (s : State) (l : Link) (h : s.RegionsApart) : (setPlantLink l s).RegionsApart :=
  h.congr (regions_of_surface (setPlantLink_surface s l))

theorem decoded_regionsApart {s t : State} {c : PlantCommand} (h : s.RegionsApart) (e : s.decoded c = some t) :
    t.RegionsApart :=
  decoded_keeps setPlantLink_regionsApart (fun _ h => serve_regionsApart h) h e

theorem takeCommand_regionsApart {c : PlantCommand} {rule : CommandRule}
    (hr : ∀ s, s.RegionsApart → (rule s).1.RegionsApart) (s : State) (h : s.RegionsApart) :
    (takeCommand c rule s).RegionsApart :=
  takeCommand_keeps setPlantLink_regionsApart (fun _ h => serve_regionsApart h) (fun _ _ h => h.congr rfl) hr s h

theorem takeCommand_regionsApart_of_surface {c : PlantCommand} {rule : CommandRule}
    (hr : ∀ s, (rule s).1.surface = s.surface) (s : State) (h : s.RegionsApart) : (takeCommand c rule s).RegionsApart :=
  takeCommand_regionsApart (fun s h => h.congr (regions_of_surface (hr s))) s h

theorem takeCommand_regionsApart_of_regions {c : PlantCommand} {rule : CommandRule}
    (hr : ∀ s, (rule s).1.engine.regions = s.engine.regions) (s : State) (h : s.RegionsApart) :
    (takeCommand c rule s).RegionsApart :=
  takeCommand_regionsApart (fun s h => h.congr (hr s)) s h

theorem takeRead_regionsApart {c : PlantCommand} {reply : State → Transaction} (s : State) (h : s.RegionsApart) :
    (takeRead c reply s).RegionsApart :=
  takeRead_keeps setPlantLink_regionsApart (fun _ h => serve_regionsApart h) (fun _ _ h => h.congr rfl) s h

theorem argumentsFollow_regionsApart (code : Byte) (s : State) (h : s.RegionsApart) :
    (argumentsFollow code s).RegionsApart := by
  unfold argumentsFollow
  split
  · exact h
  · split
    · exact (setPlantLink_regionsApart s _ h).congr rfl
    · exact h

theorem takeOrigin_regionsApart (origin : Nat) (s : State) (h : s.RegionsApart) : (takeOrigin origin s).RegionsApart := by
  unfold takeOrigin
  split
  · exact h
  · rename_i decoded
    refine (decoded_regionsApart h decoded).congr ?_
    (repeat' split) <;> rfl

theorem takeReadPixels_regionsApart (s : State) (h : s.RegionsApart) : (takeReadPixels s).RegionsApart := by
  unfold takeReadPixels
  split
  · exact h
  · rename_i decoded
    exact (decoded_regionsApart h decoded).congr rfl

theorem applyGroup_regions (bytes : List Byte) (s : State) : (applyGroup bytes s).engine.regions = s.engine.regions :=
  applyGroup_proj (fun s => s.engine.regions) (fun s p => by simp) s

/-! ### The step -/

/-- Every command but an edge of SCK keeps the regions apart. -/
theorem exec_regionsApart {c : Instr} {s t : State} (hc : ∀ e, c ≠ .commandByte (.edge e)) (h : s.RegionsApart)
    (e : exec c s = .next t) : t.RegionsApart := by
  cases c
  -- hard reset and its end
  case hardReset input =>
    have next := (execHardReset_next input s).symm.trans e
    dsimp only at next
    split at next <;> cases next
    · exact held_regionsApart _ _ _
    · exact h.congr rfl
  case endOfHardReset adr tst xtal gone =>
    have next := (execEndOfHardReset_next adr tst xtal gone s).symm.trans e
    dsimp only at next
    split at next <;> cases next
    · exact serve_regionsApart (h.congr rfl)
    · exact h.congr rfl
  -- inputs and clocks
  case step p => exact centreEvent_regionsApart_of_surface (givePitch_surface p.zone p.moment) h e
  case xstopChange m => exact centreEvent_regionsApart_of_surface (giveXstop_surface m) h e
  case xalertChange m => exact event_regionsApart_of_surface (giveXalert_surface m) h e
  case stallMonitorSecond k =>
    have second (s : State) : (if s.layout.zoneUsed k then monitorSecond k s else s).surface = s.surface := by
      split
      · exact monitorSecond_surface k s
      · rfl
    exact centreEvent_regionsApart_of_surface second h e
  case runClockSecond => exact event_regionsApart_of_surface runClock_surface h e
  case shiftTimerSecond => exact centreEvent_regionsApart_of_surface shiftSecond_surface h e
  case closeCompletion => exact centreEvent_regionsApart_of_surface completeClose_surface h e
  case callSecond only => exact centreEvent_regionsApart_of_surface (callSeconds_surface only) h e
  case lineLinkSecond => exact event_regionsApart_of_surface lineLinkSecond_surface h e
  case plantLinkSecond => exact event_regionsApart_of_surface (fun s => setPlantLink_surface s _) h e
  -- the Composition Engine and the tile chain
  case scrollSecond => exact event_regionsApart_of_surface scrollSecond_surface h e
  case scrollStep => exact event_regionsApart_of_surface scrollStep_surface h e
  case flashToggle => exact event_regionsApart_of_surface toggleFlash_surface h e
  case renderPassComplete entry => exact event_regionsApart (completePass_regionsApart entry) h e
  case startTimerExpiry | presenceReturn => exact event_regionsApart_of_surface (fun s => onTiles_surface s _) h e
  case rampExpiry => exact event_regionsApart_of_surface rampExpires_surface h e
  -- the Line Port
  case addressByte input =>
    cases input with
    | byte b => exact event_regionsApart_of_surface (takeAddress_surface b) h e
    | edge x => exact event_regionsApart_of_surface (lineEdge_surface x) h e
  case lineStatusRead => exact event_regionsApart_of_surface statusRead_surface h e
  case lineFrame bytes bits => exact event_regionsApart_of_surface (endTransaction_surface bytes) h e
  case pull | release | leaderReset | bufferSet | countAdjust | lineShiftStart =>
    exact centreEvent_regionsApart_of_surface (takeFrame_surface (frameRule_surface (by simp))) h e
  case leaderAck | timeMark | keepalive =>
    exact event_regionsApart_of_surface (takeFrame_surface (frameRule_surface (by simp))) h e
  -- framing and reads of the Plant Port
  case csFalling | csRising | unknownCommand | statusFlagByteSent | presenceExtension | callRecordSlot =>
    exact event_regionsApart_of_regions (fun s => by simp) h e
  case commandByte input =>
    cases input with
    | byte code => exact event_regionsApart (argumentsFollow_regionsApart code) h e
    | edge x => exact absurd rfl (hc x)
  case readStatus m | readStation m | readPace m | readLoss m | readSummary m =>
    cases m with
    | taken => exact event_regionsApart takeRead_regionsApart h e
    | firstByte => exact event_regionsApart_of_regions (fun s => by simp) h e
  case readCalls | readHistory => exact event_regionsApart takeRead_regionsApart h e
  case historySlot m | pixelRead m =>
    cases m with
    | begins => exact event_regionsApart_of_regions (fun s => by simp) h e
    | ends => exact event_regionsApart_of_regions (fun s => by simp) h e
  -- commands of the Plant Port to the centre
  case stagePlan l k o n b =>
    exact event_regionsApart (takeCommand_regionsApart_of_surface (applyStagePlan_surface l k o n b)) h e
  case commitPlan => exact centreEvent_regionsApart (takeCommand_regionsApart_of_surface (applyCommit_surface _)) h e
  case plantShiftStart =>
    exact centreEvent_regionsApart (takeCommand_regionsApart_of_surface (applyShiftStart_surface _ _)) h e
  case shiftClose => exact centreEvent_regionsApart (takeCommand_regionsApart_of_surface applyShiftClose_surface) h e
  case clearCall => exact centreEvent_regionsApart (takeCommand_regionsApart_of_surface (applyClearCall_surface _ _)) h e
  case writeLayoutZone =>
    exact centreEvent_regionsApart (takeCommand_regionsApart_of_surface (applyLayoutZone_surface _ _ _ _ _ _ _ _)) h e
  case writeLayoutStation =>
    exact centreEvent_regionsApart (takeCommand_regionsApart_of_surface (applyLayoutStation_surface _ _ _)) h e
  case writeLinkSettings a b c =>
    exact centreEvent_regionsApart (takeCommand_regionsApart_of_surface (applyLinkSettings_surface a b c)) h e
  case rewindHistory | discardPlan | ackCall | writePolicy | setIntensity | restartTiles =>
    exact event_regionsApart (takeCommand_regionsApart_of_regions fun s => by simp) h e
  -- the Frame Store and the Layout Table
  case setWindow | setCursor | setAddressControl | setColourMode | setMask | setMark | returnToMark =>
    exact event_regionsApart (takeCommand_regionsApart_of_regions fun s => by simp) h e
  case writePixels => exact event_regionsApart (takeOrigin_regionsApart _) h e
  case pixelGroup bytes => exact event_regionsApart_of_regions (applyGroup_regions bytes) h e
  case readPixels => exact event_regionsApart takeReadPixels_regionsApart h e
  case writeRegion => exact event_regionsApart (takeCommand_regionsApart (applyRegion_regionsApart _ _ _ _ _ _ _ _ _)) h e

/-- Settles O7: WRITE REGION stores what its tests leave apart (`storeRegion_regionsApart`), passes start and go on in
regions that own their pixels (`serve_regionsApart`, `State.RegionsApart.renderPut`), and no other command reaches the
Layout Table (`exec_regionsApart`). -/
theorem stepKeepsRegionsApart : Obligations.StepKeepsRegionsApart := fun _ _ h e =>
  step_keeps_of_rows (I := State.RegionsApart) (fun _ _ h => h.congr rfl) (fun _ _ h => h.congr rfl) tick_regionsApart
    exec_regionsApart h e

end Sys2Proof.Machine
end

section
/-! The tick of the board: each pass in flight by one pixel, the tile chain by one, and the Frame Store they leave. -/

namespace Sys2Proof.Machine

/-! ### A region's places in the frame (R143, R156, R160) -/

/-- Each pixel of a region in the frame lies in its rectangle. -/
theorem Region.address_held {r : Region} (h : r.rect.InFrame) {n : Nat} (hn : n < r.area) :
    r.rect.holdsAddress (r.address n) = true := by
  obtain ⟨columns, right, rows, bottom⟩ := h
  have width : 0 < r.rect.width := by unfold Rect.width; omega
  have column : n % r.rect.width < r.rect.width := Nat.mod_lt n width
  have row : n / r.rect.width < r.rect.height := Nat.div_lt_of_lt_mul hn
  have widths : r.rect.width = r.rect.x1 + 1 - r.rect.x0 := rfl
  have heights : r.rect.height = r.rect.y1 + 1 - r.rect.y0 := rfl
  refine (Rect.holds_iff _ _ _).2 ?_
  unfold Region.address pixelAddress
  generalize n % r.rect.width = x at column
  generalize n / r.rect.width = y at row
  omega

/-- Rectangles that share no pixel hold no address in common (R157). -/
theorem Rect.not_held_of_apart {r q : Rect} (apart : r.meets q = false) {a : Nat} (held : r.holdsAddress a = true) :
    q.holdsAddress a = false := by
  rw [Bool.eq_false_iff]
  intro held'
  obtain ⟨⟨left, right⟩, top, bottom⟩ := (Rect.holds_iff _ _ _).1 held
  obtain ⟨⟨left', right'⟩, top', bottom'⟩ := (Rect.holds_iff _ _ _).1 held'
  refine Bool.eq_false_iff.1 apart ?_
  simp only [Rect.meets, Bool.and_eq_true, decide_eq_true_eq]
  omega

/-! ### One pixel of a pass (R160) -/

/-- The entry once its pass in flight, where one is, has drawn its next pixel, where one is left. -/
def Region.advanced (r : Region) : Region :=
  match r.render with
  | .idle => r
  | .busy c n again => { r with render := .busy c (if n < r.area then n + 1 else n) again }

/-- The pixels once the entry's pass has drawn its next one. -/
def Region.drawn (r : Region) (m : Memory) : Memory :=
  match r.render with
  | .idle => m
  | .busy c n _ => if n < r.area then r.drawPixel c n m else m

/-- The entry's pass draws the pixel of an address next. -/
def Region.Draws (r : Region) (a : Nat) : Prop :=
  ∃ c n again, r.render = .busy c n again ∧ n < r.area ∧ a = r.address n

theorem Region.advanced_idle {r : Region} (h : r.render = .idle) : r.advanced = r := by
  simp only [Region.advanced, h]

theorem Region.advanced_busy {r : Region} {c : Capture} {n : Nat} {again : Bool} (h : r.render = .busy c n again) :
    r.advanced = { r with render := .busy c (if n < r.area then n + 1 else n) again } := by
  simp only [Region.advanced, h]

/-- Drawing moves the render state alone. -/
theorem Region.advanced_render (r : Region) : { r.advanced with render := r.render } = r := by
  unfold Region.advanced
  split
  · rfl
  · rfl

theorem Region.drawn_idle {r : Region} (h : r.render = .idle) (m : Memory) : r.drawn m = m := by
  simp only [Region.drawn, h]

theorem Region.drawn_busy {r : Region} {c : Capture} {n : Nat} {again : Bool} (h : r.render = .busy c n again)
    (m : Memory) : r.drawn m = if n < r.area then r.drawPixel c n m else m := by
  simp only [Region.drawn, h]

theorem put_at_self {α : Type} {n : Nat} (v : Tab α n) (i : Fin n) : v.put i (v.at_ i) = v := by
  refine Tab.ext_at fun j => ?_
  rw [Tab.at_put]
  split
  · rename_i same
    rw [same]
  · rfl

theorem drawNext_eq (s : State) (i : Fin 8) :
    drawNext s i =
      { s with
        frame := { s.frame with pixels := (s.engine.regions.at_ i).drawn s.frame.pixels }
        engine := { s.engine with regions := s.engine.regions.put i (s.engine.regions.at_ i).advanced } } := by
  unfold drawNext
  dsimp only
  split
  · rename_i idle
    rw [Region.drawn_idle idle, Region.advanced_idle idle, put_at_self]
  · rename_i busy
    rw [Region.drawn_busy busy, Region.advanced_busy busy]
    split
    · rfl
    · rw [← busy, put_at_self]

/-- Passes drawn one after another, each once: each region's is the one that stood. -/
theorem foldl_drawNext {l : List (Fin 8)} (once : l.Nodup) (s : State) :
    l.foldl drawNext s =
      { s with
        frame := { s.frame with
          pixels := l.foldl (fun m i => (s.engine.regions.at_ i).drawn m) s.frame.pixels }
        engine := { s.engine with
          regions := .tab fun i =>
            if i ∈ l then (s.engine.regions.at_ i).advanced else s.engine.regions.at_ i } } := by
  induction l generalizing s with
  | nil =>
    have same : (Tab.tab fun i => s.engine.regions.at_ i) = s.engine.regions := Tab.ext_at fun i => Tab.at_tab _ i
    simp [same]
  | cons i l ih =>
    obtain ⟨fresh, once⟩ := List.nodup_cons.1 once
    have others (j : Fin 8) (hj : j ∈ l) : j ≠ i := fun same => fresh (same ▸ hj)
    rw [List.foldl_cons, ih once, drawNext_eq]
    dsimp only
    congr 1
    · refine congrArg (fun pixels => { s.frame with pixels := pixels }) ?_
      rw [List.foldl_cons]
      exact List.foldl_ext _ _ _ fun m j hj => by rw [Tab.at_put_ne _ _ (others j hj)]
    · refine congrArg (fun regions => { s.engine with regions := regions }) ?_
      refine Tab.ext_at fun j => ?_
      rw [Tab.at_tab, Tab.at_tab]
      by_cases same : j = i
      · subst same
        simp [fresh]
      · simp [same]

/-- The tick: every pass in flight by its next pixel, and the chain by one (R160, R171). -/
theorem tick_eq {s : State} (running : s.inReset = false) :
    tick s =
      { s with
        frame := { s.frame with
          pixels := (List.finRange 8).foldl (fun m i => (s.engine.regions.at_ i).drawn m) s.frame.pixels }
        engine := { s.engine with regions := .tab fun i => (s.engine.regions.at_ i).advanced }
        tiles := s.tiles.sendNext } := by
  rw [tick, if_neg (by rw [running]; decide), foldl_drawNext (List.nodup_finRange 8)]
  simp only [List.mem_finRange, if_true]
  rfl

/-! ### The Frame Store after passes have drawn -/

/-- An address that is not the pass's next reads as before. -/
theorem Region.read_drawn_ne {r : Region} {a : Nat} (other : ¬r.Draws a) (m : Memory) : (r.drawn m).read a = m.read a := by
  unfold Region.drawn
  split
  · rfl
  · rename_i c n again busy
    split
    · rename_i left
      exact Memory.read_write_ne _ _ fun same => other ⟨c, n, again, busy, left, same⟩
    · rfl

theorem Region.wf_drawn {r : Region} (inFrame : r.rect.InFrame) {m : Memory} (h : m.wf = true) : (r.drawn m).wf = true := by
  unfold Region.drawn
  split
  · exact h
  · split
    · rename_i left
      exact Memory.wf_write _ h (Region.address_lt inFrame left)
    · exact h

theorem read_foldl_drawn_ne (regions : Fin 8 → Region) {a : Nat} (l : List (Fin 8))
    (others : ∀ i ∈ l, ¬(regions i).Draws a) (m : Memory) :
    (l.foldl (fun m i => (regions i).drawn m) m).read a = m.read a := by
  induction l generalizing m with
  | nil => rfl
  | cons i l ih =>
    obtain ⟨first, rest⟩ := List.forall_mem_cons.1 others
    rw [List.foldl_cons, ih rest, Region.read_drawn_ne first]

/-- The pixel a pass draws reads as its picture has it, where no other pass draws the same place. -/
theorem read_foldl_drawn (regions : Fin 8 → Region) (inFrame : ∀ i, (regions i).rect.InFrame) {i : Fin 8} {c : Capture}
    {n : Nat} {again : Bool} (busy : (regions i).render = .busy c n again) (left : n < (regions i).area)
    (alone : ∀ j, j ≠ i → ¬(regions j).Draws ((regions i).address n)) {l : List (Fin 8)} (mem : i ∈ l)
    (once : l.Nodup) {m : Memory} (h : m.wf = true) :
    (l.foldl (fun m i => (regions i).drawn m) m).read ((regions i).address n) =
      (regions i).pictureAt c (n % (regions i).rect.width) (n / (regions i).rect.width) := by
  induction l generalizing m with
  | nil => cases mem
  | cons j l ih =>
    obtain ⟨fresh, once⟩ := List.nodup_cons.1 once
    rw [List.foldl_cons]
    rcases List.mem_cons.1 mem with rfl | later
    · have after := read_foldl_drawn_ne regions l (fun k hk => alone k fun same => fresh (same ▸ hk))
        ((regions i).drawn m)
      rw [after, Region.drawn_busy busy, if_pos left]
      exact Memory.read_write_self h _ _
    · exact ih later once (Region.wf_drawn (inFrame j) h)

/-- Two passes in flight draw no place in common (R157, R159). -/
theorem State.RegionsApart.not_draws {s : State} (h : s.RegionsApart) (form : s.FrameForm) {i j : Fin 8} (other : j ≠ i)
    {n : Nat} (busy : (s.engine.regions.at_ i).render ≠ .idle) (left : n < (s.engine.regions.at_ i).area) :
    ¬(s.engine.regions.at_ j).Draws ((s.engine.regions.at_ i).address n) := by
  rintro ⟨c, k, again, busy', left', same⟩
  obtain ⟨apart, passes⟩ := (regionsApart_iff s).1 h
  have inForce (k : Fin 8) (pass : (s.engine.regions.at_ k).render ≠ .idle) :
      (s.engine.regions.at_ k).enabled = true :=
    (Bool.and_eq_true_iff.1 ((passes k).pass pass)).1
  have between := (apart j i other (inForce j (by rw [busy']; nofun)) (inForce i busy)).pixels
  have held := Rect.not_held_of_apart between (Region.address_held (form.placed.regions j) left')
  rw [← same, Region.address_held (form.placed.regions i) left] at held
  cases held

/-! ### The chain's pixel (R171) -/

theorem sendNext_portion (d : TileDriver) :
    { d.sendNext with
      portion := { d.sendNext.portion with sent := d.portion.sent, levels := d.portion.levels } } = d := by
  unfold TileDriver.sendNext
  dsimp only
  split <;> rfl

/-- The next pixel of the portion is sent at its channel values times the intensity, dark where it is not lit. -/
theorem sendNext_sends {d : TileDriver} (left : d.portion.sent < 256) :
    d.sendNext.portion.sent = d.portion.sent + 1 ∧
      d.sendNext.portion.levels =
        if d.portion.lit = true then
          (d.portion.pixels.read (tileAddress d.portion.tile d.portion.sent)).drive d.portion.intensity
        else ⟨0, 0, 0⟩ := by
  rw [TileDriver.sendNext, if_pos left]
  exact ⟨rfl, rfl⟩

theorem sendNext_done {d : TileDriver} (done : 256 ≤ d.portion.sent) : d.sendNext = d :=
  if_neg (by omega)

/-- Settles O2: the tick is `tick_eq`, the pixel drawn reads by `read_foldl_drawn`, and the chain's is
`sendNext_sends`. -/
theorem emptyQueueDrawsAndSendsOnePixel : Obligations.EmptyQueueDrawsAndSendsOnePixel := by
  intro s empty running width area place p
  have next : step s = .next (tick s) := by rw [step, empty]
  rw [tick_eq running] at next
  refine ⟨_, next, rfl, rfl, ⟨rfl, fun i => ?render⟩, fun i c n again busy => ?busy, fun i idle => ?idle,
    fun form apart i c n again busy => ?pixel, fun a others => ?others, sendNext_portion _, sendNext_sends, sendNext_done⟩
  case render =>
    dsimp only
    rw [Tab.at_tab, Region.advanced_render]
  case busy =>
    dsimp only
    rw [Tab.at_tab, Region.advanced_busy busy]
    rfl
  case idle =>
    dsimp only
    rw [Tab.at_tab, Region.advanced_idle idle, idle]
  case pixel =>
    intro r left
    exact read_foldl_drawn s.engine.regions.at_ form.placed.regions busy left
      (fun j other => apart.not_draws form other (by rw [busy]; nofun) left) (List.mem_finRange i)
      (List.nodup_finRange 8) form.placed.store.pixels
  case others =>
    refine read_foldl_drawn_ne s.engine.regions.at_ _ (fun i _ => ?_) _
    rintro ⟨c, n, again, busy, left, same⟩
    exact others i c n again busy left same

end Sys2Proof.Machine
end

section
/-! The completion of a pass: the pixels it still draws, and what its entry and the overflow flag then hold. -/

namespace Sys2Proof.Machine

/-! ### Pixels by number and by position (R160) -/

/-- The number of a region's pixel at a position of the frame, in rows from the top, each row from the left. -/
def Region.number (r : Region) (x y : Nat) : Nat := (y - r.rect.y0) * r.rect.width + (x - r.rect.x0)

theorem Rect.column_lt {r : Rect} {x y : Nat} (held : r.holds x y = true) : x - r.x0 < r.width := by
  obtain ⟨⟨left, right⟩, -⟩ := (Rect.holds_iff _ _ _).1 held
  unfold Rect.width
  omega

theorem Rect.row_lt {r : Rect} {x y : Nat} (held : r.holds x y = true) : y - r.y0 < r.height := by
  obtain ⟨-, top, bottom⟩ := (Rect.holds_iff _ _ _).1 held
  unfold Rect.height
  omega

section
variable {r : Region} {x y : Nat}

theorem Region.number_mod (held : r.rect.holds x y = true) : r.number x y % r.rect.width = x - r.rect.x0 := by
  rw [Region.number, Nat.mul_comm, Nat.mul_add_mod, Nat.mod_eq_of_lt (Rect.column_lt held)]

theorem Region.number_div (held : r.rect.holds x y = true) : r.number x y / r.rect.width = y - r.rect.y0 := by
  have column := Rect.column_lt held
  rw [Region.number, Nat.mul_comm, Nat.mul_add_div (by omega), Nat.div_eq_of_lt column, Nat.add_zero]

theorem Region.number_lt (held : r.rect.holds x y = true) : r.number x y < r.area := by
  have column := Rect.column_lt held
  have row := Rect.row_lt held
  calc r.number x y < (y - r.rect.y0) * r.rect.width + r.rect.width := Nat.add_lt_add_left column _
    _ = (y - r.rect.y0 + 1) * r.rect.width := (Nat.succ_mul _ _).symm
    _ ≤ r.rect.height * r.rect.width := Nat.mul_le_mul_right _ row
    _ = r.area := Nat.mul_comm _ _

theorem Region.address_number (held : r.rect.holds x y = true) : r.address (r.number x y) = 160 * y + x := by
  obtain ⟨⟨left, -⟩, top, -⟩ := (Rect.holds_iff _ _ _).1 held
  rw [Region.address, Region.number_mod held, Region.number_div held, pixelAddress]
  omega

end

theorem holdsAddress_pixel (r : Rect) {x y : Nat} (hx : x < 160) : r.holdsAddress (160 * y + x) = r.holds x y := by
  have column : (160 * y + x) % 160 = x := by omega
  have row : (160 * y + x) / 160 = y := by omega
  rw [Rect.holdsAddress, column, row]

/-- No two pixels of a region in the frame share an address. -/
theorem Region.address_inj {r : Region} (h : r.rect.InFrame) {m n : Nat}
    (same : r.address m = r.address n) : m = n := by
  obtain ⟨columns, right, -⟩ := h
  have width : 0 < r.rect.width := by unfold Rect.width; omega
  have widths : r.rect.width = r.rect.x1 + 1 - r.rect.x0 := rfl
  have column := Nat.mod_lt m width
  have column' := Nat.mod_lt n width
  unfold Region.address pixelAddress at same
  rw [← Nat.div_add_mod m r.rect.width, ← Nat.div_add_mod n r.rect.width]
  generalize m % r.rect.width = x at *
  generalize n % r.rect.width = x' at *
  generalize m / r.rect.width = y at *
  generalize n / r.rect.width = y' at *
  have columns_eq : x = x' := by omega
  have rows_eq : y = y' := by omega
  rw [columns_eq, rows_eq]

/-! ### A run of a pass (R160) -/

/-- A pixel of the run reads as the picture has it. -/
theorem read_drawFrom {r : Region} (inFrame : r.rect.InFrame) (c : Capture) {j n i : Nat} {m : Memory}
    (h : m.wf = true) (within : i + n ≤ r.area) (from_ : i ≤ j) (upto : j < i + n) :
    (r.drawFrom c i n m).read (r.address j) = r.pictureAt c (j % r.rect.width) (j / r.rect.width) := by
  induction n generalizing i m with
  | zero => omega
  | succ n ih =>
    rw [Region.drawFrom]
    by_cases first : j = i
    · subst first
      rw [Memory.read_drawFrom_ne, Region.drawPixel, Memory.read_write_self h]
      intro k after before same
      have := Region.address_inj inFrame same
      omega
    · exact ih (Memory.wf_write _ h (Region.address_lt inFrame (by omega))) (by omega) (by omega) (by omega)

/-- A pass run to its end: its rectangle holds the picture from the pixel reached on, the rest is as before. -/
theorem read_drawn_rest {r : Region} (inFrame : r.rect.InFrame) (c : Capture) (n : Nat) {m : Memory} (h : m.wf = true)
    {x y : Nat} (held : r.rect.holds x y = true) :
    (r.drawFrom c n (r.area - n) m).read (160 * y + x) =
      if n ≤ r.number x y then r.pictureAt c (x - r.rect.x0) (y - r.rect.y0) else m.read (160 * y + x) := by
  have last := Region.number_lt held
  rw [← Region.address_number held]
  split
  · rw [read_drawFrom inFrame c h (by omega) (by omega) (by omega), Region.number_mod held, Region.number_div held]
  · refine Memory.read_drawFrom_ne _ _ _ _ _ _ fun j from_ upto same => ?_
    have := Region.address_inj inFrame same
    omega

theorem read_drawn_outside {r : Region} (inFrame : r.rect.InFrame) (c : Capture) (n : Nat) (m : Memory) {x y : Nat}
    (hx : x < 160) (outside : r.rect.holds x y = false) :
    (r.drawFrom c n (r.area - n) m).read (160 * y + x) = m.read (160 * y + x) := by
  refine Memory.read_drawFrom_ne _ _ _ _ _ _ fun j from_ upto same => ?_
  have held := Region.address_held inFrame (n := j) (by omega)
  rw [← same, holdsAddress_pixel _ hx, outside] at held
  cases held

/-! ### The completion (R159, R160, R165) -/

theorem completePass_idle {s : State} {i : Fin 8} (idle : (s.engine.regions.at_ i).render = .idle) :
    completePass i s = s := by
  simp only [completePass, idle]

/-- No pass captures the pixels or the overflow flag (R160). -/
theorem startedPass_drawn (s : State) (m : Memory) (overflow : Bool) (r : Region) :
    State.startedPass
      { s with frame := { s.frame with pixels := m }, engine := { s.engine with overflow := overflow } } r =
      s.startedPass r := by
  unfold State.startedPass
  cases r.role <;> rfl

/-- The state after the completion of entry `i`'s pass: the rest of its pixels drawn, the overflow flag, and the pending
pass or IDLE. -/
def State.passCompleted (s : State) (i : Fin 8) (c : Capture) (n : Nat) (again : Bool) : State :=
  let r := s.engine.regions.at_ i
  { s with
    frame := { s.frame with pixels := r.drawFrom c n (r.area - n) s.frame.pixels }
    engine := { s.engine with
      overflow := (r.overflows c).getD s.engine.overflow
      regions := s.engine.regions.put i { r with render := if again then s.startedPass r else .idle } } }

theorem completePass_busy {s : State} {i : Fin 8} {c : Capture} {n : Nat} {again : Bool}
    (busy : (s.engine.regions.at_ i).render = .busy c n again) :
    completePass i s = s.passCompleted i c n again := by
  simp only [completePass, busy, startedPass_drawn]
  rfl

/-- R165's overflow: not every lamp has its whole cell. -/
theorem lampsDrawn_lt_iff (w n : Nat) : lampsDrawn w n < n ↔ w / max 2 (w / n) < n := by
  unfold lampsDrawn cellWidth
  omega

/-- Settles O57: with a pass in flight the event leaves `passCompleted` (`completePass_busy`), whose pixels read by
`read_drawn_rest` and `read_drawn_outside`. -/
theorem passCompletionLeavesPictureAndServesPending : Obligations.PassCompletionLeavesPictureAndServesPending := by
  intro i s running quiet canonical r inFrame
  refine ⟨fun idle => ?idle, fun c n again busy => ?busy⟩
  case idle => exact event_unchanged running quiet (completePass_idle idle)
  case busy =>
    have next : exec (.renderPassComplete i) s = .next (s.passCompleted i c n again) :=
      event_gives (f := completePass i) running quiet (completePass_busy busy)
    have entry : (s.passCompleted i c n again).engine.regions.at_ i =
        { r with render := if again then s.startedPass r else .idle } := Tab.at_put_self _ _ _
    refine ⟨_, next, fun x y held => read_drawn_rest inFrame c n canonical held,
      fun x y hx outside => read_drawn_outside inFrame c n _ hx outside, ?again, ?pending,
      fun j other => Tab.at_put_ne _ _ other, ?overflow, rfl, rfl, rfl⟩
    case again =>
      rintro rfl
      exact entry
    case pending =>
      rintro rfl fresh capture
      have captured : s.captureFor r.role = some fresh := by
        rw [← capture]
        cases r.role <;> rfl
      rw [entry, if_pos rfl, startedPass_of_capture captured]
    case overflow =>
      cases c with
      | stations lamps flashOn => exact decide_eq_decide.2 (lampsDrawn_lt_iff _ _)
      | pace | ticker | clock | banner => rfl

end Sys2Proof.Machine
end

section
/-! WRITE REGION: how it is judged, and what a write that is taken leaves (R157, R158). -/

namespace Sys2Proof.Machine

/-! ### Roles and codes (R156) -/

theorem Role.isEngine_iff (r : Role) : r.isEngine = true ↔ r ≠ .message := by cases r <;> decide

theorem Region.owns_iff (r : Region) : r.owns = true ↔ r.enabled = true ∧ r.role ≠ .message := by
  rw [Region.owns, Bool.and_eq_true, Role.isEngine_iff]

theorem Role.ofCode_eq (n : Nat) :
    Role.ofCode n = [Role.pace, .stations, .ticker, .clock, .banner, .message][n]? := by
  match n with
  | 0 | 1 | 2 | 3 | 4 | 5 | _ + 6 => rfl

theorem Role.ofCode_eq_none {n : Nat} (h : 5 < n) : Role.ofCode n = none := by
  rw [Role.ofCode_eq]
  exact List.getElem?_eq_none h

/-- A pass of an engine role captures something (R160). -/
theorem exists_capture (s : State) {role : Role} (engine : role ≠ .message) : ∃ c, s.captureFor role = some c := by
  cases role with
  | message => exact absurd rfl engine
  | pace | stations | ticker | clock | banner => exact ⟨_, rfl⟩

/-! ### The tests (R157) -/

theorem Engine.otherInForce_iff (e : Engine) (i : Fin 8) (p : Region → Bool) :
    e.otherInForce i p = true ↔
      ∃ j, j ≠ i ∧ (e.regions.at_ j).enabled = true ∧ p (e.regions.at_ j) = true := by
  simp [Engine.otherInForce, and_assoc]

theorem Engine.overlapped_iff (e : Engine) (i : Fin 8) (r : Region) :
    e.overlapped i r = true ↔
      r.enabled = true ∧ ∃ j, j ≠ i ∧ (e.regions.at_ j).enabled = true ∧
        r.rect.x0 ≤ (e.regions.at_ j).rect.x1 ∧ (e.regions.at_ j).rect.x0 ≤ r.rect.x1 ∧
        r.rect.y0 ≤ (e.regions.at_ j).rect.y1 ∧ (e.regions.at_ j).rect.y0 ≤ r.rect.y1 := by
  simp only [Engine.overlapped, Bool.and_eq_true, Engine.otherInForce_iff, Rect.meets, decide_eq_true_eq, and_assoc]

theorem Engine.roleHeld_iff (e : Engine) (i : Fin 8) (r : Region) :
    e.roleHeld i r = true ↔
      r.enabled = true ∧ r.role ≠ .message ∧
        ∃ j, j ≠ i ∧ (e.regions.at_ j).enabled = true ∧ (e.regions.at_ j).role = r.role := by
  simp only [Engine.roleHeld, Bool.and_eq_true, Engine.otherInForce_iff, Role.isEngine_iff, decide_eq_true_eq, and_assoc]

theorem flagOn_iff (b : Byte) : flagOn b = true ↔ b ≠ 0 := decide_eq_true_iff

section
variable {entry role x0 y0 x1 y1 : Nat} {enabled : Bool} {header scroll : Nat} (s : State)

/-- A code out of range is refused before any test (R157 step 1). -/
theorem applyRegion_range (beyond : 7 < entry ∨ 5 < role) :
    applyRegion entry role x0 y0 x1 y1 enabled header scroll s = (s, .range) := by
  unfold applyRegion
  rcases beyond with beyond | beyond
  · rw [index_of_ge beyond]
  · rw [Role.ofCode_eq_none beyond]
    cases index 8 entry <;> rfl

/-- With both codes in range the overlap test comes first and the role test next (R157 steps 3 and 4). -/
theorem applyRegion_judged {i : Fin 8} {ro : Role} (known : i.val = entry) (coded : Role.ofCode role = some ro) :
    applyRegion entry role x0 y0 x1 y1 enabled header scroll s =
      let new := Region.ofFields ro x0 y0 x1 y1 enabled header scroll
      if s.engine.overlapped i new then (s, .overlap)
      else if s.engine.roleHeld i new then (s, .invalid)
      else (storeRegion i new s, .ok) := by
  unfold applyRegion
  rw [index_of_lt known, coded]

end

/-! ### What a write leaves (R158) -/

section
variable {i : Fin 8} {new : Region} {s : State}

/-- Pixels that the entry owned and owns no longer turn black, every other reads as before (R158 steps 1 and 3). -/
theorem storeRegion_read (canonical : s.frame.pixels.wf = true) (a : Nat) :
    (storeRegion i new s).frame.pixels.read a =
      let old := s.engine.regions.at_ i
      if ((old.enabled = true ∧ old.role ≠ .message) ∧ old.rect.holds (a % 160) (a / 160) = true) ∧
          ¬((new.enabled = true ∧ new.role ≠ .message) ∧ new.rect.holds (a % 160) (a / 160) = true) then .black
      else s.frame.pixels.read a := by
  refine (Memory.read_blacken canonical _ a).trans (if_congr ?_ rfl rfl)
  rw [leaves, Bool.and_eq_true, Bool.and_eq_true, Bool.not_eq_true', ← Bool.not_eq_true, Bool.and_eq_true,
    Region.owns_iff, Region.owns_iff]
  rfl

theorem storeRegion_entry : (storeRegion i new s).engine.regions.at_ i = { new with render := s.freshPass new } := by
  rw [storeRegion_regions, Tab.at_put_self]

theorem storeRegion_other {j : Fin 8} (other : j ≠ i) :
    (storeRegion i new s).engine.regions.at_ j = s.engine.regions.at_ j := by
  rw [storeRegion_regions, Tab.at_put_ne _ _ other]

end

theorem freshPass_unowned (s : State) {r : Region} (h : ¬(r.enabled = true ∧ r.role ≠ .message)) : s.freshPass r = .idle :=
  if_neg (mt r.owns_iff.1 h)

theorem freshPass_owned (s : State) {r : Region} (h : r.enabled = true ∧ r.role ≠ .message) :
    ∃ c, s.captureFor r.role = some c ∧ s.freshPass r = .busy c 0 false := by
  obtain ⟨c, capture⟩ := exists_capture s h.2
  exact ⟨c, capture, (if_pos (r.owns_iff.2 h)).trans (startedPass_of_capture capture)⟩

/-- Settles O56: the tests are `applyRegion_range` and `applyRegion_judged`, and a write taken leaves `storeRegion`, whose
entry, pixels and role state are read off by the lemmas above. -/
theorem regionWriteIsJudgedAndApplied : Obligations.RegionWriteIsJudgedAndApplied := by
  intro en ro x0 y0 x1 y1 fl hd sc s running quiet canonical h c refused
  have answered {r : PlantResult} (applied : applyRegion en.toNat ro.toNat x0.toNat y0.toNat x1.toNat y1.toNat (flagOn fl)
      hd.toNat sc.toNat s = (s, r)) : refused r := commandEvent_onFrame (g := id) running quiet h applied
  refine ⟨fun beyond => answered (applyRegion_range s beyond), ?_⟩
  intro i role known coded old rect others overlap held owns oldOwns
  have judged := applyRegion_judged (x0 := x0.toNat) (y0 := y0.toNat) (x1 := x1.toNat) (y1 := y1.toNat)
    (enabled := flagOn fl) (header := hd.toNat) (scroll := sc.toNat) s known ((Role.ofCode_eq _).trans coded)
  dsimp only at judged
  generalize newEq : Region.ofFields role x0.toNat y0.toNat x1.toNat y1.toNat (flagOn fl) hd.toNat sc.toNat = new at judged
  have newRole : new.role = role := by rw [← newEq]; rfl
  have newRect : new.rect = rect := by rw [← newEq]; rfl
  have newEnabled : new.enabled = true ↔ fl ≠ 0 := by rw [← newEq]; exact flagOn_iff fl
  have overlaps : s.engine.overlapped i new = true ↔ overlap := by
    rw [Engine.overlapped_iff, newEnabled, newRect]
  have holds : s.engine.roleHeld i new = true ↔ held := by
    rw [Engine.roleHeld_iff, newEnabled, newRole]
  have owned : new.enabled = true ∧ new.role ≠ .message ↔ owns := by
    rw [newEnabled, newRole]
  refine ⟨fun meets => ?overlap, fun free taken => ?invalid, fun free unheld => ?stored⟩
  case overlap => exact answered (judged.trans (if_pos (overlaps.2 meets)))
  case invalid => exact answered (judged.trans ((if_neg (mt overlaps.1 free)).trans (if_pos (holds.2 taken))))
  case stored =>
    rw [if_neg (mt overlaps.1 free), if_neg (mt holds.1 unheld)] at judged
    have next : exec c s = .next (setTransaction .ignoring (setPlantResult .ok (storeRegion i new s))) :=
      event_gives running quiet ((takeCommand_arguments h _).trans (by rw [judged]))
    refine ⟨_, next, rfl, ?entry, fun idle => ?idle, fun starts => ?pass, fun j other => storeRegion_other other,
      fun a => ?pixels, ⟨?offset, ?count⟩, ?overflow, rfl, rfl, ?rest⟩
    case entry =>
      show { (storeRegion i new s).engine.regions.at_ i with render := .idle } = _
      rw [storeRegion_entry, ← newEq]
      rfl
    case idle =>
      exact (congrArg Region.render storeRegion_entry).trans (freshPass_unowned s (mt owned.1 idle))
    case pass =>
      obtain ⟨capture, captured, fresh⟩ := freshPass_owned s (owned.2 starts)
      exact ⟨capture, newRole ▸ captured, (congrArg Region.render storeRegion_entry).trans fresh⟩
    case pixels =>
      refine (storeRegion_read canonical a).trans (if_congr ?_ rfl rfl)
      rw [owned, newRect]
    case offset | count => exact if_congr (by rw [newRole, or_comm]) rfl rfl
    case rest => apply State.ext <;> simp
    case overflow => exact if_congr (by rw [newRole, newEnabled]) rfl rfl

end Sys2Proof.Machine
end

section
/-! The ticker's scroll and the flash phase (R162, R164, R165, R167). -/

namespace Sys2Proof.Machine

/-! ### The scroll (R167) -/

/-- While the calls fit, or no TICKER is in force, the scroll stands. -/
theorem scroll_unchanged {s : State}
    (fits : ∀ r, s.engine.inForce .ticker = some r → s.callList.calls.length ≤ r.scrollLines) :
    scrollSecond s = s ∧ scrollStep s = s := by
  unfold scrollSecond scrollStep
  split
  · exact ⟨rfl, rfl⟩
  · rename_i r ticker
    have fit := fits r ticker
    exact ⟨if_neg (by omega), if_neg (by omega)⟩

section
variable {s : State} {r : Region}

/-- A scroll second while the calls do not fit. -/
theorem scrollSecond_counts (ticker : s.engine.inForce .ticker = some r)
    (long : r.scrollLines < s.callList.calls.length) :
    scrollSecond s =
      s.onEngine fun e => { e with scrollCount := min r.scrollInterval (e.scrollCount + 1) } := by
  simp only [scrollSecond, ticker, if_pos long]

/-- Before the interval is reached there is no step. -/
theorem scrollStep_early (ticker : s.engine.inForce .ticker = some r) (early : s.engine.scrollCount < r.scrollInterval) :
    scrollStep s = s := by
  simp only [scrollStep, ticker]
  exact if_neg (by omega)

/-- The count at 0 and the offset moved on toward `last`, no role requested yet. -/
def State.scrolled (s : State) (last : Nat) : State :=
  s.onEngine fun e => { e with scrollCount := 0, scrollOffset := steppedOffset e.scrollOffset last }

/-- The step at the interval: the count returns to 0, the offset moves on, and TICKER is requested. -/
theorem scrollStep_steps (ticker : s.engine.inForce .ticker = some r)
    (long : r.scrollLines < s.callList.calls.length) (reached : r.scrollInterval ≤ s.engine.scrollCount) :
    scrollStep s = (s.scrolled (s.callList.calls.length - r.scrollLines)).raise .ticker := by
  simp only [scrollStep, ticker, if_pos (And.intro long reached)]
  rfl

end

/-! ### The flash phase (R162) -/

theorem bannerMessage_safetyStop_iff (s : State) : s.bannerMessage = some .safetyStop ↔ s.tracker.xstop.taken = true := by
  unfold State.bannerMessage
  split
  · rename_i stop
    exact iff_of_true rfl stop
  · rename_i clear
    refine iff_of_false ?_ clear
    (repeat' split) <;> nofun

/-- A lamp flashes that the STATIONS region in force draws: the first lamps whose cells fit (R165). -/
theorem lampFlashes_eq (s : State) :
    s.lampFlashes =
      match s.engine.inForce .stations with
      | none => false
      | some r =>
        let w := r.rect.width
        let k := s.layout.enabledStations.length
        ((s.layout.enabledStations.map s.lamp).take (min k (w / max 2 (w / k)))).any fun l => l.flashing := by
  unfold State.lampFlashes
  cases s.engine.inForce .stations with
  | none => rfl
  | some r => simp only [State.lamps, List.length_map, lampsDrawn, cellWidth]

/-- The phase turned, no role requested yet. -/
def State.flashTurned (s : State) : State := s.onEngine fun e => { e with flashOn := !e.flashOn }

theorem toggleFlash_latches (s : State) :
    Latches (· ∈ (if s.lampFlashes then [Role.stations] else []) ++ if s.tracker.xstop.taken then [Role.banner] else [])
      s.flashTurned.engine (toggleFlash s).engine := by
  have stations := raiseIf_latches_list (role := .stations) rfl s.lampFlashes s.flashTurned
  have banner := raiseIf_latches_list (role := .banner) rfl (s.bannerMessage = some .safetyStop)
    (s.flashTurned.raiseIf s.lampFlashes .stations)
  refine (stations.trans banner).congr fun r => ?_
  rw [List.mem_append]
  simp only [decide_eq_true_eq, bannerMessage_safetyStop_iff]

/-- Settles O58: the scroll is `scroll_unchanged`, `scrollSecond_counts`, `scrollStep_early` and `scrollStep_steps`, and the
toggle requests by `toggleFlash_latches`. -/
theorem tickerScrollsAndFlashToggles : Obligations.TickerScrollsAndFlashToggles := by
  intro s running quiet n lines
  refine ⟨fun fits => ?fits, fun r ticker long => ⟨?second, fun early => ?early, fun reached => ?step⟩, ?flash⟩
  case fits =>
    obtain ⟨second, step⟩ := scroll_unchanged fits
    exact ⟨event_unchanged running quiet second, event_unchanged running quiet step⟩
  case second => exact event_gives (f := scrollSecond) running quiet (scrollSecond_counts ticker long)
  case early => exact event_unchanged running quiet (scrollStep_early ticker early)
  case step =>
    have next : exec .scrollStep s = .next (serve (scrollStep s)) := event_next _ s running
    rw [scrollStep_steps ticker long reached] at next
    have latched := (raise_latches (role := .ticker) rfl (s.scrolled (n - r.scrollLines))).congr
      (q := (· ∈ [Role.ticker])) fun _ => List.mem_singleton.symm
    obtain ⟨rest, requested⟩ := latched.served quiet
    exact ⟨_, next, congrArg Engine.scrollCount rest, congrArg Engine.scrollOffset rest, requested,
      congrArg (fun e : Engine => { e with
        scrollOffset := s.engine.scrollOffset, scrollCount := s.engine.scrollCount }) rest,
      by apply State.ext <;> simp [State.scrolled]⟩
  case flash =>
    have next : exec .flashToggle s = .next (serve (toggleFlash s)) := event_next _ s running
    obtain ⟨rest, requested⟩ := (toggleFlash_latches s).served quiet
    rw [lampFlashes_eq] at requested
    exact ⟨_, next, congrArg Engine.flashOn rest, requested,
      congrArg (fun e : Engine => { e with flashOn := s.engine.flashOn }) rest, by apply State.ext <;> simp⟩

end Sys2Proof.Machine
end

section
/-! What a pass draws from its capture: the font, figures in decimal, the cells of STATIONS and the text lines of the other
roles (R163, R165, R166, R168 to R170). -/

namespace Sys2Proof.Machine

/-! ### Figures (R163) -/

theorem decimalOnto_eq {fuel n : Nat} (bound : n < 10 ^ fuel) (pos : 0 < n) (tail : List Glyph) :
    decimalOnto fuel n tail = ((Nat.digits 10 n).map digitGlyph).reverse ++ tail := by
  induction fuel generalizing n tail with
  | zero => omega
  | succ fuel ih =>
    rw [decimalOnto, Nat.digits_def' (by decide) pos]
    split
    · rename_i small
      rw [Nat.mod_eq_of_lt small, Nat.div_eq_of_lt small]
      simp
    · rw [ih (by omega) (by omega)]
      simp

/-- A figure is its decimal digits, the most significant first, and 0 is one digit. -/
theorem decimal_eq {n : Nat} (bound : n < 10 ^ 10) :
    decimal n = if n = 0 then [digitGlyph 0] else ((Nat.digits 10 n).map digitGlyph).reverse := by
  split
  · rename_i zero
    rw [zero]
    rfl
  · rw [decimal, decimalOnto_eq bound (by omega), List.append_nil]

/-! ### The cells of STATIONS (R162, R165) -/

/-- Past the last lamp, and past the last whole cell, the region is black. -/
theorem lampPixel_black {lamps : List Lamp} (flashOn : Bool) {w x : Nat}
    (outside : lamps.length ≤ x / cellWidth w lamps.length ∨
      ¬(x / cellWidth w lamps.length + 1) * cellWidth w lamps.length ≤ w) :
    lampPixel lamps flashOn w x = .black := by
  unfold lampPixel
  dsimp only
  split
  · rename_i l lamp
    have inside := (List.getElem?_eq_some_iff.1 lamp).1
    exact if_neg fun fits => outside.elim (by omega) fun beyond => beyond fits.1
  · rfl

/-- A lamp's cell: black in its last column where it is three or more wide, and where it flashes while the phase is OFF. -/
theorem lampPixel_cell {lamps : List Lamp} (flashOn : Bool) {w x : Nat} {l : Lamp}
    (lamp : lamps[x / cellWidth w lamps.length]? = some l)
    (fits : (x / cellWidth w lamps.length + 1) * cellWidth w lamps.length ≤ w) :
    lampPixel lamps flashOn w x =
      if 3 ≤ cellWidth w lamps.length ∧ x % cellWidth w lamps.length + 1 = cellWidth w lamps.length ∨
          l.flashing = true ∧ flashOn = false then .black
      else l.colour.pixel := by
  have last : x % cellWidth w lamps.length = cellWidth w lamps.length - 1 ↔
      x % cellWidth w lamps.length + 1 = cellWidth w lamps.length := by
    have wide : 2 ≤ cellWidth w lamps.length := Nat.le_max_left _ _
    omega
  have dark : (l.shown flashOn).pixel = if l.flashing = true ∧ flashOn = false then .black else l.colour.pixel := by
    unfold Lamp.shown
    cases l.flashing <;> cases flashOn <;> rfl
  unfold lampPixel
  simp only [lamp, fits, true_and, last, dark, ite_not, ite_or]

/-! ### Text lines (R163) -/

/-- The character `j` of line `t` is drawn whole in a region `w` by `h`, and its row and column here are those of the
pixel at `x`, `y`. -/
def TextLine.Covers (t : TextLine) (w h x y j row col : Nat) : Prop :=
  t.top + 8 ≤ h ∧ t.left + 6 * j + 5 ≤ w ∧ row < 7 ∧ col < 5 ∧ x = t.left + 6 * j + col ∧ y = t.top + row

/-- The picture pixel `shown` at `x`, `y` is that of some text lines over black. -/
structure Draws (lines : List TextLine) (w h x y : Nat) (shown : Pixel) : Prop where
  char : ∀ t ∈ lines, ∀ j row col g colour, t.Covers w h x y j row col → t.cells[j]? = some (g, colour) →
    shown = if (g.rows.getD row 0).testBit (4 - col) then colour.pixel else ⟨0, 0, 0⟩
  black : (∀ t ∈ lines, ∀ j row col, j < t.cells.length → ¬t.Covers w h x y j row col) → shown = ⟨0, 0, 0⟩

theorem textPixel_draws {lines : List TextLine} (apart : lines.Pairwise fun a b => a.top + 8 ≤ b.top) (w h x y : Nat) :
    Draws lines w h x y (textPixel lines w h x y) where
  char t mem j row col g colour covers cell := by
    obtain ⟨rows, columns, row_lt, col_lt, rfl, rfl⟩ := covers
    exact textPixel_char apart mem rows columns row_lt col_lt cell
  black none := textPixel_black none

/-- One line alone. -/
theorem textPixel_draws_one (t : TextLine) (w h x y : Nat) : Draws [t] w h x y (textPixel [t] w h x y) :=
  textPixel_draws (List.pairwise_singleton _ _) w h x y

/-- Lines without a character change nothing of what is drawn. -/
theorem Draws.congr {lines lines' : List TextLine} {w h x y : Nat} {shown : Pixel} (d : Draws lines w h x y shown)
    (same : ∀ t : TextLine, t.cells ≠ [] → (t ∈ lines' ↔ t ∈ lines)) : Draws lines' w h x y shown where
  char t mem j row col g colour covers cell := by
    have filled : t.cells ≠ [] := fun empty => by rw [empty] at cell; cases cell
    exact d.char t ((same t filled).1 mem) j row col g colour covers cell
  black none := d.black fun t mem j row col inside covers => by
    have filled : t.cells ≠ [] := List.ne_nil_of_length_pos (by omega)
    exact none t ((same t filled).2 mem) j row col inside covers

/-! ### The texts (R166, R168 to R170) -/

open Glyph in
/-- The two lines of PACE, written out. -/
theorem paceLines_eq (target expected actual : Nat) (gap : Int) (pace : Option Nat) (lost : Nat) :
    let white (t : List Glyph) : List (Glyph × Colour) := t.map fun g => (g, .white)
    paceLines target expected actual gap pace lost =
      [⟨0, 0, white ([gG, space] ++ decimal target ++ [space, gE, space] ++ decimal expected ++
          [space, gA, space] ++ decimal actual)⟩,
       ⟨8, 0, white [gG, gA, gP, space] ++
          ((if gap < 0 then [minus] else if gap = 0 then [] else [plus]) ++ decimal gap.natAbs).map
            (fun g => (g, if gap < 0 then .red else .green)) ++
          white ([space, gP, gA, gC, gE] ++
            (match pace with
              | none => []
              | some p => [space] ++ decimal p ++ [percent]) ++
            [space, gL, gO, gS, gT, space] ++ decimal lost)⟩] := by
  have sign : gapText gap =
      (if gap < 0 then [minus] else if gap = 0 then [] else [plus]) ++ decimal gap.natAbs := by
    unfold gapText
    rcases lt_trichotomy gap 0 with below | rfl | above
    · rw [if_pos below, if_pos below]
      rfl
    · rfl
    · rw [if_neg (by omega), if_pos above, if_neg (by omega), if_neg (by omega)]
      rfl
  unfold paceLines
  rw [sign]
  cases pace <;> simp [inColour]

open Glyph in
/-- A call's line, its letters written out. -/
theorem TickerLine.text_eq (t : TickerLine) :
    let two (n : Nat) : List Glyph := [digitGlyph (n / 10 % 10), digitGlyph (n % 10)]
    t.text = two t.station ++ [space] ++
      t.kinds.map (fun
        | .quality => gQ
        | .parts => gP
        | .equipment => gE
        | .safety => gS
        | .help => gH) ++
      [space] ++ two t.minutes ++ [space, gL, digitGlyph t.level] := by
  have letters : Kind.letter = fun
      | .quality => gQ
      | .parts => gP
      | .equipment => gE
      | .safety => gS
      | .help => gH := by
    funext k
    cases k <;> rfl
  rw [TickerLine.text, letters]
  rfl

/-- Line `k` of TICKER: a header line, or the call of that place from the scroll offset on (R166). -/
theorem tickerTexts_get (headers : List (List (Glyph × Colour))) (lines : List TickerLine) (offset first count k : Nat)
    (enough : first ≤ headers.length) (inside : k < first + count) :
    (headers.take first ++ ((lines.drop offset).take count).map fun t => inColour t.colour t.text)[k]? =
      if k < first then headers[k]?
      else (lines[offset + (k - first)]?).map fun t => inColour t.colour t.text := by
  rw [List.getElem?_append, List.length_take, Nat.min_eq_left enough]
  split
  · rename_i header
    exact List.getElem?_take_of_lt header
  · rw [List.getElem?_map, List.getElem?_take_of_lt (by omega), List.getElem?_drop]

/-- A line with a character is one of a stack where it is one of the stack's places, the places past the texts empty. -/
theorem mem_stackLines_iff_place {ts : List (List (Glyph × Colour))} {total : Nat} (short : ts.length ≤ total)
    {t : TextLine} (filled : t.cells ≠ []) :
    t ∈ stackLines 0 ts ↔ t ∈ (List.range total).map fun k => (⟨8 * k, 0, (ts[k]?).getD []⟩ : TextLine) := by
  simp only [mem_stackLines, List.mem_map, List.mem_range, Nat.zero_add]
  constructor
  · rintro ⟨k, cells, text, rfl⟩
    have inside := (List.getElem?_eq_some_iff.1 text).1
    exact ⟨k, by omega, by rw [text, Option.getD_some]⟩
  · rintro ⟨k, -, rfl⟩
    cases text : ts[k]? with
    | none => exact absurd (by rw [text, Option.getD_none]) filled
    | some cells => exact ⟨k, cells, text, by rw [Option.getD_some]⟩

/-- The texts of TICKER fill at most the region's lines. -/
theorem tickerTexts_length (r : Region) (headers : List (List (Glyph × Colour))) (calls : List TickerLine)
    (text : TickerLine → List (Glyph × Colour)) :
    (headers.take r.headerLines ++ (calls.take r.scrollLines).map text).length ≤ r.rect.height / 8 := by
  have header : r.headerLines ≤ r.rect.height / 8 := Nat.min_le_right _ _
  simp only [Region.scrollLines, List.length_append, List.length_map, List.length_take]
  omega

/-- TICKER's picture by the places of its lines: the headers in effect, then the calls from the scroll offset, and
nothing on the places left (R166). -/
theorem ticker_draws (r : Region) (openCount held : Nat) (lines : List TickerLine) (offset x y : Nat)
    (headerRows : r.headerRows ≤ 2) :
    Draws ((List.range (r.rect.height / 8)).map fun k =>
        ⟨8 * k, 0,
          if k < r.headerLines then ((headerTexts openCount held)[k]?).getD []
          else ((lines[offset + (k - r.headerLines)]?).map fun t => inColour t.colour t.text).getD []⟩)
      r.rect.width r.rect.height x y (r.pictureAt (.ticker openCount held lines offset) x y) := by
  have enough : r.headerLines ≤ (headerTexts openCount held).length := (Nat.min_le_left _ _).trans headerRows
  have within : r.headerLines ≤ r.rect.height / 8 := Nat.min_le_right _ _
  refine (textPixel_draws (stackLines_apart 0 _) _ _ x y).congr fun t filled => ?_
  rw [mem_stackLines_iff_place (tickerTexts_length r _ _ _) filled]
  refine Eq.to_iff (congrArg (t ∈ ·) (List.map_congr_left fun k place => ?_))
  have inside : k < r.headerLines + r.scrollLines := by
    have := List.mem_range.1 place
    unfold Region.scrollLines
    omega
  rw [tickerTexts_get _ _ _ _ _ _ enough inside, apply_ite (Option.getD · [])]

/-- Settles O55: figures are `decimal_eq`, the cells of STATIONS `lampPixel_black` and `lampPixel_cell`, and each picture
of text lines draws its characters over black by `textPixel_draws`, TICKER's by `ticker_draws`. -/
theorem pictureDrawsCellsAndTextLines : Obligations.PictureDrawsCellsAndTextLines := by
  intro r x y w h _ _
  refine ⟨fun n bound => decimal_eq bound, rfl, rfl, ?font, fun lamps flashOn => ⟨?dark, ?cell⟩, ?text⟩
  case font => decide
  case dark => exact lampPixel_black flashOn
  case cell => exact fun l lamp fits => lampPixel_cell flashOn lamp fits
  case text =>
    intro draws white two
    have drawn {capture : Capture} {lines : List TextLine} (d : Draws lines w h x y (r.pictureAt capture x y)) :
        draws capture lines := ⟨d.char, d.black⟩
    have banner (m : BannerMessage) (flashOn : Bool) :
        draws (.banner (some m) flashOn) [⟨0, 0, inColour (m.colour flashOn) m.text⟩] :=
      drawn (textPixel_draws_one _ w h x y)
    refine ⟨fun target expected actual gap pace lost => drawn ?pace, fun openCount held lines offset => ?ticker,
      fun shown => drawn ?clock, fun flashOn => ⟨banner .safetyStop flashOn, banner .lineLink flashOn,
        banner .stopElsewhere flashOn, banner .plantLink flashOn, banner .inBreak flashOn, banner .overtime flashOn,
        drawn (textPixel_draws List.Pairwise.nil w h x y)⟩⟩
    case pace =>
      exact Eq.subst (motive := fun ls => Draws ls w h x y _) (paceLines_eq target expected actual gap pace lost)
        (textPixel_draws (by simp [paceLines]) w h x y)
    case ticker =>
      intro total headers headerText callText headerRows
      refine drawn (Eq.subst (motive := fun ls => Draws ls w h x y _) (List.map_congr_left fun k _ => ?_)
        (ticker_draws r openCount held lines offset x y headerRows))
      refine congrArg (TextLine.mk _ _) (if_congr Iff.rfl ?header ?call)
      case header =>
        match k with
        | 0 | 1 | _ + 2 => rfl
      case call =>
        show ((lines[offset + (k - headers)]?).map _).getD [] = _
        cases lines[offset + (k - headers)]? with
        | none => rfl
        | some t => exact congrArg (inColour t.colour) (TickerLine.text_eq t)
    case clock =>
      cases shown with
      | none => exact textPixel_draws_one _ w h x y
      | some c => exact textPixel_draws_one _ w h x y

end Sys2Proof.Machine
end

section
/-! Hard reset in force: only a hard reset and its end act (R178). -/

namespace Sys2Proof.Machine

/-- In hard reset SCK is ignored. -/
theorem sckEdge_held (e : SckEdge) {s : State} (reset : s.inReset = true) : sckEdge e s = .next s := by
  simp [sckEdge, reset]

/-- In hard reset no command but HARD_RESET and END_OF_HARD_RESET acts: the others are events, and edges of SCK. -/
theorem exec_held {c : Instr} {s : State} (reset : s.inReset = true) (notReset : ∀ input, c ≠ .hardReset input)
    (notEnd : ∀ adr tst xtal gone, c ≠ .endOfHardReset adr tst xtal gone) : exec c s = .next s := by
  cases c
  case hardReset input => exact absurd rfl (notReset input)
  case endOfHardReset adr tst xtal gone => exact absurd rfl (notEnd adr tst xtal gone)
  case commandByte input =>
    cases input with
    | byte code => exact event_held (argumentsFollow code) s reset
    | edge e => exact sckEdge_held e reset
  case step | xstopChange | stallMonitorSecond | shiftTimerSecond | closeCompletion | callSecond | pull | release
      | leaderReset | bufferSet | countAdjust | lineShiftStart | commitPlan | plantShiftStart | shiftClose | clearCall
      | writeLayoutZone | writeLayoutStation | writeLinkSettings =>
    exact centreEvent_held _ s reset
  case runClockSecond =>
    -- named first: unified through `exec`, the run clock's bound would be counted down
    show execRunClockSecond s = .next s
    exact event_held _ s reset
  all_goals exact event_held _ s reset

/-- Settles O4: the outputs are `outputs_released`, and the commands held back are those of `exec_held`. -/
theorem hardResetHoldsBackEvents : Obligations.HardResetHoldsBackEvents := fun _ s =>
  ⟨inReset_iff s, fun reset =>
    have ⟨miso, level, released⟩ := outputs_released reset
    ⟨miso, level, released, exec_held reset⟩⟩

end Sys2Proof.Machine
end

section
/-! The tile chain: a tile's return and the portion after it, the sequential start, and RESTART TILES (R171 to R173). -/

namespace Sys2Proof.Machine

/-! ### Commands that reach the Tile Driver alone -/

/-- An event that at most changes the Tile Driver. -/
theorem event_onTiles {f : State → State} {s : State} {g : TileDriver → TileDriver} (running : s.inReset = false)
    (quiet : s.Quiet) (h : f s = s.onTiles g) : event f s = .next { s with tiles := g s.tiles } :=
  event_gives running quiet h

/-- A plant command that at most changes the Tile Driver is answered, and nothing else follows. -/
theorem commandEvent_onTiles {c : PlantCommand} {rule : CommandRule} {s : State} {g : TileDriver → TileDriver}
    {r : PlantResult} (running : s.inReset = false) (quiet : s.Quiet) (h : s.plant.transaction = .arguments c)
    (applied : rule s = (s.onTiles g, r)) :
    event (takeCommand c rule) s = .next { s with plant := s.plant.answered r, tiles := g s.tiles } :=
  event_gives running quiet ((takeCommand_arguments h rule).trans (by rw [applied]; rfl))

/-! ### A tile's return (R171, R172) -/

/-- The return of an enabled tile is evaluated, that of a disabled one is not. -/
theorem portionEnds_tiles (d : TileDriver) (m : Memory) (t : Fin 30) (present : Bool) :
    (d.portionEnds m t present).tiles =
      if t.val / 3 < d.startCount then d.tiles.upd t fun p => p.returned present else d.tiles := by
  simp only [TileDriver.portionEnds, TileDriver.tileEnabled, decide_eq_true_eq]
  split <;> rfl

/-- The next tile's portion begins. -/
theorem portionEnds_portion (d : TileDriver) (m : Memory) (t : Fin 30) (present : Bool) :
    (d.portionEnds m t present).portion = d.portionOf m (t + 1) := by
  unfold TileDriver.portionEnds
  dsimp only
  split <;> rfl

/-- A portion's end reaches the tiles' presence and the portion alone. -/
theorem portionEnds_rest (d : TileDriver) (m : Memory) (t : Fin 30) (present : Bool) :
    { d.portionEnds m t present with tiles := d.tiles, portion := d.portion } = d := by
  unfold TileDriver.portionEnds
  dsimp only
  split <;> rfl

/-- The pixels of a tile lie in the tile's square. -/
theorem tileAddress_held (t : Fin 30) {n : Nat} (hn : n < 256) :
    Rect.holdsAddress ⟨16 * (t.val / 3), 16 * (t.val % 3), 16 * (t.val / 3) + 15, 16 * (t.val % 3) + 15⟩
      (tileAddress t n) = true := by
  have column : 16 * (t.val / 3) + n % 16 < 160 := by omega
  rw [tileAddress, pixelAddress, holdsAddress_pixel _ column, Rect.holds_iff]
  dsimp only
  omega

/-- The pixels that a portion takes at its beginning are the Frame Store's. -/
theorem read_ofTile_tileAddress (m : Memory) (t : Fin 30) {n : Nat} (hn : n < 256) :
    (m.ofTile t).read (tileAddress t n) = m.read (tileAddress t n) := by
  rw [Memory.read_ofTile, if_pos (tileAddress_held t hn)]

/-! ### The sequential start (R173) -/

/-- The start begun anew: at count 0 no group is enabled and the portion in flight goes dark, at 10 all are. -/
theorem restarted_startedCount (d : TileDriver) (tst : BitVec 2) :
    d.restarted (startedCount tst) =
      { d with
        startCount := if tst = 0 then 10 else 0
        portion := { d.portion with lit := d.portion.lit && decide (tst = 0) } } := by
  have enabled : decide (d.portion.tile.val / 3 < if tst = 0 then 10 else 0) = decide (tst = 0) := by
    by_cases zero : tst = 0
    · have within : d.portion.tile.val / 3 < 10 := by omega
      rw [if_pos zero, decide_eq_true zero, decide_eq_true within]
    · rw [if_neg zero, decide_eq_false zero, decide_eq_false (Nat.not_lt_zero _)]
  simp only [TileDriver.restarted, TileDriver.tileEnabled, startedCount_eq, enabled]

/-- RESTART TILES begins the start anew, from its command byte. -/
theorem restartTiles_next {s : State} (running : s.inReset = false) (quiet : s.Quiet)
    (ready : s.plant.transaction = .ready) :
    ∃ t, exec .restartTiles s = .next t ∧ t.tiles = s.tiles.restarted (startedCount s.straps.tst) ∧
      t.plant = s.plant.linked.answered .ok ∧ { t with tiles := s.tiles, plant := s.plant, engine := s.engine } = s ∧
      RequestedOnly s.plantLinkRoles s t := by
  have next : exec .restartTiles s = .next (serve (takeCommand .restartTiles applyRestart s)) := event_next _ s running
  rw [takeCommand_ready ready rfl] at next
  refine ⟨_, next, by simp [applyRestart], by simp [applyRestart, restartPlantLink_plant, PlantPort.answered],
    by apply State.ext <;> simp [applyRestart], Latches.served ?latches quiet⟩
  case latches => simpa [applyRestart] using restartPlantLink_latches s

/-- Settles O59: a return ends its tile's portion by the `portionEnds` lemmas, the next one's pixels read by
`read_ofTile_tileAddress`, and RESTART TILES is `restartTiles_next` with the count of `restarted_startedCount`. -/
theorem tileReturnsAndStartCountFollowTheChain : Obligations.TileReturnsAndStartCountFollowTheChain := by
  intro i present s running quiet
  have tiles := portionEnds_tiles s.tiles s.frame.pixels i present
  have portion := portionEnds_portion s.tiles s.frame.pixels i present
  refine ⟨⟨_, event_onTiles running quiet rfl, fun enabled => ?enabled, fun disabled => ?disabled, fun j other => ?other,
    ?portion, fun n hn => ?pixels, portionEnds_rest _ _ _ _, rfl⟩, event_onTiles running quiet rfl, fun ready => ?restart⟩
  case enabled =>
    dsimp only
    rw [tiles, if_pos enabled, Tab.at_upd_self]
    rfl
  case disabled =>
    dsimp only
    rw [tiles, if_neg (Nat.not_lt.2 disabled)]
  case other =>
    dsimp only
    rw [tiles]
    split
    · exact Tab.at_upd_ne _ _ other
    · rfl
  case portion =>
    dsimp only
    rw [portion]
    rfl
  case pixels =>
    dsimp only
    rw [portion]
    exact read_ofTile_tileAddress s.frame.pixels (i + 1) hn
  case restart =>
    have next := restartTiles_next running quiet ready
    rwa [restarted_startedCount] at next

end Sys2Proof.Machine
end

section
/-! The intensity: SET INTENSITY, and the steps of the ramp (R174, R175). -/

namespace Sys2Proof.Machine

/-! ### SET INTENSITY (R174) -/

theorem applyIntensity_range {target ramp flags : Nat} (s : State) (h : 5 < ramp) :
    applyIntensity target ramp flags s = (s, .range) := if_pos h

/-- The Tile Driver with the fields of SET INTENSITY stored; with ramp code 0 the intensity is the effective target that
they give while ALERT stands as it does. -/
def TileDriver.intensitySet (d : TileDriver) (target ramp flags : Nat) (alert : Bool) : TileDriver :=
  { d with
    target := min 63 target
    rampCode := ramp
    asymmetric := flags.testBit 0
    override := flags.testBit 1
    decreaseCount := 0
    actual := if ramp = 0 then if flags.testBit 1 && alert then 63 else min 63 target else d.actual }

theorem applyIntensity_stored {target ramp flags : Nat} (s : State) (h : ramp ≤ 5) :
    applyIntensity target ramp flags s =
      (s.onTiles fun d => d.intensitySet target ramp flags s.alert.asserted, .ok) := by
  rw [applyIntensity, if_neg (Nat.not_lt.2 h)]
  by_cases direct : ramp = 0
  · subst direct
    rfl
  · simp only [TileDriver.intensitySet, if_neg direct]

/-! ### The ramp (R175) -/

section
variable {d : TileDriver} {target : Nat}

theorem ramped_below (below : d.actual < target) :
    d.ramped target = { d with actual := d.actual + 1, decreaseCount := 0 } := if_pos below

theorem ramped_reached (reached : d.actual = target) : d.ramped target = { d with decreaseCount := 0 } := by
  rw [TileDriver.ramped, if_neg (by omega), if_pos reached]

/-- Above the target the intensity falls at each expiry, under the asymmetric flag at every fourth. -/
theorem ramped_above (above : target < d.actual) :
    d.ramped target =
      if d.asymmetric = true ∧ d.decreaseCount < 3 then { d with decreaseCount := d.decreaseCount + 1 }
      else { d with actual := d.actual - 1, decreaseCount := 0 } := by
  rw [TileDriver.ramped, if_neg (by omega), if_neg (by omega)]
  by_cases slow : d.asymmetric = true
  · rw [if_pos slow]
    by_cases early : d.decreaseCount < 3
    · rw [if_neg (Nat.not_le.2 early), if_pos ⟨slow, early⟩]
    · rw [if_pos (Nat.not_lt.1 early), if_neg fun both => early both.2]
  · rw [if_neg slow, if_neg fun both => slow both.1]

end

/-- With ramp code 0 no timer runs. -/
theorem rampExpiry_direct {s : State} (running : s.inReset = false) (quiet : s.Quiet) (direct : s.tiles.rampCode = 0) :
    exec .rampExpiry s = .next s := event_unchanged running quiet (if_pos direct)

/-- With any other the Tile Driver takes the ramp's step toward the effective target. -/
theorem rampExpiry_ramps {s : State} {d : TileDriver} (running : s.inReset = false) (quiet : s.Quiet)
    (timed : s.tiles.rampCode ≠ 0) (step : s.tiles.ramped s.effectiveTarget = d) :
    exec .rampExpiry s = .next { s with tiles := d } :=
  step ▸ event_onTiles (g := fun t => t.ramped s.effectiveTarget) running quiet (if_neg timed)

/-- Settles O60: SET INTENSITY is `applyIntensity_range` or `applyIntensity_stored`, and each row of the ramp's table is
`ramped_below`, `ramped_reached` or `ramped_above`. -/
theorem intensityIsSetAndRampsTowardTarget : Obligations.IntensityIsSetAndRampsTowardTarget := by
  intro tg rc fl s running quiet
  refine ⟨fun h => ⟨fun beyond => ?range, fun coded => ?stored⟩, rfl, fun direct => ?direct, fun timed below => ?below,
    fun timed reached => ?reached, fun timed above symmetric => ?falls, fun timed above slow early => ?waits,
    fun timed above slow fourth => ?fallsSlow⟩
  case range => exact commandEvent_onTiles (g := id) running quiet h (applyIntensity_range s beyond)
  case stored => exact commandEvent_onTiles running quiet h (applyIntensity_stored s coded)
  case direct => exact rampExpiry_direct running quiet direct
  case below => exact rampExpiry_ramps running quiet timed (ramped_below below)
  case reached => exact rampExpiry_ramps running quiet timed (ramped_reached reached)
  case falls =>
    have falling : ¬(s.tiles.asymmetric = true ∧ s.tiles.decreaseCount < 3) := by simp [symmetric]
    exact rampExpiry_ramps running quiet timed ((ramped_above above).trans (if_neg falling))
  case waits => exact rampExpiry_ramps running quiet timed ((ramped_above above).trans (if_pos ⟨slow, early⟩))
  case fallsSlow =>
    have falling : ¬(s.tiles.asymmetric = true ∧ s.tiles.decreaseCount < 3) := by omega
    exact rampExpiry_ramps running quiet timed ((ramped_above above).trans (if_neg falling))

end Sys2Proof.Machine
end


section
/-! The status read: the line status block byte by byte, its check byte, and what the read leaves (R129, R130, R180). -/

namespace Sys2Proof.Machine

/-! ### The bytes of the block (R180) -/

theorem byteOf_toNat_of_lt {n : Nat} (h : n < 256) : (byteOf n).toNat = n := by
  rw [byteOf, BitVec.toNat_ofNat, Nat.mod_eq_of_lt h]

/-- A zone's reason bits, and OVERRUN in bit 7. -/
theorem reasonByte_toNat (z : ZoneState) :
    (byteOf (z.reasons.bits + bitAt 7 z.overrun)).toNat =
      z.reasons.hold.toNat + 2 * z.reasons.plan.toNat + 4 * z.reasons.xstop.toNat + 8 * z.reasons.blocked.toNat +
        16 * z.reasons.starved.toNat + 128 * z.overrun.toNat := by
  have hold := z.reasons.hold.toNat_le
  have plan := z.reasons.plan.toNat_le
  have xstop := z.reasons.xstop.toNat_le
  have blocked := z.reasons.blocked.toNat_le
  have starved := z.reasons.starved.toNat_le
  have overrun := z.overrun.toNat_le
  simp only [ReasonSet.bits, bitAt_eq]
  exact (byteOf_toNat_of_lt (by omega)).trans (by omega)

theorem zoneByte_used {s : State} {k : Fin 6} (used : k.val < s.layout.used) :
    s.zoneByte k = byteOf ((s.tracker.zones.at_ k).reasons.bits + bitAt 7 (s.tracker.zones.at_ k).overrun) :=
  if_pos ((zoneUsed_iff _ _).2 used)

theorem zoneByte_unused {s : State} {k : Fin 6} (unused : ¬k.val < s.layout.used) : s.zoneByte k = 0 :=
  if_neg (mt (zoneUsed_iff _ _).1 unused)

/-- A buffer's count, and its slip flags in bits 4 and 5. -/
theorem buffer_lossByte_toNat (b : Buffer) :
    b.lossByte.toNat = b.count % 16 + 16 * b.overSlip.toNat + 32 * b.underSlip.toNat := by
  have overSlip := b.overSlip.toNat_le
  have underSlip := b.underSlip.toNat_le
  rw [buffer_lossByte_table]
  exact byteOf_toNat_of_lt (by omega)

/-- A used buffer has one byte in this block and in the loss block. -/
theorem bufferByte_used {s : State} {k : Fin 5} (used : k.val + 1 < s.layout.used) :
    s.bufferByte k = (s.tracker.buffers.at_ k).lossByte :=
  if_pos ((bufferUsed_iff _ _).2 used)

theorem bufferByte_unused {s : State} {k : Fin 5} (unused : ¬k.val + 1 < s.layout.used) : s.bufferByte k = 0 :=
  if_neg (mt (bufferUsed_iff _ _).1 unused)

/-- The shift state and the last line result. -/
theorem stateByte_toNat (state : ShiftState) (result : LineResult) :
    (byteOf (state.code + 16 * result.code)).toNat = state.code + 16 * result.code := by
  cases state <;> cases result <;> rfl

/-- A count in bits 5 to 0 and a flag in each of bits 6 and 7. -/
theorem countByte_toNat (n : Nat) (a b : Bool) :
    (byteOf (n % 64 + bitAt 6 a + bitAt 7 b)).toNat = n % 64 + 64 * a.toNat + 128 * b.toNat := by
  have low := a.toNat_le
  have high := b.toNat_le
  rw [bitAt_eq, bitAt_eq]
  exact byteOf_toNat_of_lt (by omega)

theorem slotsByte_toNat (n : Nat) : (byteOf (n % 32)).toNat = n % 32 := byteOf_toNat_of_lt (by omega)

theorem holdCount_eq (c : CallList) : c.holdCount = c.calls.countP fun x => decide (x.phase = .hold) :=
  List.countP_eq_length_filter.symm

/-! ### The block as it is served (R129, R180) -/

theorem lineBlock_length (s : State) : s.lineBlock.length = 16 := rfl

theorem lineBlock_zone (s : State) (k : Fin 6) : s.lineBlock.getD k.val 0xFF = s.zoneByte k := by
  fin_cases k <;> rfl

theorem lineBlock_buffer (s : State) (k : Fin 5) : s.lineBlock.getD (6 + k.val) 0xFF = s.bufferByte k := by
  fin_cases k <;> rfl

theorem lineBlock_past (s : State) (i : Nat) : s.lineBlock.getD (16 + i) 0xFF = 0xFF :=
  List.getD_eq_default _ _ (by rw [lineBlock_length]; omega)

/-- The check byte brings the sum of the block to 0. -/
theorem byteSum_lineBlock (s : State) : byteSum s.lineBlock = 0 := by
  have last (bs : List Byte) (b : Byte) : byteSum (bs ++ [b]) = byteSum bs + b := List.foldl_concat ..
  rw [State.lineBlock, last, zero_sub, add_neg_cancel]

/-- The first `n` bytes of a list of `n`, by number, are the list. -/
theorem map_range_getD {α β : Type} {l : List α} {n : Nat} (length : l.length = n) (d : α) (f : α → β) :
    ((List.range n).map fun i => f (l.getD i d)) = l.map f := by
  subst length
  apply List.ext_getElem <;> simp +contextual

theorem lineBlock_sum (s : State) :
    ((List.range 16).map fun i => (s.lineBlock.getD i 0xFF).toNat).sum % 256 = 0 := by
  rw [map_range_getD (lineBlock_length s), ← byteSum_eq_zero_iff]
  exact byteSum_lineBlock s

theorem served_serving {l : LinePort} {block : List Byte} (serving : l.phase = .serving block) (i : Nat) :
    l.served i = block.getD i 0xFF := by
  simp only [LinePort.served, serving]

/-! ### The read (R129, R130) -/

/-- The block is captured with the broadcast-missed flag as it was, the flag cleared and the link restarted. -/
theorem lineStatusRead_serves {s : State} (running : s.inReset = false) (quiet : s.Quiet) :
    ∃ t, exec .lineStatusRead s = .next t ∧
      t.line =
        { s.line with
          phase := .serving s.lineBlock, answer := .ack, byteAnswers := [], broadcastMissed := false
          clock := ⟨.data, [], [], 0, true⟩, link := ⟨.up, 0, s.line.link.timeout⟩ } ∧
      { t with line := s.line, engine := s.engine } = s ∧
      RequestedOnly (if s.line.link.state = .up then [] else [.stations, .ticker, .banner]) s t := by
  have latches := restartLineLink_latches (s.onLine fun l =>
    { l.addressed .ack (.serving s.lineBlock) with broadcastMissed := false })
  refine ⟨_, event_next statusRead s running, ?_, by apply State.ext <;> simp, Latches.served (s := s) latches quiet⟩
  simp only [serve_keeps, statusRead, restartLineLink_line]
  rfl

/-- Settles O40: the read is `lineStatusRead_serves`, each byte it serves is that of the captured block, and the bytes
sum to 0 by `lineBlock_sum`. -/
theorem lineStatusReadCapturesBlockAndClearsMissed : Obligations.LineStatusReadCapturesBlockAndClearsMissed := by
  intro s running quiet
  obtain ⟨t, next, line, frame, requested⟩ := lineStatusRead_serves running quiet
  have phase : t.line.phase = .serving s.lineBlock := by rw [line]
  refine ⟨t, next, ?bytes, by rw [phase, line], frame, requested⟩
  simp only [served_serving phase]
  refine ⟨fun k => ?zone, fun k => ?buffer, stateByte_toNat _ _, ?calls, ?holds, slotsByte_toNat _, lineBlock_sum s,
    fun i => ?past⟩
  case zone =>
    rw [lineBlock_zone]
    split
    case isTrue used => rw [zoneByte_used used, reasonByte_toNat]
    case isFalse unused => rw [zoneByte_unused unused]; rfl
  case buffer =>
    rw [lineBlock_buffer]
    split
    case isTrue used => rw [bufferByte_used used, buffer_lossByte_toNat]
    case isFalse unused => rw [bufferByte_unused unused]; rfl
  case calls => exact countByte_toNat _ _ _
  case holds =>
    rw [← holdCount_eq, ← fault_eq]
    exact countByte_toNat _ _ _
  case past => rw [lineBlock_past]; rfl

end Sys2Proof.Machine
end

section
/-! The queue of waiting commands: a step takes its front, and every command ends in a next state that leaves the rest
of it. -/

namespace Sys2Proof.Machine

/-- Settles O1: the front of the queue decides which case of `step` is taken. -/
theorem stepTakesFrontCommand : Obligations.StepTakesFrontCommand := fun _ _ _ => rfl

/-- A result that is a next state, with the queue as it is in `s`. -/
def LeavesQueue (s : State) (r : Result) : Prop := ∃ t, r = .next t ∧ t.pending = s.pending

/-! ### What an event leaves -/

/-- In hard reset or not an event answers a next state, with the queue as its function leaves it. -/
theorem event_leavesQueue {f : State → State} (kept : ∀ s, (f s).pending = s.pending) (s : State) :
    LeavesQueue s (event f s) :=
  ⟨_, rfl, event_proj State.pending kept (by simp) rfl⟩

theorem commandEvent_leavesQueue {c : PlantCommand} {rule : CommandRule} (kept : ∀ s, (rule s).1.pending = s.pending)
    (s : State) : LeavesQueue s (event (takeCommand c rule) s) :=
  event_leavesQueue (takeCommand_proj State.pending (by simp) (by simp) (by simp) kept) s

theorem takeRead_pending {c : PlantCommand} {reply : State → Transaction} (s : State) :
    (takeRead c reply s).pending = s.pending :=
  takeRead_proj State.pending (by simp) (by simp) (by simp) s

/-! ### Hard reset and its end -/

theorem execHardReset_leavesQueue (input : ResetInput) (s : State) : LeavesQueue s (execHardReset s input) := by
  refine ⟨_, execHardReset_next input s, ?_⟩
  dsimp only
  split <;> rfl

theorem execEndOfHardReset_leavesQueue (adr : BitVec 3) (tst : BitVec 2) (xtal : Bool) (gone : ResetEnd) (s : State) :
    LeavesQueue s (execEndOfHardReset adr tst xtal s gone) := by
  refine ⟨_, execEndOfHardReset_next adr tst xtal gone s, ?_⟩
  dsimp only
  split
  · simp [endReset]
  · rfl

/-! ### Every command -/

/-- Every command but an edge of SCK: the two of hard reset, the events of the centre and the frames by their own frame
lemmas, and the other events by what their functions leave. -/
theorem exec_leavesQueue {c : Instr} (notEdge : ∀ e, c ≠ .commandByte (.edge e)) (s : State) :
    LeavesQueue s (exec c s) := by
  cases c
  case hardReset input => exact execHardReset_leavesQueue input s
  case endOfHardReset adr tst xtal gone => exact execEndOfHardReset_leavesQueue adr tst xtal gone s
  -- the events of the centre, and the Line Port's frames
  case step p => exact ⟨_, rfl, by simp only [execStep_keeps p rfl]⟩
  case xstopChange m => exact ⟨_, rfl, by simp only [execXstopChange_keeps m rfl]⟩
  case stallMonitorSecond k => exact ⟨_, rfl, by simp only [execStallMonitorSecond_keeps k rfl]⟩
  case shiftTimerSecond => exact ⟨_, rfl, by simp only [execShiftTimerSecond_keeps rfl]⟩
  case closeCompletion => exact ⟨_, rfl, by simp only [execCloseCompletion_keeps rfl]⟩
  case callSecond only => exact ⟨_, rfl, by simp only [execCallSecond_keeps only rfl]⟩
  case pull => exact ⟨_, rfl, by simp only [execPull_keeps rfl]⟩
  case release => exact ⟨_, rfl, by simp only [execRelease_keeps rfl]⟩
  case leaderAck => exact ⟨_, rfl, by simp only [execLeaderAck_keeps rfl]⟩
  case leaderReset => exact ⟨_, rfl, by simp only [execLeaderReset_keeps rfl]⟩
  case bufferSet => exact ⟨_, rfl, by simp only [execBufferSet_keeps rfl]⟩
  case countAdjust => exact ⟨_, rfl, by simp only [execCountAdjust_keeps rfl]⟩
  case lineShiftStart => exact ⟨_, rfl, by simp only [execLineShiftStart_keeps rfl]⟩
  case timeMark => exact ⟨_, rfl, by simp only [execTimeMark_keeps rfl]⟩
  case keepalive => exact ⟨_, rfl, by simp only [execKeepalive_keeps rfl]⟩
  case commitPlan mode => exact ⟨_, rfl, by simp only [execCommitPlan_keeps mode rfl]⟩
  case plantShiftStart n o => exact ⟨_, rfl, by simp only [execPlantShiftStart_keeps n o rfl]⟩
  case shiftClose => exact ⟨_, rfl, by simp only [execShiftClose_keeps rfl]⟩
  case clearCall n r => exact ⟨_, rfl, by simp only [execClearCall_keeps n r rfl]⟩
  case writeLayoutZone a b c d f g h i =>
    exact ⟨_, rfl, by simp only [execWriteLayoutZone_keeps a b c d f g h i rfl]⟩
  case writeLayoutStation a b c => exact ⟨_, rfl, by simp only [execWriteLayoutStation_keeps a b c rfl]⟩
  case writeLinkSettings a b c => exact ⟨_, rfl, by simp only [execWriteLinkSettings_keeps a b c rfl]⟩
  -- the other events: time, the inputs, the engine's passes and the tiles
  case runClockSecond =>
    -- named first: unified through `exec`, the run clock's bound would be counted down
    show LeavesQueue s (execRunClockSecond s)
    exact event_leavesQueue (by simp) s
  case xalertChange | scrollSecond | scrollStep | flashToggle | startTimerExpiry | rampExpiry | presenceReturn
      | renderPassComplete =>
    exact event_leavesQueue (by simp) s
  -- the Line Port
  case addressByte input => cases input <;> exact event_leavesQueue (by simp) s
  case lineLinkSecond | lineStatusRead | lineFrame => exact event_leavesQueue (by simp) s
  -- the Plant Port's framing and reads
  case plantLinkSecond | csFalling | csRising | unknownCommand | statusFlagByteSent | presenceExtension
      | callRecordSlot =>
    exact event_leavesQueue (by simp) s
  case commandByte input =>
    cases input with
    | byte code => exact event_leavesQueue (f := argumentsFollow code) (by simp) s
    | edge e => exact absurd rfl (notEdge e)
  case readCalls | readHistory => exact event_leavesQueue takeRead_pending s
  case readStatus m | readStation m | readPace m | readLoss m | readSummary m =>
    cases m
    case firstByte => exact event_leavesQueue (by simp) s
    case taken => exact event_leavesQueue takeRead_pending s
  case historySlot m | pixelRead m => cases m <;> exact event_leavesQueue (by simp) s
  -- the Plant Port's other commands
  case writePixels =>
    exact event_leavesQueue (takeOrigin_proj State.pending (by simp) (by simp) (by simp) (by simp)) s
  case pixelGroup => exact event_leavesQueue (applyGroup_proj State.pending (by simp)) s
  case readPixels =>
    exact event_leavesQueue (takeReadPixels_proj State.pending (by simp) (by simp) (by simp) (by simp)) s
  all_goals exact commandEvent_leavesQueue (by simp) s

/-- An edge of SCK takes the command it completes or begins, if any, with the Plant Port's clock changed. -/
theorem ClockedCommand.leavesQueue {s : State} {r : Result} (h : ClockedCommand s r) : LeavesQueue s r := by
  obtain ⟨c, rfl | ⟨i, notEdge, rfl⟩⟩ := h
  · exact ⟨_, rfl, rfl⟩
  · exact exec_leavesQueue notEdge (setPlantClock c s)

theorem LeavesQueue.onNext_driveMiso {s : State} {r : Result} (h : LeavesQueue s r) :
    LeavesQueue s (onNext driveMiso r) := by
  obtain ⟨t, rfl, kept⟩ := h
  exact ⟨_, rfl, kept⟩

theorem commandEdge_leavesQueue (e : SckEdge) (s : State) : LeavesQueue s (execCommandByte (.edge e) s) := by
  obtain ⟨r, clocked, same | driven⟩ := commandEdge_spec e s
  · rw [same]
    exact clocked.leavesQueue
  · rw [driven]
    exact clocked.leavesQueue.onNext_driveMiso

/-- Settles O3: an edge of SCK by the command it is (`commandEdge_leavesQueue`), the others by `exec_leavesQueue`. -/
theorem everyCommandCompletesAndKeepsTheQueue : Obligations.EveryCommandCompletesAndKeepsTheQueue := by
  intro c s
  by_cases edge : ∃ e, c = .commandByte (.edge e)
  · obtain ⟨e, rfl⟩ := edge
    exact commandEdge_leavesQueue e s
  · exact exec_leavesQueue (fun e isEdge => edge ⟨e, isEdge⟩) s

end Sys2Proof.Machine
end
